-- ==== Sys2Proof/Word.lean ====
section
/-! DEFINITION. The word types of the Glivo ZV-128 and their plainest arithmetic: the 64-bit time word and
its comparison (R14, R17), octets, saturating counters, serial arithmetic, and rounding half away from
zero (R61). -/

namespace Sys2Proof

/-- One octet on the wire or in a store. -/
abbrev Byte := BitVec 8

/-- A time word: units of 1/256 ns, modulo 2^64 (R14). -/
abbrev TW := BitVec 64

/-- The signed difference d = (b − a) mod 2^64 of R17, read in two's complement. -/
def TW.diff (a b : TW) : Int := (b - a).toInt

/-- R17: b is later than a. -/
def TW.later (a b : TW) : Bool := decide (0 < TW.diff a b)

/-- R17: a is at or before b. -/
def TW.atOrBefore (a b : TW) : Bool := decide (0 ≤ TW.diff a b)

/-- The window of R18: the magnitude of the signed difference is below 2^62 units. -/
def TW.inWindow (now t : TW) : Bool :=
  decide (TW.diff now t < 2 ^ 62) && decide (-(2 ^ 62 : Int) < TW.diff now t)

/-- Serial arithmetic on 32 bits: a is at or before b (R275, R365). -/
def serialLe (a b : BitVec 32) : Bool := decide (0 ≤ (b - a).toInt)

/-- Serial arithmetic on 32 bits: a is before b (R356, R369). -/
def serialLt (a b : BitVec 32) : Bool := decide (0 < (b - a).toInt)

/-- A 32-bit counter that saturates at 2^32 − 1. -/
def satInc (n : Nat) : Nat := if n < 4294967295 then n + 1 else n

/-- A saturating 32-bit counter increased by k. -/
def satAdd (n k : Nat) : Nat := min (n + k) 4294967295

/-- A counter modulo 2^32. -/
def wrapInc (n : Nat) : Nat := (n + 1) % 4294967296

/-- Rounding n/d to the nearest whole number, ties away from zero (R61); d is positive. -/
def roundDiv (n : Int) (d : Nat) : Int :=
  if 0 ≤ n then (2 * n + d) / (2 * d) else - ((2 * (- n) + d) / (2 * d))

/-- The ceiling of n/d for naturals. -/
def ceilDiv (n d : Nat) : Nat := (n + d - 1) / d

/-- The natural number whose w-bit two's complement is i. -/
def wireInt (w : Nat) (i : Int) : Nat := (BitVec.ofInt w i).toNat

/-- The signed value of the low w bits of n. -/
def signedOf (w n : Nat) : Int := (BitVec.ofNat w n).toInt

/-- Bits [hi:lo] of n. -/
def bits (n hi lo : Nat) : Nat := (n >>> lo) % 2 ^ (hi - lo + 1)

/-- Bit k of n. -/
def bit (n k : Nat) : Bool := n.testBit k

/-- n in big-endian order over `len` octets. -/
def octetsOf : Nat → Nat → List Nat
  | 0, _ => []
  | len + 1, n => (n >>> (8 * len)) % 256 :: octetsOf len n

/-- The number that a big-endian octet string spells. -/
def natOf (l : List Nat) : Nat := l.foldl (fun acc b => acc * 256 + b % 256) 0

/-- Element k of a list changed by f; a list without it is unchanged. -/
def updAt {α : Type} (f : α → α) : Nat → List α → List α
  | _, [] => []
  | 0, a :: l => f a :: l
  | k + 1, a :: l => a :: updAt f k l

end Sys2Proof
end

