-- ==== Sys2Proof/Syntax.lean ====
section
/-! DEFINITION. The commands of the block: one constructor per row of spec/opcode_table.json. A row's
operands are what the outside world hands the module in that step: a written value with the role that
writes it, a received message, a measured quantity, or the part (die, port, stream) the event concerns. -/

namespace Sys2Proof

/-- The three roles, in ascending order (R323). -/
inductive Role where
  | observer | operator | custodian
deriving DecidableEq, Repr

/-- The clock sources that the monitor watches (R374). -/
inductive Source where
  | ocxo
  | refclk10
  | recovered (p : Fin 4)
deriving DecidableEq, Repr

/-- The boundary-scan instructions of R425. -/
inductive JtagInstr where
  | bypass | idcode | samplePreload | extest | clamp | highz
deriving DecidableEq, Repr

/-- A configuration image as a bank or the slot memory holds it (R350, R351). Its configuration section is
given as the list of its records, key (index · 256 + subindex) and wire value. -/
structure Image where
  compat     : Nat
  sequence   : BitVec 32
  generation : BitVec 32
  digest     : BitVec 64
  nodeId     : Nat
  serial     : BitVec 32
  writtenTw  : TW
  records    : List (Nat × Nat)
deriving DecidableEq, Repr

/-- The boundary-scan cells of the contacts that the module can drive (R425): for TRGOUT0, TRGOUT1, SCL, SDA and
REPLACE_N, whether the cell drives the contact, and its level. -/
structure JtagCells where
  drive : Vector Bool 5
  level : Vector Bool 5
deriving DecidableEq, Repr

/-- What reaches the test access port (R425): TRST_N low or the state Test-Logic-Reset, or an instruction that is
updated with what the boundary-scan register then holds. -/
inductive JtagEvent where
  | testLogicReset
  | update (i : JtagInstr) (cells : JtagCells)
deriving DecidableEq, Repr

/-- What BOOT reads from its stores (R353, R356, R357, R363). -/
structure BootRead where
  /-- Octets of the two slot banks. -/
  slot0 : List Nat
  slot1 : List Nat
  /-- Whether each transfer to the slot memory was acknowledged, oldest first. -/
  transfers : List Bool
  /-- Module banks, and copies of the keep region, whose octets have changed since their write so that their check fails. -/
  badBanks : List (Fin 2)
  badKeep  : List (Fin 2)
deriving DecidableEq, Repr

/-- The end of a mirror (R357, R359): its transfers, oldest first, and whether the bank reads back as written. -/
structure MirrorEnd where
  transfers  : List Bool
  readBackOk : Bool
deriving DecidableEq, Repr

/-- One memory error that the patrol or the scrub reports at a tick (R397, R399). -/
structure MemError where
  /-- DRAM page number (4 KiB) or SRAM row number (1 KiB). -/
  unit        : Nat
  /-- Number of the failing word in its page or row. -/
  word        : Nat
  /-- True when the word cannot be corrected. -/
  uncorrectable : Bool
deriving DecidableEq, Repr

/-- One word with bit errors that a buffer read or the scrub meets (R304): its word number in the frame, counted from the
first word of the common header; the word that an even number of errors leaves, which passes its parity check in the
SRAM (R316); whether the shadow copy of a framing word that fails its check fails too (R307); and the SRAM row that holds
the word (R399). -/
structure WordFault where
  word      : Nat
  unseen    : Option (BitVec 32)
  shadowBad : Bool
  row       : Option Nat
deriving DecidableEq, Repr

/-- What a read of a frame meets: words that fail their check, errors of the DRAM words it reads, and, of a frame that
leaves the reserve region before the tick after its move there, the words that failed at that move (R304). -/
structure ReadObs where
  words : List WordFault
  dram  : List MemError
  spill : List WordFault
deriving DecidableEq, Repr

/-- A stored capture word that cannot be corrected when it is read for sending (R201): its unit, the store index of its
sample, its channel, and the DRAM word. -/
structure CapFault where
  unit  : Fin 8
  index : Nat
  chan  : Fin 128
  err   : MemError
deriving DecidableEq, Repr

/-- Where a failing SRAM word lies (R399). -/
inductive SramArea where
  /-- In the frame at this position of the stream buffer, oldest first. -/
  | entered (pos : Nat) (f : WordFault)
  /-- In the frame at this position of class queue 4 + q in the assembly area. -/
  | assembly (q : Fin 3) (pos : Nat) (f : WordFault)
  /-- In the unreleased record at this position of the auxiliary ring. -/
  | auxRing (pos : Nat)
  /-- In the unreleased record at this position of the event ring. -/
  | evRing (pos : Nat)
  | tables
  /-- In a part of the SRAM that holds nothing. -/
  | unused
deriving DecidableEq, Repr

/-- The means of u of one channel at one gain code in a start-up self-calibration (R85), in output LSB, at 0 V and at
the two levels. -/
structure PairMeas where
  ch     : Fin 128
  code   : Fin 9
  mZero  : Rat
  mPlus  : Rat
  mMinus : Rat
deriving DecidableEq, Repr

/-- The measured weights of one slice (R64, steps 2 and 3 of Table 3.1). -/
structure SliceMeas where
  die     : Fin 4
  slice   : Fin 34
  weights : List Nat
deriving DecidableEq, Repr

/-- The verification of one slice (step 5 of Table 3.1): the errors of its nine levels and its 0 V offset (R91), in
output LSB. -/
structure LevelMeas where
  die    : Fin 4
  slice  : Fin 34
  errors : List Int
  offset : Int
deriving DecidableEq, Repr

/-- The outputs of a fit window (R96): for every block of 64 samples in order, the sum of 2^9·y′ of the incoming slice
and the sum of y″ of the reference output. -/
structure FitObs where
  blocks : List (Int × Int)
deriving DecidableEq, Repr

/-- The outcome of one ladder calibration (R99): new weights, errors of the nine verification levels, 0 V offsets and
level differences through the new and the previous weights, in output LSB. -/
structure LadderObs where
  weights : List Nat
  errors  : List Int
  oNew    : Int
  oOld    : Int
  dNew    : Int
  dOld    : Int
deriving DecidableEq, Repr

/-- What the module's own sensors report at a frame tick: oven regulation (R65, R380), the measured edge
position (R144), and the results of the patrol and the scrub (R397, R399). -/
structure TickObs where
  refOven    : Bool
  ocxoOven   : Bool
  /-- Measured modulator edge position at the tick, in units of 2^−48 edge. -/
  edgePos    : Int
  /-- OCXO tuning voltage that the discipline loop has reached (R377), in volts. -/
  tune       : Rat
  /-- What a start-up self-calibration has measured when a step of Table 3.1 ends at this tick. -/
  calWeights : List SliceMeas
  calPairs   : List PairMeas
  calLevels  : List LevelMeas
  dramErrors : List MemError
  sramErrors : List (SramArea × MemError)
  /-- Words that fail when a frame moves to the reserve region (R304), of the frames that have moved since the last tick:
  class queue, position of the frame in the queue's part of the reserve, and the word. -/
  spillFaults : List (Fin 3 × Nat × WordFault)
  /-- Stored capture words that cannot be corrected when they are read for sending at this tick (R201), and errors that
  SECDED corrects in those reads (R397). -/
  capFaults  : List CapFault
  capDram    : List MemError
deriving DecidableEq, Repr

/-- One channel's conversions since the last feed: the 18 decision bits (R61) of each modulator edge at which its slice
converted. -/
structure Feed where
  ch      : Fin 128
  samples : List (BitVec 18)
deriving DecidableEq, Repr

/-- What an overload sample exceeded (R46): the positive or the negative differential threshold, or the common-mode
threshold alone. -/
inductive OvrSide where
  | above | below | commonMode
deriving DecidableEq, Repr

/-- A run of overload samples (R46): how many, and what they exceeded. -/
structure OvrRun where
  samples : Nat
  side    : OvrSide
deriving DecidableEq, Repr

/-- What R210 judges of every PTP message: domainNumber, majorSdoId and minorSdoId as one number, versionPTP,
minorVersionPTP, and whether the message uses an option that Table 9.1 marks as not supported. -/
structure PtpHead where
  domain      : Nat
  sdoId       : Nat
  version     : Nat
  minor       : Nat
  unsupported : Bool
deriving DecidableEq, Repr

/-- The Sync that a Follow_Up completes: its domain, sourcePortIdentity and sequenceId (R218, R222). -/
structure SyncId where
  domain : Nat
  sdoId  : Nat
  parent : BitVec 80
  seq    : BitVec 16
deriving DecidableEq, Repr

/-- What waits at a port for the Follow_Up of a two-step Sync (R218). -/
structure SyncWait where
  port : Fin 4
  sync : SyncId
deriving DecidableEq, Repr

/-- The head and the sequenceId of a peer-delay message (R215, R217). -/
structure PeerHead where
  head : PtpHead
  seq  : BitVec 16
deriving DecidableEq, Repr

/-- A Signaling or Management message (R218): its head, and its Ethernet payload, one octet a number. -/
structure PtpOther where
  head   : PtpHead
  octets : List Nat
deriving DecidableEq, Repr

/-- The fields of a received Sync or Follow_Up that the module uses (R210, R218, R222). Correction fields are in units of
2^−16 ns. -/
structure PtpEvent where
  head       : PtpHead
  seq        : BitVec 16
  twoStep    : Bool
  logInt     : Int
  /-- secondsField and nanosecondsField of the originTimestamp of a one-step Sync, or of the preciseOriginTimestamp of a
  Follow_Up (R14). -/
  seconds    : Nat
  nanos      : Nat
  correction : Int
  /-- PCS/MAC ingress timestamp, in correction units. -/
  ingress    : Int
  /-- PCS/MAC egress timestamp of the forwarded copy, in correction units. -/
  egress     : Int
  /-- sourcePortIdentity. -/
  parent     : BitVec 80
deriving DecidableEq, Repr

/-- The Sync that a message is, or that a Follow_Up completes. -/
def PtpEvent.id (m : PtpEvent) : SyncId := ⟨m.head.domain, m.head.sdoId, m.parent, m.seq⟩

/-- An Announce message: its sequenceId and correctionField, which leave unchanged (R218), and the data set that the best
master clock algorithm compares (R219). -/
structure Announce where
  head       : PtpHead
  seq        : BitVec 16
  correction : Int
  priority1  : Nat
  clockClass : Nat
  accuracy   : Nat
  variance   : Nat
  priority2  : Nat
  gm         : BitVec 64
  steps      : Nat
  parent     : BitVec 80
deriving DecidableEq, Repr

/-- A peer-delay response (R215). Instants in correction units. -/
structure PdelayResp where
  head       : PtpHead
  seq        : BitVec 16
  twoStep    : Bool
  /-- Ingress PCS/MAC timestamp of the response. -/
  ingress    : Int
  correction : Int
  /-- requestReceiptTimestamp of a two-step peer. -/
  receipt    : Int
deriving DecidableEq, Repr

/-- A trigger message as received (Table 10.7). -/
structure TrgMessage where
  code     : BitVec 8
  scope    : BitVec 16
  sender   : BitVec 20
  sequence : BitVec 16
  epoch    : BitVec 16
  instant  : TW
  auth     : BitVec 64
deriving DecidableEq, Repr

/-- A received Axind frame whose frame check sequence has been judged (R265). -/
structure RxFrame where
  fcsOk  : Bool
  srcMac : BitVec 48
  /-- The Ethernet payload, one octet a number. -/
  octets : List Nat
deriving DecidableEq, Repr

/-- The commands, one per row of the table of operations and events. -/
inductive Instr where
  -- power and state (00, 15, 17, 19)
  | vmainApplied
  | vmainLost
  | wakeAsserted (level : Bool)
  | resetNAsserted
  | resetNRelease
  | bootComplete (selfTest : Bool) (slot : BootRead)
  | warmEnd
  | warmOvertime
  -- the tick (01)
  | frameTick (obs : TickObs)
  | portSelfTestEnd (p : Fin 4) (errors : Bool)
  | portSelfTestRetry (p : Fin 4)
  -- reference and calibration (03)
  | refReadySet (g : Fin 4)
  | calC0
  | calRestart
  | calEnd (c0 endTick : TW)
  | calStart (r : Role) (mask : BitVec 8)
  -- overload (02)
  | overloadExcursion (ch : Fin 128) (run : OvrRun)
  | overloadSpanClose (ch : Fin 128)
  -- rotation (04)
  | rotForwardFit (g : Fin 4) (fit : FitObs)
  | rotHandover (g : Fin 4)
  | rotLadderCalEnd (g : Fin 4) (slice : Fin 34) (obs : LadderObs)
  | rotReconnect (g : Fin 4)
  | rotReverseFit (g : Fin 4) (fit : FitObs)
  | rotHandBack (g : Fin 4)
  | rotPairUpdate (g : Fin 4)
  | stuckOutput (g : Fin 4) (slice : Fin 34)
  | arraySaturation (g : Fin 4) (slice : Fin 34)
  -- data (05, 06, 11)
  | resampledOutputFormed (st : Fin 16) (feed : List Feed)
  | interimClose (st : Fin 16)
  -- triggers (08)
  | trgTimeInstant (u : Fin 8)
  | trgHoldoffExpiry (u : Fin 8)
  | captureStoreResume (u : Fin 8)
  | trgoutPulseStart (o : Fin 2)
  | trgoutPulseEnd (o : Fin 2)
  -- open-wire check (02)
  | owcPhaseBoundary (g : Fin 4)
  | owcComplete (g : Fin 4) (feed : List Feed)
  -- fades (05)
  | fadeFirstOutput (g : Fin 4)
  | fadeComplete (g : Fin 4)
  -- auxiliary path (07)
  | auxWindowEvent (w : Fin 4)
  | auxConversionDone (code : Int)
  | auxCalBegin
  | auxCalEnd (offset gain : Int)
  | auxLaunch (r : Role) (v : BitVec 8)
  | auxInject (r : Role) (v : BitVec 32)
  | auxCalStart (r : Role) (v : BitVec 8)
  | auxRingRead (r : Role) (v : BitVec 16)
  -- events (10)
  | evEdge (x : Fin 8) (bin : Fin 32) (rising : Bool)
  | evRingRead (r : Role) (v : BitVec 16)
  -- network time (09)
  | syncReceive (p : Fin 4) (m : PtpEvent)
  | followUpReceive (p : Fin 4) (m : PtpEvent)
  | followUpTimeout (w : SyncWait)
  | announceReceive (p : Fin 4) (a : Announce)
  | announceReceiptTimeout (p : Fin 4)
  | ptpMessageForward (p : Fin 4) (m : PtpOther)
  | pdelayReqSend (p : Fin 4) (egress : Int)
  | pdelayReqReceive (p : Fin 4) (h : PeerHead) (ingress egress : Int)
  | pdelayRespReceive (p : Fin 4) (m : PdelayResp)
  | pdelayRespTimeout (p : Fin 4)
  | noOffsetTimeout
  -- clocks (15)
  | sourceStop (src : Source)
  | sourceRunning (src : Source)
  | refclk10Measure (ppb : Int)
  | sourceSwitchComplete
  | perfLevelChangeDone (windowNs : Nat)
  | gateIdleSignal (d : Fin 11)
  | gateTimeout (d : Fin 11)
  -- configuration storage (14)
  | imageWriteDone (readBackOk : Bool)
  | slotMirrorDone (readBackOk : MirrorEnd)
  -- link (11, 12)
  | axindFrameReceive (p : Fin 4) (f : RxFrame)
  | creditAckReceive (ackNext creditLimit : BitVec 32) (nak : Bool)
  | breakNoticeReceive (p : Fin 4) (detector : BitVec 20) (clear : Bool) (seq : BitVec 32)
  | portLocalFault (p : Fin 4)
  | portLinkReturn (p : Fin 4)
  | portPromote (p : Fin 4)
  | portRevert
  | retxTimeout
  | sbufEnter (obs : ReadObs)
  | frameTransmit (p : Fin 4) (obs : ReadObs)
  | sbufLineRelease
  | reserveRefill (obs : ReadObs)
  | triggerMessageReceive (m : TrgMessage)
  -- dictionary (13)
  | dictRequestReceive (p : Fin 4) (octets : List Nat)
  | dictRequestExecute
  | replayEntryExpiry
  | keyGraceExpiry (r : Role)
  | registerWrite (r : Role) (key value : Nat)
  | stagedWrite (r : Role) (key value : Nat)
  | keyWrite (r : Role) (which : Role) (key : BitVec 256)
  | identitySerialMatch (r : Role) (v : BitVec 32)
  | timeEpochWrite (r : Role) (v : BitVec 16)
  | refbufEnableWrite (r : Role) (g : Fin 4) (v : BitVec 8)
  | firCoefWrite (r : Role) (g : Fin 4) (b : Bool) (n : Fin 32) (v : BitVec 32)
  | trgMissClear (r : Role) (u : Fin 8) (v : BitVec 32)
  | firSeal (r : Role) (v : BitVec 16)
  | firLoadFactory (r : Role) (v : BitVec 16)
  | firXfadeStart (r : Role) (v : BitVec 32)
  | owcStart (r : Role) (v : BitVec 32)
  | streamStart (r : Role) (mask : BitVec 16)
  | streamStop (r : Role) (mask : BitVec 16)
  | trgArm (r : Role) (v : BitVec 16)
  | trgDisarm (r : Role) (v : BitVec 16)
  | timeStep (r : Role) (delta : BitVec 64)
  | timeSet (r : Role) (t : TW)
  | rerouteConfirm (r : Role) (v : BitVec 8)
  | rerouteApplyAsym (r : Role) (v : BitVec 8)
  | hoist (r : Role) (check : BitVec 128)
  | shadowDiscard (r : Role) (v : BitVec 32)
  | moduleReset (r : Role) (v : BitVec 8)
  | hibernate (r : Role) (v : BitVec 8)
  | pennantDip (r : Role) (v : BitVec 8)
  -- timed actions (10)
  | taSubmitStartStreams (r : Role) (desc : BitVec 256)
  | taSubmitStopStreams (r : Role) (desc : BitVec 256)
  | taSubmitTrgArm (r : Role) (desc : BitVec 256)
  | taSubmitHoist (r : Role) (desc : BitVec 256)
  | taSubmitOwc (r : Role) (desc : BitVec 256)
  | taSubmitStepTime (r : Role) (desc : BitVec 256)
  | taSubmitXfade (r : Role) (desc : BitVec 256)
  | taCancel (r : Role) (handle : BitVec 16)
  -- the table's last rows
  | jtagInstructionUpdate (j : JtagEvent)
  | auxHoldInstant
  | auxWindowRearm (w : Fin 4)
  | delayReqReceive (p : Fin 4)
  | pdelayRespFollowUpReceive (p : Fin 4) (h : PeerHead) (origin correction : Int)
  | entryIntoHibernate
  | resetCommandBootEntry
  | wakeWindowExpiry
  | keepRegionWriteDone (ok : Bool)
deriving DecidableEq, Repr

end Sys2Proof
end

