-- ==== Sys2Proof/Decode.lean ====
section
/-! DEFINITION. The table of operations and events gives no row any bits: the module's steps are events and
dictionary writes, not words. So no word spells a command. -/

namespace Sys2Proof

/-- The command that a word spells by the table's bits: no row of the table has bits. -/
def decodeTableWord (_nbits _w : Nat) : Option Instr := none

end Sys2Proof
end

