-- ==== Sys2Proof/Config.lean ====
section
/-! DEFINITION. What one individual module fixes and the spec leaves open: factory data (Table 18.17), the
shipped key, and the free values. None of these has a body, so no proof
can rest on a particular value. -/

namespace Sys2Proof

/-- Factory data by dictionary key, before it is cut to the entry's width (R449). -/
opaque Config.factory : Nat → Nat

/-- Factory resampler prototype coefficient: prototype, phase and tap, in units of 2^−30, before what R146 and R147 require
of it. -/
opaque Config.protoCoef : Nat → Nat → Nat → Int

/-- The Custodian key at shipment (R324). -/
opaque Config.factoryKey : BitVec 256

/-- A fresh free value: what the spec leaves open at the n-th such point of a run. -/
opaque Config.freeNat : Nat → Nat

/-- Whether a floating-point result that is not exact is rounded away from zero; the spec names no rounding
rule for reported F32 and F64 values. -/
opaque Config.roundUp : Int → Nat → Bool

end Sys2Proof
end

