-- ==== Sys2Proof/Machine/Hash.lean ====
section
/-! DEFINITION. The check functions that the spec names: SHA-256 (R366), HMAC-SHA-256 (R326) and CRC-32C in
the form of R128. Octet strings are lists of naturals below 256. -/

namespace Sys2Proof.Machine

/-- Addition of 32-bit words. -/
def add32 (a b : Nat) : Nat := (a + b) % 4294967296

/-- Rotation to the right of a 32-bit word. -/
def rotr (x n : Nat) : Nat := (x >>> n) ||| ((x <<< (32 - n)) % 4294967296)

/-- Complement of a 32-bit word. -/
def not32 (x : Nat) : Nat := 4294967295 - x % 4294967296

/-- Cube root of n scaled by 2^32, modulo 2^32, by bisection over `fuel` bits. -/
def rootFrac (p e : Nat) : Nat → Nat → Nat
  | 0, acc => acc
  | b + 1, acc => rootFrac p e b (if (acc + 2 ^ b) ^ e ≤ p * 2 ^ (32 * e) then acc + 2 ^ b else acc)

/-- The first 64 primes, from which FIPS 180-4 takes the constants of SHA-256. -/
def shaPrimes : List Nat :=
  [2, 3, 5, 7, 11, 13, 17, 19, 23, 29, 31, 37, 41, 43, 47, 53, 59, 61, 67, 71, 73, 79, 83, 89, 97, 101, 103, 107,
   109, 113, 127, 131, 137, 139, 149, 151, 157, 163, 167, 173, 179, 181, 191, 193, 197, 199, 211, 223, 227, 229,
   233, 239, 241, 251, 257, 263, 269, 271, 277, 281, 283, 293, 307, 311]

/-- Round constants: the first 32 fractional bits of the cube roots of the first 64 primes. -/
def shaK : List Nat := shaPrimes.map fun p => rootFrac p 3 36 0 % 4294967296

/-- Initial hash value: the first 32 fractional bits of the square roots of the first 8 primes. -/
def shaInit : List Nat := (shaPrimes.take 8).map fun p => rootFrac p 2 37 0 % 4294967296

/-- The eight working words. -/
structure Sha8 where
  a : Nat
  b : Nat
  c : Nat
  d : Nat
  e : Nat
  f : Nat
  g : Nat
  h : Nat
deriving DecidableEq, Repr

/-- One round with constant k and schedule word w. -/
def shaRound (s : Sha8) (k w : Nat) : Sha8 :=
  let s1 := rotr s.e 6 ^^^ rotr s.e 11 ^^^ rotr s.e 25
  let ch := (s.e &&& s.f) ^^^ (not32 s.e &&& s.g)
  let t1 := add32 (add32 (add32 (add32 s.h s1) ch) k) w
  let s0 := rotr s.a 2 ^^^ rotr s.a 13 ^^^ rotr s.a 22
  let mj := (s.a &&& s.b) ^^^ (s.a &&& s.c) ^^^ (s.b &&& s.c)
  ⟨add32 t1 (add32 s0 mj), s.a, s.b, s.c, add32 s.d t1, s.e, s.f, s.g⟩

/-- Extends a schedule held newest first by `n` words. -/
def shaExtend : Nat → List Nat → List Nat
  | 0, l => l
  | n + 1, l =>
    let w15 := l.getD 14 0
    let w2 := l.getD 1 0
    let s0 := rotr w15 7 ^^^ rotr w15 18 ^^^ (w15 >>> 3)
    let s1 := rotr w2 17 ^^^ rotr w2 19 ^^^ (w2 >>> 10)
    shaExtend n (add32 (add32 (add32 (l.getD 15 0) s0) (l.getD 6 0)) s1 :: l)

/-- Runs the rounds over paired constants and schedule words. -/
def shaRounds : Sha8 → List Nat → List Nat → Sha8
  | s, k :: ks, w :: ws => shaRounds (shaRound s k w) ks ws
  | s, _, _ => s

/-- One block of sixteen words. -/
def shaBlock (ks : List Nat) (h : Sha8) (block : List Nat) : Sha8 :=
  let r := shaRounds h ks (shaExtend 48 block.reverse).reverse
  ⟨add32 h.a r.a, add32 h.b r.b, add32 h.c r.c, add32 h.d r.d, add32 h.e r.e, add32 h.f r.f,
   add32 h.g r.g, add32 h.h r.h⟩

/-- Groups octets into 32-bit words. -/
def words32 : List Nat → List Nat
  | a :: b :: c :: d :: l => natOf [a, b, c, d] :: words32 l
  | _ => []

/-- Runs `n` blocks of sixteen words. -/
def shaBlocks (ks : List Nat) : Nat → Sha8 → List Nat → Sha8
  | 0, h, _ => h
  | n + 1, h, ws => shaBlocks ks n (shaBlock ks h (ws.take 16)) (ws.drop 16)

/-- SHA-256 of an octet string (FIPS 180-4), 32 octets. -/
def sha256 (m : List Nat) : List Nat :=
  let n := m.length
  let pad := m ++ [0x80] ++ List.replicate ((119 - n % 64) % 64) 0 ++ octetsOf 8 (8 * n)
  let i := shaInit
  let h0 : Sha8 := ⟨i.getD 0 0, i.getD 1 0, i.getD 2 0, i.getD 3 0, i.getD 4 0, i.getD 5 0, i.getD 6 0, i.getD 7 0⟩
  let r := shaBlocks shaK (pad.length / 64) h0 (words32 pad)
  [r.a, r.b, r.c, r.d, r.e, r.f, r.g, r.h].flatMap (octetsOf 4)

/-- HMAC-SHA-256 (FIPS 198-1) under a 32-octet key. -/
def hmac (key : BitVec 256) (m : List Nat) : List Nat :=
  let k := octetsOf 32 key.toNat ++ List.replicate 32 0
  sha256 (k.map (· ^^^ 0x5C) ++ sha256 (k.map (· ^^^ 0x36) ++ m))

/-- One bit of the reflected CRC-32C register. -/
def crcBits : Nat → Nat → Nat
  | 0, c => c
  | n + 1, c => crcBits n (if c % 2 = 1 then (c >>> 1) ^^^ 0x82F63B78 else c >>> 1)

/-- CRC-32C of an octet string in the form of R128: reflected, initial value and final complement all ones. -/
def crc32c (m : List Nat) : Nat :=
  m.foldl (fun c o => crcBits 8 (c ^^^ (o % 256))) 0xFFFFFFFF ^^^ 0xFFFFFFFF

end Sys2Proof.Machine
end

