-- ==== Sys2Proof/Machine/Map.lean ====
section
/-! DEFINITION. The dictionary map of chapter 18 (R429 to R449): every index and subindex that names an
entry, with its type, access kind, write role and power-up value, and the value ranges that the chapters
state for staged and direct writes. -/

namespace Sys2Proof.Machine

/-- The entry types of Table 13.1. -/
inductive Ty where
  | bool | u8 | u16 | u32 | u64 | i8 | i16 | i32 | i64 | f32 | f64 | time64
  | vis (n : Nat)
  | octets (n : Nat)
  | octetsUpTo (n : Nat)
  | digest
deriving DecidableEq, Repr

/-- Octets of a value of the type (Table 13.1); the maximum for a variable length. -/
def Ty.size : Ty → Nat
  | .bool | .u8 | .i8 => 1
  | .u16 | .i16 => 2
  | .u32 | .i32 | .f32 => 4
  | .u64 | .i64 | .f64 | .time64 | .digest => 8
  | .vis n | .octets n | .octetsUpTo n => n

/-- The type codes of Table 14.2. -/
def Ty.code : Ty → Nat
  | .bool => 1 | .u8 => 2 | .u16 => 3 | .u32 => 4 | .u64 => 5 | .i8 => 6 | .i16 => 7 | .i32 => 8
  | .i64 => 9 | .f32 => 10 | .f64 => 11 | .time64 => 12 | .vis _ => 13
  | .octets _ | .octetsUpTo _ => 14 | .digest => 15

/-- The access kinds of Table 13.2. -/
inductive Access where
  | ro | rw | rws | wo | cmd
deriving DecidableEq, Repr

/-- One row of the map: the indices base + s1·j + s2·k with j < n1 and k < n2, subindices lo to hi. -/
structure Row where
  base : Nat
  s1   : Nat
  n1   : Nat
  s2   : Nat
  n2   : Nat
  lo   : Nat
  hi   : Nat
  ty   : Ty
  acc  : Access
  role : Role
  dflt : Nat
deriving DecidableEq, Repr

/-- The row names this index at some subindex. -/
def Row.hitsIndex (r : Row) (idx : Nat) : Bool :=
  let d := idx - r.base
  r.base ≤ idx && decide (d / r.s1 < r.n1) && decide (d % r.s1 % r.s2 = 0) && decide (d % r.s1 / r.s2 < r.n2)

/-- The row names this pair. -/
def Row.hits (r : Row) (idx sub : Nat) : Bool :=
  r.hitsIndex idx && decide (r.lo ≤ sub) && decide (sub ≤ r.hi)

/-- A row of one index. -/
def one (idx lo hi : Nat) (ty : Ty) (acc : Access) (role : Role) (d : Nat) : Row :=
  ⟨idx, 1, 1, 1, 1, lo, hi, ty, acc, role, d⟩

/-- A row of n consecutive indices. -/
def many (idx n lo hi : Nat) (ty : Ty) (acc : Access) (role : Role) (d : Nat) : Row :=
  ⟨idx, 1, n, 1, 1, lo, hi, ty, acc, role, d⟩

/-- A per-channel row of parameter p (R434). -/
def perChan (p : Nat) (ty : Ty) (acc : Access) (d : Nat) : Row :=
  ⟨0x2000 + 0x100 * p, 0x10, 4, 1, 1, 0, 0x1F, ty, acc, .operator, d⟩

open Ty Access Role in
/-- Tables 18.3 and 18.4. -/
def rows1 : List Row := [
  perChan 1 u8 rws 0, perChan 2 i16 rws 0, perChan 3 u8 rws 0, perChan 4 u32 rw 0, perChan 5 time64 ro 0,
  perChan 6 bool ro 0, perChan 7 u8 ro 0, perChan 8 f32 ro 0, perChan 9 bool rws 1,
  one 0x1001 0 0 u32 rws custodian 0, one 0x1001 1 1 u32 wo custodian 0,
  one 0x1002 0 0 u8 ro observer 0, one 0x1008 0 0 (vis 12) ro observer 0,
  one 0x1010 0 0 u8 cmd custodian 0, one 0x1018 1 4 u32 ro observer 0,
  one 0x1200 1 2 (octets 32) wo custodian 0, one 0x1201 1 2 u16 ro observer 0,
  one 0x1202 0 0 u16 rw custodian 60, one 0x1210 0 0 u32 rw custodian 2000,
  one 0x1220 0 1 u32 rw operator 0, one 0x1220 2 2 u32 ro observer 0, one 0x1220 3 3 u8 ro observer 0]

open Ty Access Role in
/-- Tables 18.5 and 18.6. -/
def rows2 : List Row := [
  one 0x2F40 0 0 u32 cmd operator 0, one 0x2F41 0 0 u32 rws operator 2000, one 0x2F41 1 1 u32 rws operator 1000,
  one 0x2F41 2 2 f32 rws operator 0x49742400, one 0x2F42 0 3 u8 ro observer 0, one 0x2F43 0 3 bool rws operator 0,
  one 0x2F44 0 3 time64 ro observer 0,
  one 0x3000 0 3 bool rw operator 1, one 0x3001 0 3 bool ro observer 0, one 0x3002 0 0 u8 ro observer 0,
  one 0x3002 1 1 i32 ro observer 0, one 0x3002 2 2 f64 ro observer 0, one 0x3002 3 3 f32 ro observer 0,
  one 0x3003 0 0 u8 cmd operator 0, one 0x3004 0 0 u8 ro observer 0, one 0x3004 1 1 time64 ro observer 0,
  one 0x3005 0 3 u8 ro observer 0, one 0x3010 0 3 bool rws operator 1, many 0x3011 2 0 3 u8 ro observer 0,
  one 0x3013 0 3 u8 ro observer 0, many 0x3014 3 0 3 u32 ro observer 0, one 0x3017 0 3 u32 ro observer 0,
  many 0x3020 4 0 0x21 u16 ro observer 0, many 0x3024 8 0 0x21 i32 ro observer 0,
  many 0x302C 4 0 0x21 i32 ro observer 0, many 0x3030 4 0 0x1F i32 ro observer 0,
  many 0x3034 4 0 0x1F time64 ro observer 0,
  ⟨0x3100, 0x10, 9, 1, 4, 0, 0x1F, i32, ro, observer, 0⟩,
  ⟨0x3200, 0x10, 9, 1, 4, 0, 0x1F, i32, ro, observer, 0⟩,
  ⟨0x3300, 0x20, 4, 1, 19, 0, 0x21, u32, ro, observer, 0⟩]

open Ty Access Role in
/-- Table 18.7. -/
def rows3 : List Row := [
  one 0x3400 0 3 u8 rws operator 4, one 0x3401 0 3 u8 rws operator 6, one 0x3402 0 3 u8 rws operator 64,
  one 0x3403 0 3 u8 ro observer 0, one 0x3404 0 7 u16 ro observer 0, many 0x3405 2 0 0 u16 cmd operator 0,
  one 0x3407 0 0 u32 cmd operator 0, one 0x3408 0 3 u8 ro observer 0, one 0x3409 0 3 time64 ro observer 0,
  one 0x340A 0 3 u64 ro observer 0, one 0x340B 0 0 u64 ro observer 0, one 0x340C 0 7 u32 ro observer 0,
  ⟨0x3500, 0x10, 4, 1, 2, 0, 0x1F, i32, rw, operator, 0⟩,
  one 0x3600 0 15 u32 rws operator 32000, many 0x3601 2 0 15 u8 rws operator 0, one 0x3603 0 63 u64 ro observer 0,
  one 0x3604 0 0 u32 ro observer 0, one 0x3606 0 0 f32 ro observer 0, one 0x3606 1 1 f64 ro observer 0,
  one 0x3607 0 15 u64 ro observer 0]

open Ty Access Role in
/-- Table 18.8. -/
def rows4 : List Row := [
  one 0x3800 0 0 u8 rws operator 0, one 0x3801 0 15 u32 rws operator 0, one 0x3802 0 0 u8 rws operator 0,
  one 0x3802 1 1 u16 rws operator 10, one 0x3802 2 2 u8 rws operator 0, one 0x3803 0 0 u8 cmd operator 0,
  one 0x3804 0 0 u8 ro observer 0, one 0x3804 1 1 u32 rw operator 0, one 0x3804 2 2 time64 ro observer 0,
  one 0x3805 0 0 u32 ro observer 0, one 0x3808 0 3 u8 rws operator 0, one 0x3809 0 3 i16 rws operator 0x8000,
  one 0x380A 0 3 i16 rws operator 0x7FFF, one 0x380B 0 3 u8 rws operator 0, one 0x380C 0 3 time64 ro observer 0,
  one 0x380D 0 3 u32 ro observer 0, one 0x3810 0 0 u32 cmd operator 0, one 0x3811 0 0 u8 ro observer 0,
  one 0x3818 0 0 u8 cmd operator 0, one 0x3818 1 1 u8 ro observer 0, one 0x3818 2 2 time64 ro observer 0,
  one 0x3819 0 1 i32 ro observer 0, one 0x3820 0 0 u16 ro observer 0, one 0x3820 2 2 u16 ro observer 0,
  one 0x3820 1 1 u16 rw operator 0, one 0x3820 3 3 u16 rws operator 6144, one 0x3820 5 5 bool rws operator 0,
  one 0x3820 4 4 u32 rw operator 0, one 0x3821 0 0 (octetsUpTo 1024) ro observer 0,
  one 0x3830 0 63 i16 ro observer 0, one 0x3831 0 63 f32 ro observer 0, one 0x3832 0 63 time64 ro observer 0]

open Ty Access Role in
/-- Table 18.9. -/
def rows5 : List Row := [
  many 0x3C00 5 0 7 u8 rws operator 0, one 0x3C05 0 7 i32 rws operator 0, one 0x3C06 0 7 u32 rws operator 0,
  one 0x3C07 0 7 u16 rws operator 1, one 0x3C08 0 7 u8 rws operator 1, one 0x3C09 0 7 time64 rws operator 0,
  one 0x3C0A 0 7 u64 rws operator 0, one 0x3C0B 0 7 u32 rws operator 0, one 0x3C0C 0 7 u32 rws operator 1,
  one 0x3C0D 0 7 u32 rws operator 0, one 0x3C0E 0 7 u8 rws operator 0, one 0x3C0F 0 7 u32 rws operator 0,
  one 0x3C10 0 7 u16 rws operator 0, one 0x3C11 0 7 u8 rws operator 1, one 0x3C12 0 7 u16 rws operator 26,
  one 0x3C13 0 7 u32 rws operator 25000, one 0x3C14 0 7 u8 rws operator 0, one 0x3C15 0 7 (octets 16) rws operator 0,
  one 0x3C30 0 0 u16 cmd operator 0, one 0x3C40 0 7 u8 ro observer 0, one 0x3C41 0 7 u32 ro observer 0,
  one 0x3C42 0 7 time64 ro observer 0, one 0x3C43 0 7 bool ro observer 0, one 0x3C44 0 7 u32 ro observer 0,
  one 0x3C45 0 7 u32 ro observer 0, one 0x3C48 0 7 u32 rw operator 0, one 0x3C49 0 63 u32 ro observer 0,
  one 0x3C4A 0 7 (octetsUpTo 1024) ro observer 0, one 0x3C50 0 0 u16 ro observer 208,
  one 0x3C80 0 1 u8 rws operator 0xFF, one 0x3C81 0 1 u32 rws operator 0, one 0x3C82 0 1 u16 rws operator 10,
  one 0x3C83 0 1 u32 ro observer 0]

open Ty Access Role in
/-- Table 18.10. -/
def rows6 : List Row := [
  one 0x4000 1 1 time64 ro observer 0, one 0x4000 2 2 u32 ro observer 0, one 0x4000 3 3 u16 rw custodian 0,
  one 0x4000 4 4 u16 ro observer 0, one 0x4000 5 5 u8 ro observer 0, one 0x4000 6 6 time64 ro observer 0,
  one 0x4000 7 7 i64 ro observer 0, one 0x4001 0 0 u8 rws operator 1, one 0x4002 0 0 i64 cmd custodian 0,
  one 0x4002 1 1 time64 cmd custodian 0, one 0x4003 0 0 u32 ro observer 0,
  one 0x4010 0 0 u8 ro observer 0, one 0x4010 1 1 f32 ro observer 0, one 0x4010 2 2 bool ro observer 0,
  one 0x4010 3 3 i64 ro observer 0, one 0x4010 4 4 f64 ro observer 0, one 0x4010 5 6 time64 ro observer 0,
  one 0x4010 7 7 i64 ro observer 0, one 0x4011 0 1 u8 ro observer 0, one 0x4011 2 2 (octets 10) ro observer 0,
  one 0x4011 3 3 (octets 8) ro observer 0, one 0x4012 0 0 u8 rws custodian 0, one 0x4012 1 1 i8 rws custodian 0xFC,
  one 0x4012 2 2 i8 rws custodian 0, one 0x4012 3 3 u8 rws custodian 3, one 0x4012 4 4 i8 rws custodian 0,
  one 0x4012 5 5 u8 rws custodian 0, one 0x4012 6 6 (octets 8) rws custodian 0, one 0x4012 7 7 u16 rws custodian 0,
  one 0x4013 0 0 f32 rws custodian 0x3DCCCCCD, one 0x4013 1 1 f32 rws custodian 0x3F333333,
  one 0x4013 2 2 u32 rws custodian 1000, one 0x4013 3 3 u32 rws custodian 60, one 0x4013 4 4 u32 rws custodian 10000,
  one 0x4013 5 5 u8 rws custodian 16, one 0x4014 0 0 u32 rws operator 100000, one 0x4014 1 1 f32 rws custodian 0x2D2FEBFF,
  one 0x4014 2 2 u32 rws custodian 1000000, one 0x4015 0 0 u32 rws custodian 500, one 0x4015 1 1 u8 cmd operator 0,
  one 0x4015 2 2 u8 ro observer 0, one 0x4015 3 6 i64 ro observer 0, one 0x4016 0 0 u32 ro observer 0,
  many 0x4100 2 0 3 i64 ro observer 0, many 0x4102 3 0 3 i64 rws custodian 0, one 0x4105 0 3 i64 ro observer 0,
  one 0x4106 0 3 u32 ro observer 0, one 0x4107 0 3 i64 rw operator 0]

open Ty Access Role in
/-- Table 18.11. -/
def rows7 : List Row := [
  one 0x4800 0 15 (octets 16) rws operator 0, one 0x4802 0 15 u16 rws operator 160, one 0x4803 0 15 u32 rws operator 0,
  many 0x4810 2 0 0 u16 cmd operator 0, one 0x4812 0 15 u8 ro observer 0, one 0x4813 0 15 u64 ro observer 0,
  many 0x4814 3 0 15 u32 ro observer 0, one 0x4817 0 15 time64 ro observer 0, one 0x4900 0 3 bool rws custodian 0,
  one 0x4901 0 3 u8 rws custodian 0, one 0x4902 0 3 u32 rws custodian 5000, one 0x4903 0 3 u32 rws custodian 800,
  many 0x4904 2 0 3 u8 ro observer 0, many 0x4906 2 0 3 u32 ro observer 0, one 0x4908 0 3 u64 ro observer 0,
  one 0x4909 0 0 bool rws custodian 0, one 0x4909 1 1 u32 rws custodian 1000, one 0x4A00 0 0 u16 rws custodian 0x88B5,
  one 0x4A00 1 1 u16 rws custodian 0, one 0x4A00 2 2 u8 rws custodian 5, one 0x4A00 3 3 (octets 6) rws custodian 0x03005A560080,
  one 0x4A00 4 4 u8 rws custodian 255, one 0x4A01 0 0 u16 ro observer 0, one 0x4A01 1 6 u32 ro observer 0,
  one 0x4A10 0 0 u16 ro observer 0, one 0x4A10 1 1 u8 ro observer 0xFF, one 0x4A10 2 3 u64 ro observer 0,
  one 0x4B00 0 4 u16 ro observer 0, one 0x4B00 5 5 bool ro observer 0, one 0x4B00 6 6 u16 rw operator 0,
  one 0x4B01 0 0 bool rw operator 0, one 0x4B01 1 1 u32 rw operator 0, one 0x4B02 0 3 u32 ro observer 0,
  one 0x4B03 0 2 u32 ro observer 0, one 0x4B04 0 0 u32 ro observer 0, one 0x4B05 0 0 u16 rws operator 32,
  one 0x4B05 1 1 u32 ro observer 0, one 0x4B05 3 3 u32 ro observer 0, one 0x4B05 2 2 u32 rw operator 0,
  one 0x4B06 0 0 time64 ro observer 0]

open Ty Access Role in
/-- Tables 18.12 and 18.13. -/
def rows8 : List Row := [
  one 0x5000 0 0 (octets 32) cmd operator 0, one 0x5001 0 0 u16 cmd operator 0, one 0x5002 0 0 u16 ro observer 0,
  one 0x5003 0 255 (octets 42) ro observer 0, one 0x5004 0 0 u32 ro observer 0,
  one 0x5010 0 0 (octetsUpTo 8192) ro observer 0, one 0x5011 0 0 u32 ro observer 0, one 0x5200 0 7 u8 rws operator 0,
  one 0x5201 0 7 u32 ro observer 0, one 0x5202 0 7 time64 ro observer 0, one 0x5203 0 7 bool ro observer 0,
  one 0x5204 0 7 u32 ro observer 0, one 0x5210 0 0 u16 ro observer 0, one 0x5210 2 2 u16 ro observer 0,
  one 0x5210 1 1 u16 rw operator 0, one 0x5210 3 3 u16 rws operator 3072, one 0x5210 5 5 bool rws operator 0,
  one 0x5210 4 4 u32 rw operator 0, one 0x5211 0 0 (octetsUpTo 1024) ro observer 0, one 0x5280 0 3 u16 rws operator 0,
  one 0x5281 0 0 u16 rws operator 0xFFFF, one 0x5282 0 0 u32 ro observer 0, one 0x5283 1 6 u32 ro observer 0,
  one 0x5400 0 0 u32 ro observer 0, one 0x5400 1 1 digest ro observer 0, one 0x5401 0 0 u8 rws custodian 1,
  one 0x5402 0 0 u16 rws custodian 0x000F, one 0x5403 0 1 u32 ro observer 0, one 0x5404 0 1 u8 ro observer 0,
  one 0x5405 0 0 u8 ro observer 0, one 0x5406 0 0 u8 ro observer 0, one 0x5406 1 1 (octets 8) ro observer 0,
  one 0x5406 2 2 u32 ro observer 0, one 0x5407 0 0 u8 ro observer 0, one 0x5407 1 1 time64 ro observer 0,
  one 0x5409 0 0 u32 ro observer 0, one 0x5410 0 0 (octets 16) cmd operator 0, one 0x5411 0 0 u32 cmd operator 0,
  one 0x5412 0 0 u16 ro observer 0, one 0x5413 0 0 time64 ro observer 0, one 0x5413 1 1 u16 ro observer 0,
  one 0x5414 0 0 time64 ro observer 0, one 0x5414 1 1 u16 ro observer 0, one 0x5415 0 0 digest ro observer 0]

open Ty Access Role in
/-- Tables 18.14 to 18.17. -/
def rows9 : List Row := [
  one 0x5800 0 0 u8 rws operator 0, one 0x5800 1 2 u8 ro observer 0, one 0x5801 1 6 u8 ro observer 0,
  one 0x5802 0 1 u16 rws custodian 600, one 0x5803 0 1 u32 ro observer 0, one 0x5803 2 2 time64 ro observer 0,
  one 0x5804 0 0 u8 rws operator 1, one 0x5804 1 1 u8 ro observer 1, one 0x5804 2 2 f32 ro observer 0,
  one 0x5805 0 0 bool ro observer 0, one 0x5806 0 0 f64 ro observer 0, one 0x5808 0 10 u8 ro observer 0,
  one 0x5809 0 10 u32 ro observer 0, one 0x5810 0 0 u8 cmd custodian 0, one 0x5811 0 0 u8 ro observer 0,
  one 0x5812 0 0 u32 ro observer 0, one 0x5812 1 1 u8 ro observer 0x0F,
  one 0x5C00 0 0 u64 ro observer 0, one 0x5C01 0 63 u8 ro observer 0, one 0x5C02 0 63 u16 ro observer 0,
  many 0x5C03 2 0 63 time64 ro observer 0, one 0x5C05 0 0 u64 ro observer 0, one 0x5C06 0 0 u32 ro observer 0,
  one 0x5C08 0 0 u64 rws operator 0xFFFFFFFFFFFFFFFF, one 0x5C10 0 0 u8 cmd operator 0, one 0x5C20 0 0 bool ro observer 0,
  one 0x5C20 1 1 u8 ro observer 0, one 0x5C20 2 2 time64 ro observer 0, many 0x5C30 2 0 4 u16 ro observer 0,
  many 0x5C40 2 0 0 time64 ro observer 0, many 0x5C40 2 1 2 u32 ro observer 0, one 0x5C60 0 0 u16 rws custodian 20,
  one 0x5C70 0 0 u32 ro observer 0,
  ⟨0x6000, 0x10, 4, 1, 1, 0, 0x1F, i32, rws, operator, 0x01000000⟩,
  ⟨0x6100, 0x10, 4, 1, 1, 0, 0x1F, i32, rws, operator, 0⟩,
  one 0x7000 1 3 u32 ro observer 0, one 0x7001 0 0 (octets 8) ro observer 0, one 0x7002 0 0 (octets 6) ro observer 0,
  one 0x7040 0 2 f32 ro observer 0, one 0x7041 0 0 f64 ro observer 0, one 0x7042 0 1 f64 ro observer 0,
  many 0x7050 4 0 8 f64 ro observer 0, many 0x7060 4 0 0x21 i32 ro observer 0, many 0x7100 256 0 0 (octets 256) ro observer 0,
  one 0x7210 0 15 i32 ro observer 0, ⟨0x7300, 0x20, 4, 1, 19, 0, 0x21, u32, ro, observer, 0⟩,
  many 0x7380 2 0 63 f32 ro observer 0, ⟨0x7400, 0x10, 3, 1, 2, 0, 0x1F, i32, ro, observer, 0⟩]

/-- Tables 18.3 to 18.17, exactly (R431; notes/assumptions/81.md). -/
def rows : List Row := rows1 ++ rows2 ++ rows3 ++ rows4 ++ rows5 ++ rows6 ++ rows7 ++ rows8 ++ rows9

/-- R430: the row that names the pair. -/
def lookup (idx sub : Nat) : Option Row := rows.find? (·.hits idx sub)

/-- R430: some subindex of the index names an entry. -/
def indexNamed (idx : Nat) : Bool := rows.any (·.hitsIndex idx)

/-- Key of a pair in the configuration stores. -/
def key (idx sub : Nat) : Nat := idx * 256 + sub

/-- Index of a key. -/
def keyIdx (k : Nat) : Nat := k / 256

/-- Subindex of a key. -/
def keySub (k : Nat) : Nat := k % 256

/-- Power-up wire value of the entry with this key (R433). A slot-owned entry has its fallback value of
R358 here; entries whose value depends on the subindex come first. -/
def powerUp (k : Nat) : Nat :=
  let idx := keyIdx k
  let sub := keySub k
  if idx = 0x4900 then (if sub < 2 then 1 else 0)
  else if idx = 0x4901 then (if sub = 0 then 1 else if sub = 1 then 2 else 3)
  else if idx = 0x3808 then sub
  else if idx = 0x3801 then 2 * 256 + sub
  else match lookup idx sub with
    | some r => r.dflt
    | none => 0

end Sys2Proof.Machine
end

