-- ==== Sys2Proof/Machine/Store.lean ====
section
/-! DEFINITION. The stores of wire values by dictionary key: the committed configuration (canonical: keys
strictly rising, no entry at its power-up value), the shadow (R339) and the content of a hoist (R341). -/

namespace Sys2Proof.Machine

/-- A store: pairs of key and wire value, keys strictly rising. -/
abbrev KV := List (Nat × Nat)

/-- The value held under a key. -/
def kvGet : KV → Nat → Option Nat
  | [], _ => none
  | (k', v) :: l, k => if k' = k then some v else kvGet l k

/-- Sets a key, keeping the order. -/
def kvSet : KV → Nat → Nat → KV
  | [], k, v => [(k, v)]
  | (k', v') :: l, k, v =>
    if k < k' then (k, v) :: (k', v') :: l
    else if k = k' then (k, v) :: l
    else (k', v') :: kvSet l k v

/-- Removes a key. -/
def kvDel : KV → Nat → KV
  | [], _ => []
  | (k', v') :: l, k => if k' = k then l else (k', v') :: kvDel l k

/-- Keys strictly rising, all above the bound. -/
def kvSorted : Option Nat → KV → Bool
  | _, [] => true
  | lo, (k, _) :: l => (match lo with | none => true | some b => decide (b < k)) && kvSorted (some k) l

/-- The committed value of an entry: its record, or its power-up value (R433). -/
def cfgGet (c : KV) (k : Nat) : Nat := (kvGet c k).getD (powerUp k)

/-- Commits a value in canonical form: a power-up value has no record (R350). -/
def cfgSet (c : KV) (k v : Nat) : KV := if v = powerUp k then kvDel c k else kvSet c k v

/-- The canonical form of a committed configuration. -/
def cfgWf (c : KV) : Bool := kvSorted none c && c.all fun p => decide (p.2 ≠ powerUp p.1)

/-- The committed configuration with a content applied (R342). -/
def cfgApply (c content : KV) : KV := content.foldl (fun acc p => cfgSet acc p.1 p.2) c

/-- Returns a content to the shadow; an entry already in the shadow keeps its newer value (R343). -/
def shadowReturn (shadow content : KV) : KV :=
  content.foldl (fun acc p => if (kvGet acc p.1).isSome then acc else kvSet acc p.1 p.2) shadow

end Sys2Proof.Machine
end

