-- ==== Sys2Proof/Machine/State.lean ====
section
/-! DEFINITION. The whole state of the module as plain data, and the state at reset: OFF, with VMAIN absent. -/

namespace Sys2Proof.Machine

/-- The stops of a step. No meaning of this model raises one. -/
inductive Fault where
  /-- Raised by no command. Safe. -/
  | none
deriving DecidableEq, Repr

/-- The refusals of a step. -/
inductive Refusal where
  /-- Answered by the dispatch for a command without a meaning; no command of this model uses it. Safe. -/
  | notModelled (mnemonic : String)
deriving DecidableEq, Repr

/-- The module states (R8). -/
inductive Mode where
  | off | hibernate | boot | warm | calibrate | ready | run | safe
deriving DecidableEq, Repr

/-- A Pdelay_Req or Pdelay_Resp that the module sends (R210, R215, R217): its framing, the common header's fields that the
module sets, and for a response its requestReceiptTimestamp. -/
structure PeerSent where
  dest       : BitVec 48
  /-- VLAN of the IEEE 802.1Q tag; none for an untagged frame. -/
  tag        : Option Nat
  etherType  : BitVec 16
  version    : Nat
  minor      : Nat
  domain     : Nat
  sdoId      : Nat
  kind       : Nat
  seq        : BitVec 16
  correction : Int
  receipt    : Nat
deriving DecidableEq, Repr

/-- What the module sends or shows outside, newest first in the state's list. -/
inductive Output where
  /-- The answer of one write: refusal code (0 accepted) and value octets (R335). -/
  | answer (refusal : Nat) (value : List Nat)
  /-- An Axind frame leaving a port (R262, R266): its octets from the destination address up to its frame check
  sequence. -/
  | tx (port : Nat) (octets : List Nat)
  /-- A frame forwarded unchanged but for its HOPS octet (R265): its Ethernet payload. -/
  | forward (port : Nat) (octets : List Nat)
  /-- A PTP message that the transparent clock forwards out of a port: type, sequence number and correction field; its other
  fields leave as they came (R218). -/
  | ptp (port kind : Nat) (seq : BitVec 16) (correction : Int)
  /-- A peer-delay message of the module itself leaving a port. -/
  | peer (port : Nat) (message : PeerSent)
deriving DecidableEq, Repr

/-- The supply, the contacts and the power state (R8, R385 to R388, R424, R425). -/
structure Power where
  mode      : Mode
  vmain     : Bool
  wake      : Bool
  /-- The 5 ms in which WAKE is judged after VMAIN was applied (R385). -/
  wakeWindow : Bool
  resetLow  : Bool
  /-- BOOT is held at its first step by RESET_N (R424). -/
  bootHeld  : Bool
  /-- The module was in SAFE when RESET_N fell (R388). -/
  fellInSafe : Bool
  bootCause : Nat
  /-- Local time at which WARM began. -/
  warmStart : Nat
  /-- Local time at which WARM was left. -/
  warmEnd   : Option Nat
  /-- Open WARM conditions, bits 0 to 3 (R380). -/
  warmWait  : Nat
  warmOver  : Bool
  /-- A HIBERNATE write has been accepted and its entry is under way (R387). -/
  hibEntry  : Bool
  /-- WAKE has been asserted during that entry (R387). -/
  wakeSeen  : Bool
  /-- A MODULE_RESET write has been accepted (R345): the BOOT_CAUSE that its BOOT will read. -/
  resetEntry : Option Nat
  /-- SAFE is to be entered at the next tick (R395, R379). -/
  safeDue   : Bool
  /-- SAFE is left only through BOOT: after a stop of the OCXO, a boundary-scan instruction that takes the contacts, or a
  gross departure of the zener ratio (R379, R395, R425). -/
  bootOnly  : Bool
  /-- Local time that WARM has spent without a running OCXO, and the instant since which it does not run (R380). -/
  ocxoOff   : Nat
  ocxoFrom  : Option Nat
  /-- On the way out of HIBERNATE (R386, R388): whether WAKE has qualified, and the local time at which BOOT begins. -/
  hibWake   : Bool
  hibUntil  : Option Nat
  refOven   : Bool
  ocxoOven  : Bool
  jtag      : JtagInstr
  /-- What the boundary-scan register holds since the latest update (R425). -/
  jtagCells : JtagCells
deriving DecidableEq, Repr

/-- What lies at or after the next tick in the engine cycle that holds it, and so in the frame that the tick begins: an
event-input edge with its stamp on the course it came on, its local time and that course's shift; the hold of a sampled
item; or an event of a window comparator. -/
inductive Late where
  | edge (x : Nat) (rising : Bool) (stamp : TW) (at_ : Nat) (shift : Int)
  | hold
  | window (w : Nat)
deriving DecidableEq, Repr

/-- The time engine (R14 to R35). -/
structure TimeEng where
  /-- The time word of the present instant, which a tick places inside its engine cycle. -/
  tw        : TW
  /-- Fraction of a unit, in 2^−40 unit. -/
  frac      : Nat
  /-- Local time since the start of BOOT, in units of 1/256 ns. -/
  pt        : Nat
  /-- Increment of tw that the engine cycles after the present one take, in 2^−40 unit (R15, R223). -/
  inc       : Nat
  /-- Local time at the start of the engine cycle in progress: the boundaries keep the phase of the 250 MHz clock
  (R15). -/
  cyc       : Nat
  /-- tw at the start of that cycle, with its fraction in 2^−40 unit, and the cycle's own increment. -/
  cycTw     : TW
  cycFrac   : Nat
  cycInc    : Nat
  frameTw   : TW
  nextTick  : TW
  shortFrame : Bool
  quality   : Nat
  epoch     : BitVec 16
  era       : Nat
  lastStepTick  : TW
  lastStepDelta : BitVec 64
  /-- A TIME_SET that waits for its tick: value and tick (R232). -/
  setPending : Option (TW × TW)
  /-- Core cycles left of this frame's dictionary reserve (R338). -/
  reserveLeft : Nat
  /-- What waits for the next tick, because it lies at or after it, oldest first (R22, R26). -/
  late      : List Late
deriving DecidableEq, Repr

/-- The operations that a tick fires (Table 10.3, R461). -/
inductive Op where
  | startStreams (mask : BitVec 16)
  | stopStreams (mask : BitVec 16)
  | trg (arg : BitVec 16)
  | hoist
  | owc (arg : BitVec 32)
  | stepTime (delta : BitVec 64)
  | xfade (arg : BitVec 32)
deriving DecidableEq, Repr

/-- One scheduled operation: a timed action with its table slot, or a direct write without one. -/
structure Sched where
  slot   : Option Nat
  handle : Nat
  desc   : BitVec 256
  role   : Role
  op     : Op
  /-- The fire tick F. -/
  fire   : TW
  /-- Ticks, counted from the first, at which the operation has been due; 0 before (R250, R35). -/
  due    : Nat
  /-- Ticks still to come before a direct write is due, its own among them (R29); 0 for a timed action. -/
  left   : Nat
  accepted : TW
deriving DecidableEq, Repr

/-- The pending hoist (R341). -/
structure HoistPending where
  content : KV
  check   : BitVec 128
  role    : Role
deriving DecidableEq, Repr

/-- Configuration, shadow and hoist (R339 to R344, R365). -/
structure Conf where
  cfg        : KV
  shadow     : KV
  hoist      : Option HoistPending
  generation : BitVec 32
  digest     : BitVec 64
  hoistLastTick   : TW
  hoistLastResult : Nat
  checkRefusals   : Nat
  admitCode  : Nat
  admitPort  : Nat
  admitNeed  : Nat
  admitHave  : Nat
  /-- BUDGET_MARGIN: computed at each commit, 0 after BOOT (R31, R33, R433). -/
  margin     : Nat
  /-- CREDIT_NEED: computed at each commit, 0 after BOOT (R294, R433). -/
  creditNeed : Nat
deriving DecidableEq, Repr

/-- One completion record of the log (R253). -/
structure Completion where
  handle  : Nat
  op      : Nat
  direct  : Bool
  outcome : Nat
  refusal : Nat
  named   : TW
  fired   : TW
  tag     : BitVec 16
  epoch   : BitVec 16
deriving DecidableEq, Repr

/-- The timed-action table and its log (R245 to R254). -/
structure Actions where
  sched     : List Sched
  /-- The handle counter q of each slot, 256 of them (R249). -/
  lastQ     : List Nat
  refusedLate : Nat
  log       : List Completion
  logCount  : Nat
  /-- Records of the present engine cycle whose frames are still to be formed (R296). -/
  owed      : List Completion
deriving DecidableEq, Repr

/-- A dictionary request that waits in the queue (R336). -/
structure DictReq where
  port   : Nat
  role   : Role
  /-- Common header with HOPS zero, then payload. -/
  header : List Nat
  payload : List Nat
  /-- The key under which the request verified. -/
  key    : Option (BitVec 256)
  tag16  : BitVec 128
deriving DecidableEq, Repr

/-- One dictionary answer (R332), waiting for its transmission or kept for duplicates (R328). -/
structure Answer where
  /-- First 16 octets of the request's tag, of an answer that is kept. -/
  tag16   : Option (BitVec 128)
  /-- Payload before the tag. -/
  body    : List Nat
  /-- Key of the tag; none for an answer without one. -/
  key     : Option (BitVec 256)
  /-- The whole frame, once it has been sent. -/
  frame   : Option (List Nat)
  /-- It holds its request in flight (R337). -/
  counted : Bool
deriving DecidableEq, Repr

/-- One replay-store entry (R327). -/
structure Replay where
  tag16  : BitVec 128
  role   : Role
  issued : TW
deriving DecidableEq, Repr

/-- The key of one role (R324, R325). -/
structure KeyState where
  key     : Option (BitVec 256)
  gen     : BitVec 16
  /-- The previous key while its grace lasts. -/
  prev    : Option (BitVec 256)
  /-- Local time at which the grace ends. -/
  graceEnd : Nat
deriving DecidableEq, Repr

/-- The dictionary server. -/
structure Dict where
  queue      : List DictReq
  replay     : List Replay
  /-- The most recent answers, newest first, at most 256 (R328). -/
  answers    : List Answer
  authFails  : Nat
  duplicates : Nat
  requests   : Nat
  keyOp      : KeyState
  keyCu      : KeyState
deriving DecidableEq, Repr

/-- The spare records kept outside both banks (R403). -/
structure SpareRec where
  primaryRetired : Bool
  /-- Retired DRAM pages with the spare page of each, and pages that stayed for want of a spare. -/
  dramMap   : List (Nat × Nat)
  sramMap   : List (Nat × Nat)
  portRetired : List Bool
  sinceTw   : TW
  sinceCause : Nat
  /-- Classes that have been exhausted, by bit (R402). -/
  exhausted : Nat
deriving DecidableEq, Repr

/-- One copy of the keep region (R353). -/
structure KeepRec where
  seq     : BitVec 32
  epoch   : BitVec 16
  refInUse : Nat
  refK    : Int
  keyOp   : Option (BitVec 256)
  keyCu   : Option (BitVec 256)
  genOp   : BitVec 16
  genCu   : BitVec 16
  spare   : SpareRec
deriving DecidableEq, Repr

/-- One pennant (R404). -/
structure Pennant where
  raised : Bool
  level  : Bool
  count  : Nat
  first  : TW
  last   : TW
  /-- Local time at the start of the engine cycle of the latest raise (R406). -/
  cycle  : Option Nat
  /-- That engine cycle may still be in progress. -/
  fresh  : Bool
  /-- COUNT before that engine cycle, and whether the level has risen in it (R405). -/
  base   : Nat
  rose   : Bool
  /-- Raised during the frame in progress (R407). -/
  noted  : Bool
deriving DecidableEq, Repr

/-- Patrol or scrub counters (R397, R399). -/
structure Patrol where
  pos       : Nat
  passLast  : TW
  corrected : Nat
  uncorrected : Nat
  /-- Words that showed a correctable error: (unit, word, pass number or tw). -/
  seen      : List (Nat × Nat × Nat)
  pass      : Nat
  /-- Words that stand with a failing check code since their page was copied (R398): page and word. -/
  bad       : List (Nat × Nat)
deriving DecidableEq, Repr

/-- The self-test of one port (R400). -/
structure SelfTest where
  /-- Failed tests in succession. -/
  fails   : Nat
  running : Bool
  /-- A failed test waits for its repetition. -/
  retry   : Bool
  /-- tw of the latest test, or of the promotion that abandoned it. -/
  last    : Option TW
  /-- The port has been tested while its link is down now. -/
  tested  : Bool
deriving DecidableEq, Repr

/-- Health (chapter 16). -/
structure Health where
  pennants : List Pennant
  spare    : SpareRec
  halfMast : Bool
  dram     : Patrol
  sram     : Patrol
  bgSkipped : Nat
  /-- Supply and temperature points now outside their range, by auxiliary source (R394). -/
  outside  : List Nat
  ovenRegulated : Bool
  selfTest : List SelfTest
deriving DecidableEq, Repr

/-- One watched source (R374, R375). -/
structure SrcState where
  running   : Bool
  qualified : Bool
  good      : Nat
deriving DecidableEq, Repr

/-- A switch of the system reference under way (R378). -/
structure Switch where
  dest : Source
  fromStopped : Bool
  /-- The timing port at its start (R389). -/
  port : Option Nat
deriving DecidableEq, Repr

/-- Clock sources, performance level and gating (chapter 15). -/
structure Clocks where
  ocxo      : SrcState
  refclk    : SrcState
  recovered : List SrcState
  inUse     : Source
  switching : Option Switch
  switches  : Nat
  stops     : Nat
  lastSwitch : TW
  /-- The OCXO has been declared stopped and does not run (R379). -/
  ocxoDown  : Bool
  tuneHeld  : Bool
  /-- Tuning voltage of the OCXO, V, and its values at the frame ticks of the last 100 s with their local times, newest
  first (R377). -/
  tune      : Rat
  tuneLog   : List (Nat × Rat)
  /-- Latest REFCLK10 measurement in ppb (R375). -/
  refOffset : Option Int
  perfNow   : Nat
  perfTarget : Option Nat
  /-- Length of the latest level window, ns (R384). -/
  perfLast  : Option Nat
  gateState : List Nat
  gateFails : List Nat
deriving DecidableEq, Repr

/-- One channel's resampling-independent data path (R112 to R124): everything after the slice. -/
structure Path where
  /-- Modulator edges consumed. -/
  e      : Nat
  /-- Integrators and combs of the CIC, modulo 2^96. -/
  integ  : List Nat
  comb   : List Nat
  /-- CIC outputs (corrected) with their output index, newest first. -/
  x      : List (Nat × Int)
  /-- Compensation-FIR outputs with their output index, newest first. -/
  w      : List (Nat × Int)
deriving DecidableEq, Repr

/-- What serves a channel from a modulator edge on: the slice with its weights and match trim (R91). -/
structure Serving where
  slice   : Nat
  weights : List Nat
  trimA   : Int
  trimB   : Int
deriving DecidableEq, Repr

/-- What an open-wire check has gathered in one measure window (R57): sum, in units of 2^−8 output LSB, and number of
the CIC outputs whose whole support lies in it, whether every one of them holds overload samples beyond the window's
threshold, and whether any holds overload samples. -/
structure WinSum where
  sum    : Int
  n      : Nat
  railed : Bool
  anyOvr : Bool
deriving DecidableEq, Repr

/-- One channel (chapters 02, 03, 04). -/
structure Chan where
  ovrCount : Nat
  ovrLast  : TW
  ovrLevel : Bool
  /-- First and latest overload sample of the latest episode. -/
  ovrFirst : Nat
  ovrEdge  : Nat
  owResult : Nat
  owRes    : Nat
  /-- A hoist during the check changed the channel's gain, pull or inclusion (R57). -/
  owcTouched : Bool
  /-- Included in the running or scheduled check. -/
  owcIn    : Bool
  /-- The source and the sink measure window of the running check. -/
  owcSrc   : WinSum
  owcSnk   : WinSum
  /-- Runs of overload samples: first and last (R46), newest first. -/
  ovrRuns  : List (Nat × Nat × OvrSide)
  /-- Taint spans: first and last modulator sample (R47). -/
  taint    : List (Nat × Nat)
  swaps    : List Nat
  /-- Check samples (R56). -/
  checks   : List (Nat × Nat)
  orphanFrom : Option Nat
  /-- Pairs (O_s, g_s) in effect, by gain code (R72). -/
  pairs    : List (Int × Int)
  /-- Base pairs (R91). -/
  base     : List (Int × Int)
  oBase    : Int
  lastVisit : TW
  /-- Pairs that the calibration under way has computed at step 6, until its end tick (R73). -/
  newPairs : Option (List (Int × Int))
  /-- Serving slice, aperture trim in ps and pull setting in effect from a modulator edge on, newest first (R91, R44,
  R53). -/
  serveLog : List (Nat × Serving)
  trimLog  : List (Nat × Int)
  pullLog  : List (Nat × Nat)
  /-- Gain code, pairs and user layer in effect from a modulator edge on, newest first. -/
  gainLog  : List (Nat × Nat)
  pairLog  : List (Nat × List (Int × Int))
  userLog  : List (Nat × Int × Int)
  path     : Path
deriving DecidableEq, Repr

/-- The roles of a slice (R88). -/
inductive SliceRole where
  | working | spare | retired
deriving DecidableEq, Repr

/-- One converter slice. -/
structure Slice where
  role     : SliceRole
  home     : Nat
  reserve  : Bool
  held     : Bool
  /-- 0 idle or retired, 1 shadowing, 2 serving, 3 on the ladder (Table 4.6). -/
  activity : Nat
  /-- Channel position shadowed or served by a spare. -/
  onChan   : Nat
  trimA    : Int
  trimB    : Int
  oX       : Int
  /-- Local time at which o_X was measured. -/
  oXAt     : Option Nat
  weights  : List Nat
deriving DecidableEq, Repr

/-- A visit in progress (Table 4.1). -/
structure Visit where
  chan     : Nat
  home     : Nat
  spare    : Nat
  v0       : Nat
  phase    : Nat
  /-- The forward fit failed: S is calibrated in place of W (R98). -/
  swapped  : Bool
  /-- Forward verdict taken; reverse verdict taken. -/
  fwdDone  : Bool
  fwdSkip  : Bool
  ladderDone : Bool
  reconnected : Bool
  revDone  : Bool
  /-- 0 fitted, 1 undetermined, 2 failed. -/
  revKind  : Nat
  fitA     : Int
  fitB     : Int
  oldA     : Int
  oldB     : Int
  oldWeights : List Nat
  newWeights : List Nat
  oNew     : Int
  oOld     : Int
  /-- r = dOld / dNew (R99). -/
  dNew     : Int
  dOld     : Int
  /-- A reference change fell into the visit's steps 5 to 8 (Table 4.3). -/
  refHit   : Bool
deriving DecidableEq, Repr

/-- A pair update that waits for its tick (R100). -/
structure PairDue where
  chan  : Nat
  slice : Nat
  a     : Int
  b     : Int
deriving DecidableEq, Repr

/-- One fly die. -/
structure Die where
  slices    : List Slice
  refEnable : Bool
  refReady  : Bool
  /-- Local time of the buffer enable. -/
  enabledAt : Nat
  /-- The buffer's latest reading lies outside ±50 ppm (R69). -/
  bufOut    : Bool
  /-- Local time since which every reading has been inside. -/
  bufOkFrom : Nat
  calResult : Nat
  orphan    : Nat
  rotNext   : Nat
  rotPhase  : Nat
  visit     : Option Visit
  /-- A slot spent on a ladder calibration alone: slice and V0 (R99). -/
  ladder    : Option (Nat × Nat)
  /-- Duties exchange at the next V0 (R94). -/
  exchange  : Bool
  /-- The next slot is the single-spare calibration slot (R94). -/
  ladderDue : Bool
  pairDue   : Option PairDue
  /-- Whether the slices convert, from a modulator edge on, newest first (R68, R79). -/
  convLog   : List (Nat × Bool)
  limited   : Nat
  fitFail   : Nat
  skipped   : Nat
deriving DecidableEq, Repr

/-- The voltage references and their supervision (R65 to R70, R395). -/
structure RefState where
  inUse   : Nat
  k       : Int
  /-- Modulator edge from which slice outputs are scaled by K. -/
  edge    : Nat
  /-- k in effect on slice outputs from a modulator edge on, newest first (R70). -/
  kLog    : List (Nat × Int)
  /-- Codes of the latest ZENERDIFF readings at G = 8, newest first, at most 64. -/
  zs      : List Int
  /-- Codes of the successive readings outside the window. -/
  departures : List Int
  /-- REF_SPARE_RATIO (R395). -/
  ratio   : Option Rat
  ovenTemp : Nat
deriving DecidableEq, Repr

/-- The start-up self-calibration (R75 to R84). -/
structure CalState where
  state     : Nat
  mask      : Nat
  c0        : TW
  lastStart : TW
  endTick   : TW
  extensions : Nat
  /-- Restart tick after a reference change (R83). -/
  restart   : Option TW
  /-- Dies on which a slice was retired; dies that cannot be served. -/
  retiredOn : Nat
  failedOn  : Nat
  /-- C0 of the path from WARM is due at the next tick. -/
  fromWarm  : Bool
  /-- Step 3 of Table 3.1 has loaded the new weights. -/
  loaded    : Bool
  /-- Ends of step 5 that have been judged: one, and one more for each extension (R80). -/
  judged    : Nat
  /-- Step 6 of Table 3.1 has passed. -/
  written   : Bool
  /-- Measurements that count so far: pairs of channels, and 0 V offsets by die and slice. -/
  pairs     : List PairMeas
  offsets   : List LevelMeas
deriving DecidableEq, Repr

/-- The calibration record (R82) as a bank holds it. -/
structure CalRecord where
  slices : List (List Slice)
  pairs  : List (List (Int × Int))
  base   : List (List (Int × Int))
  oBase  : List Int
  orphan : List Nat
deriving DecidableEq, Repr

/-- A bank image with its calibration section. -/
structure BankImage where
  img : Image
  cal : CalRecord
deriving DecidableEq, Repr

/-- The bus of the slot memory (R357): standard mode until the next BOOT, successive transfers without acknowledgement,
and whether the memory counts as unreadable. -/
structure SlotBus where
  slow       : Bool
  fails      : Nat
  unreadable : Bool
deriving DecidableEq, Repr

/-- Configuration store and slot memory (chapter 14). -/
structure Storage where
  /-- The two module banks: `none` not valid. -/
  banks     : List (Option BankImage)
  faulty    : List Bool
  /-- The bank write under way: target bank, image, and whether it is the second attempt. -/
  writing   : Option (Nat × BankImage × Bool)
  /-- A further write is due when the present one ends. -/
  again     : Bool
  bootBank  : Nat
  slotBanks : List (Option Image)
  slotBus   : SlotBus
  slotState : Nat
  slotBurgee : Nat × Nat
  slotGen   : BitVec 32
  mirrorState : Nat
  mirrorLast : TW
  /-- Mirror under way: target slot bank, image, repeats done. -/
  mirroring : Option (Nat × Image × Nat)
  mirrorNext : Option Image
  /-- The two copies of the keep region. -/
  keep      : List (Option KeepRec)
  keepWriting : Option (Nat × KeepRec)
  keepAgain : Bool
deriving DecidableEq, Repr

/-- One coefficient bank (R126 to R130). -/
structure Bank where
  coefs  : List Int
  sealed : Bool
  len    : Nat
  crc    : Nat
deriving DecidableEq, Repr

/-- What the FIR applies from one output index on: a bank alone (n = 0) or a fade of n outputs (R133). -/
structure FirSeg where
  start : Nat
  n     : Nat
  old   : List Int
  new   : List Int
deriving DecidableEq, Repr

/-- A fade whose start tick has fired (R131 to R135). -/
structure Fade where
  target  : Nat
  n       : Nat
  /-- First modulator edge at or after the start tick. -/
  edge    : Nat
  /-- FIR output index of output i = 0, once it has begun. -/
  first   : Option Nat
  handle  : Nat
  direct  : Bool
  tag     : BitVec 16
  named   : TW
  /-- The start tick. -/
  start   : TW
deriving DecidableEq, Repr

/-- An open-wire check of a group (R54 to R58). -/
structure Owc where
  /-- 0 idle or scheduled, 2 running (a scheduled check waits among the actions). -/
  state   : Nat
  t0      : TW
  lastStart : TW
  s       : Nat
  m       : Nat
  /-- Phases begun: 0 before T0, 1 source settle, 2 source window, 3 sink settle, 4 sink window, 5 return. -/
  phase   : Nat
  /-- Ticks since T0. -/
  ticks   : Nat
  cur     : Nat
  /-- Pull direction now applied to the included channels: 0 configured, 1 source, 2 sink. -/
  pull    : Nat
  /-- Groups of the check, as the mask of its argument (R54). -/
  mask    : Nat
  /-- First modulator edge of each phase that has begun, oldest first (Table 2.5). -/
  marks   : List Nat
  /-- The tick of the phase's end has come. -/
  due     : Bool
  handle  : Nat
  direct  : Bool
  tag     : BitVec 16
  named   : TW
  epoch   : BitVec 16
deriving DecidableEq, Repr

/-- One channel group's filters. -/
structure Group where
  banks   : List Bank
  active  : Nat
  firLog  : List FirSeg
  fade    : Option Fade
  /-- Fades whose start tick passed while another fade ran (R135). -/
  fadeLast : TW
  /-- Fade outputs: first and last FIR output index (R134). -/
  cxf     : List (Nat × Nat)
  restart : Nat
  owc     : Owc
deriving DecidableEq, Repr

/-- One segment of the edge map (R144): E in 2^−48 edge, Q in 2^−64 edge per unit. -/
structure MapSeg where
  tw    : TW
  /-- Epoch of the frame that the segment covers (R28). -/
  epoch : BitVec 16
  e     : Int
  q     : Int
  /-- Sum of all steps applied before the segment, in units. -/
  shift : Int
  /-- The frame is time-suspect (R226). -/
  suspect : Bool
deriving DecidableEq, Repr

/-- The edge map (R144). -/
structure EdgeMap where
  segs   : List MapSeg
  /-- Measured edge count and length in units of the frame just ended. -/
  qNum   : Int
  qDen   : Nat
  lastMeas : Int
  /-- Residuals of the last ticks, newest first, at most 10,000, in 2^−48 edge. -/
  resid  : List Int
deriving DecidableEq, Repr

/-- A run of grid indices of one stream between steps and wraps (R150, R151). -/
structure GridSeg where
  next   : Nat
  limit  : Option Nat
  epoch  : BitVec 16
  shift  : Int
  /-- Number of the segment, rising at every step and wrap. -/
  ident  : Nat
  /-- First grid index of the segment. -/
  first  : Nat
deriving DecidableEq, Repr

/-- One output held in the open block: grid index, segment, words and flags by channel. -/
structure OutRec where
  n      : Nat
  ident  : Nat
  epoch  : BitVec 16
  shift  : Int
  vals   : List Int
  flags  : List Nat
deriving DecidableEq, Repr

/-- What the sample segments of a part carry besides its outputs: the block header with the channel set, the number of the
segments, and the entries left for continuation segments (R272, R274). -/
structure PartSent where
  header : List Nat
  segs   : Nat
  conts  : List (List Nat)
deriving DecidableEq, Repr

/-- One part of the open block (R271). -/
structure Part where
  /-- What an interim close has sent of it (R271, R274). -/
  sent    : Option PartSent
  outs    : List OutRec
deriving DecidableEq, Repr

/-- An averager (R154). -/
structure Averager where
  sums   : List Int
  flags  : List Nat
  count  : Nat
  /-- The first closing has been delivered. -/
  open_  : Bool
  /-- Grid segment of the running interval. -/
  ident  : Nat
deriving DecidableEq, Repr

/-- One stream (R267 to R274). -/
structure Stream where
  running  : Bool
  startTw  : TW
  segs     : List GridSeg
  avg      : Averager
  /-- Parts of the open block, newest first, each with its outputs newest first. -/
  parts    : List Part
  firstDue : Bool
  gridIndex : Nat
  blocks   : Nat
  late     : Nat
  excOver  : Nat
deriving DecidableEq, Repr

/-- The header values latched at the tick that began the frame (R271, Table 11.3). -/
structure FrameInfo where
  tw         : TW
  number     : Nat
  epoch      : BitVec 16
  generation : BitVec 32
  digest     : BitVec 64
deriving DecidableEq, Repr

/-- A sequenced frame (R264, R305): its payload after the common header and where its sample words lie. -/
structure Frame where
  typ      : Nat
  cls      : Nat
  octets   : List Nat
  /-- Octet offset and count of the sample words, and the channels of one output. -/
  sampleAt : Nat
  samples  : Nat
  chans    : List Nat
  firstOut : Nat
  blockTw  : TW
  /-- Stream of a part's last segment, with the local time of its bound (R289). -/
  deadline : Option (Nat × Nat)
  /-- Unit and last capture-sample index that the frame's release frees (R195). -/
  frees    : Option (Nat × Nat)
  /-- Poisoned words: sample index and channel (R306). -/
  poison   : List (Nat × Nat)
  /-- Flags that outputs have taken since the frame was formed: sample index, channel and flags (R103, R104). -/
  marks    : List (Nat × Nat × Nat)
  /-- The outputs that the frame carries, and their stream. -/
  outs     : List OutRec
  stream   : Nat
  /-- Words of the common header that are sent as read: word and value (R307, R316). -/
  header   : List (Nat × Nat)
  /-- The frame has moved to the reserve region since the latest tick. -/
  moved    : Bool
  /-- The copy of its framing words in the shadow area (R307): payload octets, and words of the common header. -/
  shadow     : List Nat
  shadowHead : List (Nat × Nat)
  /-- Local time at the start of the engine cycle in which the frame was formed (R296). -/
  formed   : Nat
deriving DecidableEq, Repr

/-- A frame entered into the stream buffer (R297 to R301). -/
structure Entered where
  frame  : Frame
  line   : Nat
  lines  : Nat
  /-- Lines not yet written. -/
  unwritten : Nat
  /-- Lines already freed. -/
  freed  : Nat
  ssn    : BitVec 32
  /-- Cumulative credit after the frame. -/
  credit : BitVec 32
  sent   : Bool
  acked  : Bool
  sentAt : Nat
  sentOn : Nat
deriving DecidableEq, Repr

/-- Stream buffer, class queues and reserve (chapter 12). -/
structure Buffers where
  /-- Class queues 4, 5, 6: frames in the assembly area, then frames in the reserve, each oldest first. -/
  asm      : List (List Frame)
  res      : List (List Frame)
  sbuf     : List Entered
  mark     : Nat
  write    : Nat
  depth    : Nat
  peak     : Nat
  overrun  : Bool
  overrunCycles : Nat
  /-- Position of the retransmission in the list of entered frames' SSNs. -/
  retx     : Option (BitVec 32)
  parityErrors : Nat
  poisoned : Nat
  shadowReads : Nat
  unrecovered : Nat
  reservePeak : Nat
  reserveStops : Nat
  /-- The engine cycle, by its local time, in which the ports of the stream buffer have last acted on a release (R299). -/
  portsAt  : Option Nat
  /-- Continuation segments of the present engine cycle, which enter their queue last (R296). -/
  late     : List Frame
deriving DecidableEq, Repr

/-- One port (R280 to R284). -/
structure Port where
  status   : Bool
  role     : Nat
  /-- The port out of which the break notice of its local fault went, until its link returns (R282). -/
  broke    : Option Nat
  faults   : Nat
  retx     : Nat
  /-- Local time since which the port has been down, and up. -/
  downFrom : Option Nat
  upFrom   : Option Nat
  /-- Waiting at the port, oldest first: payloads of break notices, whole forwarded frames, payloads of the module's
  own trigger messages. -/
  breaks   : List (List Nat)
  fwd      : List (List Nat)
  msgs     : List (List Nat)
  /-- Octets of the declared share left in this frame (R313). -/
  shareLeft : Nat
deriving DecidableEq, Repr

/-- The link layer (R275 to R279). -/
structure Link where
  ports      : List Port
  ssnNext    : BitVec 32
  creditUsed : BitVec 32
  creditLimit : BitVec 32
  ackNext    : BitVec 32
  /-- Cumulative credit of the frames before ACK_NEXT. -/
  ackCredit  : BitVec 32
  discards   : Nat
  noticeSeq  : BitVec 32
  /-- Dictionary answers that wait for transmission, oldest first. -/
  own        : List Answer
  ctlLeft    : Nat
  /-- The engine cycle, by its local time, in which an acknowledgement last moved ACK_NEXT (R256). -/
  ackAt      : Option Nat
  /-- A frame tick has come since BOOT, and PORT_ROLE reads the roles (R280, R433). -/
  rolesRead  : Bool
deriving DecidableEq, Repr

/-- One capture sample of a unit's store (R184). -/
structure CapSample where
  idx   : Nat
  n     : Nat
  ident : Nat
  epoch : BitVec 16
  shift : Int
  vals  : List Int
  flags : List Nat
deriving DecidableEq, Repr

/-- One accepted capture (R191, R194). -/
structure Capture where
  number  : Nat
  trigTw  : TW
  /-- Epoch of the trigger instant, and the grid instant that it is, where it is one. -/
  epoch   : BitVec 16
  grid    : Option (Nat × Nat)
  kind    : Nat
  /-- The unit's channels, source stream, its rate and the unit's k at acceptance. -/
  mask    : Nat
  stream  : Nat
  rate    : Nat
  avgK    : Nat
  streaming : Bool
  /-- Store index of the first sample, of the trigger sample, once known, and the pre-trigger count. -/
  first   : Nat
  trig    : Option Nat
  pre     : Nat
  post    : Nat
  /-- TRG_POST at acceptance. -/
  q       : Nat
  /-- Instant and epoch of the first sample, once it is packed, and epoch of the trigger sample, once it is stored. -/
  firstAt : Option (TW × BitVec 16)
  trigEpoch : Option (BitVec 16)
  /-- A time step lies between the first sample and one packed since. -/
  changed : Bool
  shortPre : Bool
  /-- The trigger instant lay ahead at acceptance: a step may still change what comes before it. -/
  ahead   : Bool
  truncated : Bool
  closed  : Bool
  /-- Samples already packed into segments. -/
  packed  : Nat
  generation : BitVec 32
  missedSince : Nat
deriving DecidableEq, Repr

/-- One missed event (R202). -/
structure Miss where
  instant : TW
  reason  : Nat
  kind    : Nat
  epoch   : BitVec 16
  capture : Nat
deriving DecidableEq, Repr

/-- An event as a unit sees it: trigger instant, the epoch in which the instant is named, the sum of the steps before it,
and, for a resampled output, its grid index and grid segment (R143, R185). -/
structure TrgEvent where
  t     : TW
  epoch : BitVec 16
  shift : Int
  grid  : Option (Nat × Nat)
deriving DecidableEq, Repr

/-- One trigger unit (chapter 08). -/
structure Unit where
  armed    : Bool
  /-- Latest arm tick with its epoch, and the armed spans that have ended, newest first. -/
  armTw    : TW
  armEpoch : BitVec 16
  spans    : List ((TW × BitVec 16) × (TW × BitVec 16))
  avg      : Averager
  /-- Samples of the store, newest first. -/
  store    : List CapSample
  nextIdx  : Nat
  /-- Samples written since the arm tick or the last resumption. -/
  filled   : Nat
  waiting  : Bool
  captures : List Capture
  /-- Oldest store index still locked by frames not yet released. -/
  lockFrom : Nat
  count    : Nat
  /-- Latest accepted trigger: instant, and sum of the steps before the instant. -/
  lastTw   : Option (TW × Int)
  missed   : Nat
  missTotal : Nat
  missBy   : List Nat
  log      : List Miss
  holdCount : Nat
  /-- The time hold-off is pending. -/
  holdTime : Bool
  primedUp : Bool
  primedDown : Bool
  /-- Watched outputs, newest first: value and whether it carries TNT. -/
  hist     : List (Int × Bool)
  /-- Next m of R188. -/
  nextM    : Nat
  truncated : Nat
  /-- Events of the engine cycle in progress that the unit has still to decide, by trigger instant (R193). -/
  offers   : List TrgEvent
deriving DecidableEq, Repr

/-- One trigger output (R203). -/
structure TrgOut where
  level   : Bool
  /-- Pulses to come: local start and end times. -/
  starts  : List (Nat × Nat)
  endAt   : Nat
  late    : Nat
deriving DecidableEq, Repr

/-- A conversion of the auxiliary converter: 0 sequence, 1 injected, 2 health (R169). -/
structure AuxItem where
  kind   : Nat
  source : Nat
  gain   : Nat
  ts     : Nat
  /-- Entry number or TAG. -/
  tag    : Nat
deriving DecidableEq, Repr

/-- A ring of 8-octet records (R175 to R179). -/
structure Ring where
  /-- Unreleased records, oldest first, as 64-bit numbers. -/
  recs    : List Nat
  read    : Nat
  lost    : Nat
  /-- The latest marker record (Table 7.5). -/
  marker  : Option Nat
  /-- The marker of the record at READ, when it has been released. -/
  base    : Option Nat
  /-- Records were discarded since the latest marker. -/
  dropped : Bool
deriving DecidableEq, Repr

/-- A conversion in progress with its hold instant. -/
structure AuxConv where
  item   : AuxItem
  hold   : TW
  epoch  : BitVec 16
  frame  : TW
  tsp    : Bool
  /-- AUX_CAL_OFFSET and AUX_CAL_GAIN at the hold instant (R171). -/
  offset : Int
  gain   : Int
deriving DecidableEq, Repr

/-- One window comparator (R172). -/
structure AuxWin where
  last  : TW
  count : Nat
  armed : Bool
deriving DecidableEq, Repr

/-- The auxiliary path (chapter 07). -/
structure Aux where
  sampling : Option AuxItem
  /-- Local time at which the sampling began. -/
  sampleFrom : Nat
  conv     : Option AuxConv
  /-- Local time of the latest hold instant. -/
  lastHold : Option Nat
  /-- Injected and health requests in order. -/
  queue    : List AuxItem
  calState : Nat
  /-- Requests at the front of the queue that precede the calibration requested (R169). -/
  calBefore : Nat
  /-- The calibration requested or running is that of step 1 of Table 3.1 (R174). -/
  calOwn   : Bool
  calLast  : TW
  calOffset : Int
  calGain  : Int
  /-- Code of the staff-die temperature at the latest calibration. -/
  calTemp  : Option Int
  /-- Code of the latest health conversion of the staff-die temperature (R171, R229). -/
  staff    : Option Int
  /-- Entries of the running sequence not yet held. -/
  seq      : List AuxItem
  /-- The entries of a latched launch, as they were committed when it occurred (R165, R167). -/
  latched  : Option (List AuxItem)
  lastLaunch : TW
  missed   : Nat
  /-- End of the span that a start-up self-calibration takes from the converter, C0 + 40 ms (R174). -/
  spanEnd  : Option TW
  /-- Requests at the front of the queue that precede the span. -/
  spanBefore : Nat
  /-- Measurements of step 1 of Table 3.1 still to be made. -/
  measure  : List AuxItem
  ring     : Ring
  codes    : List Int
  values   : List Nat
  times    : List TW
  wins     : List AuxWin
  healthPos : Nat
  /-- Index of the next of the other 43 internal points. -/
  other    : Nat
  /-- Health results since the latest background slice, oldest first: source, code, CLIP. -/
  arrived  : List (Nat × Int × Bool)
deriving DecidableEq, Repr

/-- One event input (R239 to R242). -/
structure EvInput where
  count  : Nat
  last   : TW
  lastPt : Option Nat
  level  : Bool
  glitches : Nat
  dropped : Bool
deriving DecidableEq, Repr

/-- Event inputs and trigger messages (chapter 10). -/
structure Events where
  inputs   : List EvInput
  ring     : Ring
  accepted : Nat
  discards : List Nat
  /-- Event-ring records not yet sent in telemetry, oldest first. -/
  unsent   : List Nat
  /-- Records at the front of the ring that no later edge goes before: they precede a write of TIME_EPOCH (R30, R243). -/
  fixed    : Nat
  /-- Messages accepted in the last second: sender, sequence, tw. -/
  recent   : List (BitVec 20 × BitVec 16 × TW)
  sendSeq  : BitVec 16
deriving DecidableEq, Repr

/-- A foreign master of a port (R219): its latest Announce, and the local times of its last two, newest first. -/
structure Foreign where
  data  : Announce
  heard : List Nat
deriving DecidableEq, Repr

/-- One ring port as PTP sees it (R212 to R218, R234). -/
structure PtpPort where
  /-- Exchange awaiting its response: sequence and t1 in correction units. -/
  pend     : Option (BitVec 16 × Int)
  /-- Two-step response awaiting its follow-up: sequence, t1, t4, correction, receipt instant. -/
  resp     : Option (BitVec 16 × Int × Int × Int × Int)
  nextSeq  : BitVec 16
  fails    : Nat
  valid    : Bool
  /-- Admitted link delays, newest first, at most 16, in correction units. -/
  delays   : List Int
  /-- Exchanges admitted since the link rose or since the delay became invalid. -/
  admitted : Nat
  /-- Successive exchanges not admitted, newest first. -/
  rejected : List Int
  /-- The 8 exchanges of a declared re-route. -/
  rerouted : List Int
  step     : Int
  faults   : Nat
  /-- Sums held for the Follow_Ups of two-step Syncs (R218). -/
  held     : List (SyncId × Int)
  /-- Two-step Syncs of the best master that await their Follow_Up (R222). -/
  sync     : List PtpEvent
  /-- Foreign masters heard on the port (R219). -/
  masters  : List Foreign
  /-- Exchanges still admitted without test since the link rose (R215). -/
  untested : Nat
  /-- The last valid mean link delay while the link delay is invalid, in correction units (R216). -/
  kept     : Option Int
deriving DecidableEq, Repr

/-- The ordinary clock, the servo and holdover (chapter 09). -/
structure Ptp where
  ports     : List PtpPort
  /-- portState: 1 INITIALIZING, 4 LISTENING, 8 UNCALIBRATED, 9 SLAVE (R220). -/
  state     : Nat
  timingPort : Option Nat
  best      : Option Announce
  /-- Identities of the last master that the servo followed. -/
  followed  : Option (BitVec 64 × BitVec 80)
  /-- Valid offsets of the current master and port, newest first, at most 16, in correction units. -/
  offsets   : List Int
  consec    : Nat
  gated     : List Int
  /-- Whether each of the last 16 updates was clamped, newest first. -/
  clamped   : List Bool
  integ     : Rat
  /-- The integrator at the last 64 updates (R229). -/
  integs    : List Rat
  /-- y, in parts of one. -/
  y         : Rat
  /-- logMessageInterval of the latest Sync; none before the first (R223, Table 9.8). -/
  logSync   : Option Int
  cause     : Nat
  /-- Valid offsets since each cause was set. -/
  since     : List Nat
  holdStart : TW
  /-- Sum of steps at entry into holdover. -/
  holdShift : Int
  b0        : Option Rat
  yu        : Rat
  /-- Staff-die temperature at entry, none before the first health conversion, and largest change since, in auxiliary
  codes (R229). -/
  temp0     : Option Int
  tempMax   : Nat
  pending   : Int
  suspect   : Bool
  suspectSince : TW
  /-- E_k of the latest tick in ns; none for unbounded. -/
  bound     : Option Rat
  discards  : Nat
  reroute   : Nat
  /-- The port has reached SLAVE while UNSET; tw is set at the next tick (R233). -/
  setDue    : Bool
  /-- A resolved re-route of the timing port waits for 16 valid offsets before the servo resumes (R235). -/
  resume    : Bool
  /-- Era and time word of the master's time at the latest offset. -/
  master    : Option (Nat × TW)
  /-- 4·τ has passed without a valid offset, and none has come since (R228). -/
  silent    : Bool
deriving DecidableEq, Repr

/-- The whole state of the block. -/
structure State where
  /-- The commands that wait, first in, first out. -/
  pending : List Instr
  power   : Power
  time    : TimeEng
  conf    : Conf
  act     : Actions
  dict    : Dict
  store   : Storage
  health  : Health
  clocks  : Clocks
  chans   : List Chan
  dies    : List Die
  ref     : RefState
  cal     : CalState
  groups  : List Group
  map     : EdgeMap
  streams : List Stream
  frame   : FrameInfo
  buf     : Buffers
  link    : Link
  units   : List Unit
  outs    : List TrgOut
  aux     : Aux
  ev      : Events
  ptp     : Ptp
  /-- Instant of modulator edge 0 after the start of BOOT, in units of local time (R112). -/
  modPhase : Nat
  /-- Sum of all time steps and settings applied since BOOT. -/
  shift   : Int
  /-- Number of the current grid segment: it rises at every step, setting and wrap. -/
  segIdent : Nat
  /-- The model's own counter of free values drawn. -/
  fv      : Nat
  /-- What has left the module, newest first. -/
  out     : List Output
deriving DecidableEq, Repr

/-- A quiet NaN of binary32 and of binary64. -/
def nan32 : Nat := 0x7FC00000
/-- A quiet NaN of binary64. -/
def nan64 : Nat := 0x7FF8000000000000

/-- A channel with nothing known (Table 18.3). -/
def Chan.init : Chan where
  ovrCount := 0
  ovrLast := 0
  ovrLevel := false
  ovrFirst := 0
  ovrEdge := 0
  owResult := 0
  owRes := nan32
  owcTouched := false
  owcIn := false
  owcSrc := ⟨0, 0, true, false⟩
  owcSnk := ⟨0, 0, true, false⟩
  ovrRuns := []
  taint := []
  swaps := []
  checks := []
  orphanFrom := none
  pairs := List.replicate 9 (0, 0)
  base := List.replicate 9 (0, 0)
  oBase := 0
  lastVisit := 0
  newPairs := none
  serveLog := []
  trimLog := []
  pullLog := []
  gainLog := []
  pairLog := []
  userLog := []
  path := ⟨0, [], [], [], []⟩

/-- Factory weight i of slice s of die g (Table 18.17), a 32-bit value. -/
def factoryWeight (g s i : Nat) : Nat := Config.factory ((0x7300 + 0x20 * g + i) * 256 + s) % 2 ^ 32

/-- Slice s of a die as shipped (R2, R89). -/
def Slice.init (g s : Nat) : Slice where
  role := if s < 32 then .working else .spare
  home := if s < 32 then s else 0
  reserve := decide (s = 33)
  held := false
  activity := 0
  onChan := 0
  trimA := 0
  trimB := 0
  oX := 0
  oXAt := none
  weights := (List.range 19).map (factoryWeight g s)

/-- A die as shipped. -/
def Die.init (g : Nat) : Die where
  slices := (List.range 34).map (Slice.init g)
  refEnable := true
  refReady := false
  enabledAt := 0
  bufOut := false
  bufOkFrom := 0
  calResult := 0
  orphan := 0
  rotNext := 0
  rotPhase := 0
  visit := none
  ladder := none
  exchange := false
  ladderDue := false
  pairDue := none
  convLog := []
  limited := 0
  fitFail := 0
  skipped := 0

/-- The unit-gain and length rule of a sealed bank (R128), with its 32 coefficients in signed 24 bits (R118). -/
def coefsOk (coefs : List Int) (l : Nat) : Bool :=
  decide (coefs.length = 32) && coefs.all (fun c => decide (-(2 ^ 23) ≤ c) && decide (c < 2 ^ 23))
    && decide (coefs.sum = 2 ^ 22) && (decide (l = 64) || (coefs.drop 16).all fun c => decide (c = 0))

/-- The two-tap average of length L (R119). -/
def twoTap (l : Nat) : List Int := (List.range 32).map fun i => if i + 1 = l / 2 then 2 ^ 22 else 0

/-- Factory design coefficients for order N and length tag L (R129). The values are the factory's, but they are a set
that a bank can be sealed with (R119). -/
def factoryFir (n : Nat) (long : Bool) : List Int :=
  let l := (List.range 32).map fun i =>
    signedOf 32 (Config.factory ((0x7400 + 0x10 * (n - 3) + (if long then 1 else 0)) * 256 + i))
  if coefsOk l (if long then 64 else 32) then l else twoTap (if long then 64 else 32)

/-- CRC-32C of a sealed bank: 32 coefficients of three octets and one octet L (R128). -/
def bankCrc (coefs : List Int) (len : Nat) : Nat :=
  crc32c (coefs.flatMap (fun c => octetsOf 3 (wireInt 24 c)) ++ [len])

/-- An empty averager. -/
def Averager.init : Averager := ⟨[], [], 0, false, 0⟩

/-- A group with the banks of the factory image (R130). -/
def Group.init : Group where
  banks := [⟨factoryFir 4 true, true, 64, bankCrc (factoryFir 4 true) 64⟩,
            ⟨factoryFir 4 false, true, 32, bankCrc (factoryFir 4 false) 32⟩]
  active := 0
  firLog := [⟨0, 0, [], factoryFir 4 true⟩]
  fade := none
  fadeLast := 0
  cxf := []
  restart := 0
  owc := ⟨0, 0, 0, 0, 0, 0, 0, 0, 0, 0, [], false, 0, false, 0, 0, 0⟩

/-- A stream that is not defined. -/
def Stream.init : Stream := ⟨false, 0, [], .init, [], false, 0, 0, 0, 0⟩

/-- A trigger unit that is off. -/
def Unit.init : Unit where
  armed := false
  armTw := 0
  armEpoch := 0
  spans := []
  avg := .init
  store := []
  nextIdx := 0
  filled := 0
  waiting := false
  captures := []
  lockFrom := 0
  count := 0
  lastTw := none
  missed := 0
  missTotal := 0
  missBy := List.replicate 8 0
  log := []
  holdCount := 0
  holdTime := false
  primedUp := false
  primedDown := false
  hist := []
  nextM := 0
  truncated := 0
  offers := []

/-- An empty ring. -/
def Ring.init : Ring := ⟨[], 0, 0, none, none, false⟩

/-- The auxiliary path after BOOT. -/
def Aux.init : Aux where
  sampling := none
  sampleFrom := 0
  conv := none
  lastHold := none
  queue := []
  calState := 0
  calBefore := 0
  calOwn := false
  calLast := 0
  calOffset := 0
  calGain := 0
  calTemp := none
  staff := none
  seq := []
  latched := none
  lastLaunch := 0
  missed := 0
  spanEnd := none
  spanBefore := 0
  measure := []
  ring := .init
  codes := List.replicate 64 0
  values := List.replicate 64 nan32
  times := List.replicate 64 0
  wins := List.replicate 4 ⟨0, 0, true⟩
  healthPos := 0
  other := 0
  arrived := []

/-- A port before its first exchange. -/
def PtpPort.init : PtpPort :=
  ⟨none, none, 0, 0, false, [], 0, [], [], 0, 0, [], [], [], 16, none⟩

/-- The ordinary clock after BOOT (Table 9.8). -/
def Ptp.init : Ptp where
  ports := List.replicate 4 .init
  state := 1
  timingPort := none
  best := none
  followed := none
  offsets := []
  consec := 0
  gated := []
  clamped := []
  integ := 0
  integs := []
  y := 0
  logSync := none
  cause := 0
  since := List.replicate 7 0
  holdStart := 0
  holdShift := 0
  b0 := none
  yu := 0
  temp0 := none
  tempMax := 0
  pending := 0
  suspect := true
  suspectSince := 0
  bound := none
  discards := 0
  reroute := 0
  setDue := false
  resume := false
  master := none
  silent := false

/-- Spare records of a module that has lost no part (Table 16.3). -/
def SpareRec.init : SpareRec := ⟨false, [], [], List.replicate 4 false, 0, 0, 0⟩

/-- A keep region as shipped (R324, R353). -/
def KeepRec.init : KeepRec := ⟨0, 0, 0, 0, none, some Config.factoryKey, 0, 0, .init⟩

/-- The configuration store as shipped: no valid bank, an empty slot memory, one keep copy. -/
def Storage.init : Storage where
  banks := [none, none]
  faulty := [false, false]
  writing := none
  again := false
  bootBank := 2
  slotBanks := [none, none]
  slotBus := ⟨false, 0, false⟩
  slotState := 2
  slotBurgee := (0, 0)
  slotGen := 0
  mirrorState := 0
  mirrorLast := 0
  mirroring := none
  mirrorNext := none
  keep := [some .init, none]
  keepWriting := none
  keepAgain := false

/-- A pennant that has not been raised (Table 16.10). -/
def Pennant.init : Pennant := ⟨false, false, 0, 0, 0, none, false, 0, false, false⟩

/-- Health before BOOT has read its records (Table 16.10). -/
def Health.init : Health where
  pennants := List.replicate 64 .init
  spare := .init
  halfMast := false
  dram := ⟨0, 0, 0, 0, [], 0, []⟩
  sram := ⟨0, 0, 0, 0, [], 0, []⟩
  bgSkipped := 0
  outside := []
  ovenRegulated := false
  selfTest := List.replicate 4 ⟨0, false, false, none, false⟩

/-- Clocks at the start of BOOT (Table 15.9). -/
def Clocks.init : Clocks where
  ocxo := ⟨false, false, 0⟩
  refclk := ⟨false, false, 0⟩
  recovered := List.replicate 4 ⟨false, false, 0⟩
  inUse := .ocxo
  switching := none
  switches := 0
  stops := 0
  lastSwitch := 0
  ocxoDown := false
  tuneHeld := false
  tune := 0
  tuneLog := []
  refOffset := none
  perfNow := 1
  perfTarget := none
  perfLast := none
  gateState := List.replicate 11 0
  gateFails := List.replicate 11 0

/-- Nominal increment of an engine cycle in 2^−40 unit (R15). -/
def nominalInc : Nat := 1024 * 2 ^ 40

/-- The time engine after BOOT (R16); the first tick follows one frame period of the power-up code. -/
def TimeEng.init : TimeEng where
  tw := 0
  frac := 0
  pt := 0
  inc := nominalInc
  cyc := 0
  cycTw := 0
  cycFrac := 0
  cycInc := nominalInc
  frameTw := 0
  nextTick := 25600000
  shortFrame := false
  quality := 0
  epoch := 0
  era := 0
  lastStepTick := 0
  lastStepDelta := 0
  setPending := none
  reserveLeft := 8000
  late := []

/-- No action, no record (R249). -/
def Actions.init : Actions := ⟨[], List.replicate 256 0, 0, [], 0, []⟩

/-- A configuration at its power-up values (R433). -/
def Conf.init : Conf := ⟨[], [], none, 0, 0, 0, 0, 0, 0, 0xFF, 0, 0, 0, 0⟩

/-- The dictionary server with the shipped keys (R324). -/
def Dict.init : Dict := ⟨[], [], [], 0, 0, 0, ⟨none, 0, none, 0⟩, ⟨some Config.factoryKey, 0, none, 0⟩⟩

/-- Empty buffers (Table 12.5). -/
def Buffers.init : Buffers :=
  ⟨[[], [], []], [[], [], []], [], 0, 0, 0, 0, false, 0, none, 0, 0, 0, 0, 0, 0, none, []⟩

/-- A port without a role. -/
def Port.init : Port := ⟨false, 0, none, 0, 0, none, none, [], [], [], 0⟩

/-- Ports before the links come up. -/
def Link.init : Link :=
  ⟨List.replicate 4 .init, 0, 0, 0, 0, 0, 0, 0, [], 2048, none, false⟩

/-- The supply is absent. -/
def Power.init : Power where
  mode := .off
  vmain := false
  wake := false
  wakeSeen := false
  wakeWindow := false
  resetLow := false
  bootHeld := false
  fellInSafe := false
  bootCause := 0
  warmStart := 0
  warmEnd := none
  warmWait := 0x0F
  warmOver := false
  hibEntry := false
  resetEntry := none
  safeDue := false
  bootOnly := false
  ocxoOff := 0
  ocxoFrom := none
  hibWake := false
  hibUntil := none
  refOven := false
  ocxoOven := false
  jtag := .idcode
  jtagCells := ⟨.replicate 5 false, .replicate 5 false⟩

/-- The state at reset: OFF with VMAIN absent, every register at its value after power (R433), and no
command waiting. -/
def State.reset : State where
  pending := []
  power := .init
  time := .init
  conf := .init
  act := .init
  dict := .init
  store := .init
  health := .init
  clocks := .init
  chans := List.replicate 128 .init
  dies := (List.range 4).map Die.init
  ref := ⟨0, 0, 0, [], [], [], none, nan32⟩
  cal := ⟨0, 0, 0, 0, 0, 0, none, 0, 0, false, false, 0, false, [], []⟩
  groups := List.replicate 4 .init
  map := ⟨[], 0, 1, 0, []⟩
  streams := List.replicate 16 .init
  frame := ⟨0, 0, 0, 0, 0⟩
  buf := .init
  link := .init
  units := List.replicate 8 .init
  outs := List.replicate 2 ⟨false, [], 0, 0⟩
  aux := .init
  ev := ⟨List.replicate 8 ⟨0, 0, none, false, 0, false⟩, .init, 0, List.replicate 6 0, [], 0, [], 0⟩
  ptp := .init
  modPhase := 0
  shift := 0
  segIdent := 0
  fv := 0
  out := []

end Sys2Proof.Machine
end

