-- ==== Sys2Proof/Machine/Ops.lean ====
section
/-! DEFINITION. The shared operations: reading parts of the state, changing one part, drawing a free value,
emitting an output, the answers of writes, raising a pennant (R405), and saving the keep region (R353). -/

namespace Sys2Proof.Machine

/-- The answer of a step that goes on. -/
abbrev Result := Host.Outcome State Fault Refusal

/-- The committed value of an entry (R433). -/
def cfgAt (s : State) (idx sub : Nat) : Nat := cfgGet s.conf.cfg (key idx sub)

/-- A committed signed value of w bits. -/
def cfgInt (s : State) (w idx sub : Nat) : Int := signedOf w (cfgAt s idx sub)

/-- A committed Boolean. -/
def cfgBool (s : State) (idx sub : Nat) : Bool := decide (cfgAt s idx sub ≠ 0)

/-- Commits one value outside a hoist. -/
def cfgPut (idx sub v : Nat) (s : State) : State :=
  { s with conf.cfg := cfgSet s.conf.cfg (key idx sub) v }

/-- Channel c. -/
def chanAt (s : State) (c : Nat) : Chan := s.chans.getD c .init
/-- Die g. -/
def dieAt (s : State) (g : Nat) : Die := s.dies.getD g (Die.init g)
/-- Slice k of a die. -/
def Die.slice (d : Die) (k : Nat) : Slice := d.slices.getD k (Slice.init 0 0)
/-- Slice k of die g. -/
def sliceAt (s : State) (g k : Nat) : Slice := (dieAt s g).slice k
/-- Channel group g. -/
def groupAt (s : State) (g : Nat) : Group := s.groups.getD g .init
/-- Stream n. -/
def streamAt (s : State) (n : Nat) : Stream := s.streams.getD n .init
/-- Port p. -/
def portAt (s : State) (p : Nat) : Port := s.link.ports.getD p .init
/-- Trigger unit u. -/
def unitAt (s : State) (u : Nat) : Unit := s.units.getD u .init
/-- Port p as PTP sees it. -/
def ptpAt (s : State) (p : Nat) : PtpPort := s.ptp.ports.getD p .init

/-- Changes channel c. -/
def onChan (c : Nat) (f : Chan → Chan) (s : State) : State := { s with chans := updAt f c s.chans }
/-- Changes every channel, with its number. -/
def onChans (f : Nat → Chan → Chan) (s : State) : State := { s with chans := s.chans.mapIdx f }
/-- Changes die g. -/
def onDie (g : Nat) (f : Die → Die) (s : State) : State := { s with dies := updAt f g s.dies }
/-- Changes slice k of die g. -/
def onSlice (g k : Nat) (f : Slice → Slice) (s : State) : State :=
  onDie g (fun d => { d with slices := updAt f k d.slices }) s
/-- Changes group g. -/
def onGroup (g : Nat) (f : Group → Group) (s : State) : State := { s with groups := updAt f g s.groups }
/-- Changes stream n. -/
def onStream (n : Nat) (f : Stream → Stream) (s : State) : State := { s with streams := updAt f n s.streams }
/-- Changes port p. -/
def onPort (p : Nat) (f : Port → Port) (s : State) : State := { s with link.ports := updAt f p s.link.ports }
/-- Changes unit u. -/
def onUnit (u : Nat) (f : Unit → Unit) (s : State) : State := { s with units := updAt f u s.units }
/-- Changes port p as PTP sees it. -/
def onPtp (p : Nat) (f : PtpPort → PtpPort) (s : State) : State := { s with ptp.ports := updAt f p s.ptp.ports }

/-- Adds an output. -/
def emit (o : Output) (s : State) : State := { s with out := o :: s.out }

/-- Draws a free value. -/
def fresh (s : State) : Nat × State := (Config.freeNat s.fv, { s with fv := s.fv + 1 })

/-- What a write answers: refusal code (0 accepted), value octets, and the state after it. -/
structure Ans where
  code : Nat
  val  : List Nat
  st   : State
deriving DecidableEq, Repr

/-- A refusal leaves the state as it is (R333). -/
def refuse (code : Nat) (s : State) : Ans := ⟨code, [], s⟩
/-- An accepted write without a returned value. -/
def accept (s : State) : Ans := ⟨0, [], s⟩

/-- Applies f for every number below n, in rising order. -/
def forNat (n : Nat) (f : Nat → State → State) (s : State) : State := (List.range n).foldl (fun s k => f k s) s

/-- Applies f to every element of a list, in order. -/
def forList {α : Type} (l : List α) (f : α → State → State) (s : State) : State := l.foldl (fun s a => f a s) s

/-- Applies f when the condition holds. -/
def whenever (b : Bool) (f : State → State) (s : State) : State := if b then f s else s

/-- States in which the core serves the dictionary and the ports (R8): WARM to SAFE. -/
def Mode.live : Mode → Bool
  | .warm | .calibrate | .ready | .run | .safe => true
  | .off | .hibernate | .boot => false

/-- States in which the engines run: BOOT to SAFE (R15). -/
def Mode.clocked : Mode → Bool
  | .off | .hibernate => false
  | _ => true

/-- The module serves the dictionary. -/
def live (s : State) : Bool := s.power.mode.live

/-- Some stream runs. -/
def anyRunning (s : State) : Bool := s.streams.any (·.running)

/-- Units of tw in a frame period, by the code of Table 1.1 (R19). -/
def tfOfCode (code : Nat) : Nat :=
  match code with
  | 0 => 12800000
  | 1 => 25600000
  | 2 => 64000000
  | 3 => 128000000
  | _ => 256000000

/-- TF in units under the committed configuration (R19). -/
def tf (s : State) : Nat := tfOfCode (cfgAt s 0x4001 0)

/-- Units in one modulator period of 4.096 MHz: 10^9 · 256 / 4,096,000. -/
def modPeriod : Nat := 62500

/-- One microsecond in units. -/
def usec : Nat := 256000

/-- A time-word difference as a signed number: how far t lies after now. -/
def ahead (s : State) (t : TW) : Int := TW.diff s.time.tw t

/-- Number of the first modulator edge at or after local instant x (R112). -/
def edgeFrom (s : State) (x : Nat) : Nat := ceilDiv (x - s.modPhase) modPeriod

/-- Number of the first modulator edge at or after now (R112). -/
def edgeNow (s : State) : Nat := edgeFrom s s.time.pt

/-- Local instant of modulator edge n (R112). -/
def edgePt (s : State) (n : Nat) : Nat := s.modPhase + n * modPeriod

/-- The latest raise of a pennant lies in the engine cycle that begins at local time cyc. -/
def Pennant.inCycle (cyc : Nat) (p : Pennant) : Bool := p.fresh && decide (p.cycle = some cyc)

/-- A pennant raised at tw in the engine cycle cyc, with its COUNT after it (R405). -/
def Pennant.raise (tw : TW) (cyc count : Nat) (rose : Bool) (p : Pennant) : Pennant :=
  { p with raised := true, count := min count 65535, first := if p.raised then p.first else tw, last := tw,
           cycle := some cyc, fresh := true, base := if p.inCycle cyc then p.base else p.count, rose := rose, noted := true }

/-- An event of a pennant (R405): one raise, or part of the raise of a level that has risen in the same engine cycle. -/
def Pennant.event (tw : TW) (cyc : Nat) (p : Pennant) : Pennant :=
  if p.inCycle cyc && p.rose then p else p.raise tw cyc (p.count + 1) false

/-- A rise of a pennant's level (R405): one raise, which takes in the events of the same engine cycle. -/
def Pennant.rise (tw : TW) (cyc : Nat) (p : Pennant) : Pennant :=
  if p.inCycle cyc && p.rose then p else p.raise tw cyc ((if p.inCycle cyc then p.base else p.count) + 1) true

/-- Raises a pennant by an event (R405). -/
def raisePn (nn : Nat) (s : State) : State :=
  { s with health.pennants := updAt (Pennant.event s.time.tw s.time.cyc) nn s.health.pennants }

/-- Raises a pennant by a rise of its level (R405). -/
def risePn (nn : Nat) (s : State) : State :=
  { s with health.pennants := updAt (Pennant.rise s.time.tw s.time.cyc) nn s.health.pennants }

/-- Keys that verify now: the key of the role, and the one before it during its grace (R325). -/
def KeyState.accepted (x : KeyState) (now : Nat) : List (BitVec 256) :=
  x.key.toList ++ (if now < x.graceEnd then x.prev.toList else [])

/-- The latest valid copy of the keep region (R353). -/
def keepNow (s : State) : KeepRec :=
  match s.store.keep.getD 0 none, s.store.keep.getD 1 none with
  | some a, some b => if serialLt a.seq b.seq then b else a
  | some a, none => a
  | none, some b => b
  | none, none => .init

/-- The copy of the keep region that a write goes to: the one that is not the latest valid copy. -/
def keepTarget (s : State) : Nat :=
  match s.store.keep.getD 0 none, s.store.keep.getD 1 none with
  | some a, some b => if serialLt a.seq b.seq then 0 else 1
  | some _, none => 1
  | _, _ => 0

/-- The content that the keep region is to hold now (R30, R70, R324, R403). -/
def keepOf (s : State) (seq : BitVec 32) : KeepRec where
  seq := seq
  epoch := s.time.epoch
  refInUse := s.ref.inUse
  refK := s.ref.k
  keyOp := s.dict.keyOp.key
  keyCu := s.dict.keyCu.key
  genOp := s.dict.keyOp.gen
  genCu := s.dict.keyCu.gen
  spare := s.health.spare

/-- Begins a write of the keep region, or has it repeated once the write under way ends (R353). -/
def keepSave (s : State) : State :=
  match s.store.keepWriting with
  | some _ => { s with store.keepAgain := true }
  | none => { s with store.keepWriting := some (keepTarget s, keepOf s ((keepNow s).seq + 1)) }

end Sys2Proof.Machine
end

