-- ==== Sys2Proof/Machine/Flags.lean ====
section
/-! DEFINITION. The status and health flags: spare counts (R401), exhaustion and half-mast (R402, R409),
pennant levels (Table 16.4), the ensign word (R408), bank states (R130), and the settling of all of them
at the end of a step. -/

namespace Sys2Proof.Machine

/-- SPARES_LEFT of a die (R90): its slices of role spare. -/
def sparesLeft (d : Die) : Nat := d.slices.countP fun k => decide (k.role = .spare)

/-- Retired slices of a die. -/
def retiredOf (d : Die) : Nat := d.slices.countP fun k => decide (k.role = .retired)

/-- Parts of numbers from `base` on that a map has used as spares or has retired. -/
def spareUse (base : Nat) (m : List (Nat × Nat)) : Nat :=
  (((m.map (·.1)) ++ (m.map (·.2))).filter (fun x => base ≤ x)).eraseDups.length

/-- First DRAM page of the 8 MiB held back (R398). -/
def dramSpareBase : Nat := 65536
/-- First spare SRAM row (R399). -/
def sramSpareBase : Nat := 2048

/-- The carrier wires port p (R280). -/
def wired (s : State) (p : Nat) : Bool := cfgBool s 0x4900 p

/-- Port p is retired (R400). -/
def portRetired (s : State) (p : Nat) : Bool := s.health.spare.portRetired.getD p false

/-- Unretired wired ports. -/
def portsAlive (s : State) : Nat := (List.range 4).countP fun p => wired s p && !portRetired s p

/-- Spare count of class c (Table 16.3). -/
def spareCount (s : State) (c : Nat) : Nat :=
  match c with
  | 0 => (s.dies.map sparesLeft).sum
  | 1 => if s.health.spare.primaryRetired then 0 else 1
  | 2 => 2048 - spareUse dramSpareBase s.health.spare.dramMap
  | 3 => 48 - spareUse sramSpareBase s.health.spare.sramMap
  | _ => portsAlive s - 2

/-- Retired parts of class c (R401). -/
def retiredCount (s : State) (c : Nat) : Nat :=
  match c with
  | 0 => (s.dies.map retiredOf).sum
  | 1 => if s.health.spare.primaryRetired then 1 else 0
  | 2 => s.health.spare.dramMap.length
  | 3 => s.health.spare.sramMap.length
  | _ => (List.range 4).countP (portRetired s)

/-- Low mark of class c (Table 16.3). -/
def lowMark (c : Nat) : Nat :=
  match c with
  | 0 => 1
  | 2 => 256
  | 3 => 8
  | _ => 0

/-- Class c is low (R401). -/
def classLow (s : State) (c : Nat) : Bool :=
  if c = 0 then s.dies.any fun d => decide (sparesLeft d ≤ lowMark 0) && decide (0 < retiredOf d)
  else decide (spareCount s c ≤ lowMark c) && decide (0 < retiredCount s c)

/-- Class c is exhausted (R402). -/
def classExhausted (s : State) (c : Nat) : Bool :=
  if c = 0 then s.dies.any fun d => decide (sparesLeft d = 0) && decide (0 < retiredOf d)
  else decide (spareCount s c = 0) && decide (0 < retiredCount s c)

/-- Classes exhausted as their counts stand, by bit (R402). -/
def exhaustedNow (s : State) : Nat := ((List.range 5).map fun c => if classExhausted s c then 2 ^ c else 0).sum

/-- HALF_MAST_CAUSE: exhaustion is permanent, so the spare record keeps it and BOOT restores it (R402, R403). -/
def halfMastCause (s : State) : Nat := exhaustedNow s ||| s.health.spare.exhausted ||| s.health.spare.sinceCause

/-- Exhaustion as R409 lets it begin half-mast: the retirements of a running start-up self-calibration
count from its end tick. -/
def halfMastNow (s : State) : Bool :=
  if s.power.mode = .calibrate then
    (List.range 5).any fun c =>
      if c = 0 then (List.range 4).any fun g =>
        !(s.cal.retiredOn.testBit g) && decide (sparesLeft (dieAt s g) = 0) && decide (0 < retiredOf (dieAt s g))
      else classExhausted s c
  else decide (halfMastCause s ≠ 0)

/-- Half-mast begins with the exhaustion of a class and stays (R409); exhaustion is kept, and the first one goes into the
spare record with its time word (R402, R403). -/
def halfMastStep (s : State) : State :=
  let first := halfMastNow s && !s.health.halfMast && decide (s.health.spare.sinceCause = 0)
  let spare := { s.health.spare with
    sinceTw := if first then s.time.tw else s.health.spare.sinceTw
    sinceCause := if first then halfMastCause s else s.health.spare.sinceCause
    exhausted := halfMastCause s }
  let t := { s with health := { s.health with halfMast := s.health.halfMast || halfMastNow s, spare := spare } }
  if spare = s.health.spare then t else keepSave t

/-- REPLACE_N is asserted (R9, R409). -/
def replaceN (s : State) : Bool := live s && (s.health.halfMast || decide (s.power.mode = .safe))

/-- Supply points of Table 16.2. -/
def supplySources : List Nat :=
  (List.range 4).flatMap (fun g => [0x12 + 10 * g, 0x13 + 10 * g, 0x14 + 10 * g, 0x19 + 10 * g]) ++ [0x3B, 0x3E]

/-- Temperature points of Table 16.2. -/
def tempSources : List Nat := (List.range 4).map (fun g => 0x15 + 10 * g) ++ [0x3C, 0x3A]

/-- Frames in the reserve (RESERVE_FILL is not 0). -/
def reserveUsed (s : State) : Bool := s.buf.res.any fun q => !q.isEmpty

/-- Level of a pennant (Table 16.4). -/
def pnLevel (s : State) (nn : Nat) : Bool :=
  match nn with
  | 0 => s.health.halfMast
  | 1 => (List.range 5).any (classLow s)
  | 2 => s.dies.any fun d => d.refEnable && d.bufOut
  | 3 => s.clocks.ocxoDown
  | 4 => decide (s.ptp.cause ≠ 0)
  | 5 => decide (s.ptp.reroute ≠ 0)
  | 6 => s.ptp.suspect
  | 8 => reserveUsed s
  | 10 => decide (3 ≤ s.store.slotState ∧ s.store.slotState ≤ 6) || s.store.faulty.any id
  | 12 => decide (cfgAt s 0x3820 3 ≤ s.aux.ring.recs.length)
  | 13 => decide (cfgAt s 0x5210 3 ≤ s.ev.ring.recs.length)
  | 15 => s.health.outside.any fun x => supplySources.contains x
  | 16 => s.health.outside.any fun x => tempSources.contains x
  | _ => false

/-- Takes the level of one pennant; a rise raises it (R405). -/
def levelStep (nn : Nat) (s : State) : State :=
  let l := pnLevel s nn
  let rose := l && !(s.health.pennants.getD nn Pennant.init).level
  let s := whenever rose (risePn nn) s
  { s with health.pennants := updAt (fun p => { p with level := l }) nn s.health.pennants }

/-- A further engine cycle: raises from here on are raises of their own (R405). -/
def nextCyc (s : State) : State :=
  { s with health.pennants := s.health.pennants.map fun p => { p with fresh := false } }

/-- Settles half-mast and the pennant levels at the end of a step, from WARM to SAFE. -/
def settle (s : State) : State := if live s then forNat 18 levelStep (halfMastStep s) else s

/-- BUNTING (R404). -/
def bunting (s : State) : Nat := (s.health.pennants.mapIdx fun i p => if p.raised then 2 ^ i else 0).sum

/-- LEVELS (R404). -/
def levelsWord (s : State) : Nat := (s.health.pennants.mapIdx fun i p => if p.level then 2 ^ i else 0).sum

/-- STATE field of the ensign word. -/
def stateCode : Mode → Nat
  | .warm => 1
  | .calibrate => 2
  | .ready => 3
  | .run => 4
  | .safe => 5
  | .off | .hibernate | .boot => 0

/-- The ensign word (Table 16.6). -/
def ensign (s : State) : Nat :=
  let b (x : Bool) (k : Nat) : Nat := if x then 2 ^ k else 0
  stateCode s.power.mode * 2 ^ 29 + b s.health.halfMast 28 + s.time.quality * 2 ^ 26 + b s.ptp.suspect 25
    + b (decide (bunting s ≠ 0)) 24
    + ((List.range 4).map fun g => sparesLeft (dieAt s g) * 2 ^ (16 + 2 * g)).sum
    + spareCount s 1 * 2 ^ 15 + (min (spareCount s 4) 2) * 2 ^ 13
    + ceilDiv (spareCount s 2) 32 * 2 ^ 6 + spareCount s 3

/-- Group, target bank and f of a fade argument (Table 5.5). -/
def fadeGroup (a : BitVec 32) : Nat := bits a.toNat 2 1
/-- Target bank of a fade argument. -/
def fadeTarget (a : BitVec 32) : Nat := bits a.toNat 0 0
/-- Fade length n of a fade argument (R131). -/
def fadeLen (a : BitVec 32) : Nat := 2 ^ (bits a.toNat 7 4 + 4)

/-- The fade operations of group g that wait for their tick. -/
def schedFades (s : State) (g : Nat) : List (Sched × BitVec 32) :=
  s.act.sched.filterMap fun e => match e.op with
    | .xfade a => if fadeGroup a = g then some (e, a) else none
    | _ => none

/-- A fade of group g forms outputs (FIR_XFADE_STATE 2). -/
def fadeRunning (s : State) (g : Nat) : Bool :=
  match (groupAt s g).fade with
  | some f => f.first.isSome
  | none => false

/-- FIR_XFADE_STATE of group g (R132, R133). -/
def fadeState (s : State) (g : Nat) : Nat :=
  if fadeRunning s g then 2 else if (groupAt s g).fade.isSome || !(schedFades s g).isEmpty then 1 else 0

/-- Bank b of group g takes part in a running fade. -/
def bankFading (s : State) (g b : Nat) : Bool :=
  match (groupAt s g).fade with
  | some f => f.first.isSome && (decide (f.target = b) || decide ((groupAt s g).active = b))
  | none => false

/-- Bank b of group g is the target of a scheduled fade. -/
def bankSched (s : State) (g b : Nat) : Bool :=
  ((schedFades s g).any fun e => decide (fadeTarget e.2 = b)) ||
  match (groupAt s g).fade with
  | some f => f.first.isNone && decide (f.target = b)
  | none => false

/-- R126: the bank is locked. -/
def bankLocked (s : State) (g b : Nat) : Bool :=
  decide ((groupAt s g).active = b) || bankFading s g b || bankSched s g b

/-- Bank b of a group. -/
def Group.bank (g : Group) (b : Nat) : Bank := g.banks.getD b ⟨[], false, 0, 0⟩

/-- FIR_BANK_STATE (Table 5.4a). -/
def bankState (s : State) (g b : Nat) : Nat :=
  let k := (groupAt s g).bank b
  (if k.sealed then 2 ^ 15 else 0) + (if (groupAt s g).active = b then 2 ^ 14 else 0)
    + (if bankFading s g b then 2 ^ 13 else 0) + (if bankSched s g b then 2 ^ 12 else 0) + k.len

/-- The stored part of FIR_BANK_STATE: SEALED, ACTIVE and LENGTH. -/
def bankStored (s : State) (g b : Nat) : Nat :=
  let k := (groupAt s g).bank b
  (if k.sealed then 2 ^ 15 else 0) + (if (groupAt s g).active = b then 2 ^ 14 else 0) + k.len

/-- The answer of a step that goes on, with every flag settled. -/
def done (s : State) : Result := .next (settle s)

/-- The end of a write: its answer leaves, and the flags settle. -/
def answered (a : Ans) : Result := .next (settle (emit (.answer a.code a.val) a.st))

/-- A write that the host sends to the dictionary: served from WARM to SAFE; in OFF, HIBERNATE and BOOT the
module receives no frames (R322). -/
def served (s : State) (k : State → Ans) : Result := if live s then answered (k s) else .next s

/-- Rank of a role (R323). -/
def Role.rank : Role → Nat
  | .observer => 0
  | .operator => 1
  | .custodian => 2

/-- The role may do what needs the other role (R323). -/
def roleOk (r need : Role) : Bool := decide (Role.rank need ≤ Role.rank r)

/-- The role, value and state tests of a command entry, in this order (R345); then its own rule. -/
def gate (r need : Role) (valOk : Bool) (modes : List Mode) (s : State) (k : State → Ans) : Ans :=
  if !roleOk r need then refuse 0x0105 s
  else if !valOk then refuse 0x0201 s
  else if !modes.contains s.power.mode then refuse 0x0301 s
  else k s

end Sys2Proof.Machine
end

