-- ==== Sys2Proof/Machine/Clock.lean ====
section
/-! DEFINITION. The time engine between ticks (R15) and the arithmetic of frame ticks (R20 to R27). -/

namespace Sys2Proof.Machine

/-- The tick after a regular tick at t (R20, R24). -/
def regularNext (tfu : Nat) (t : TW) : TW :=
  if t.toNat + tfu < 2 ^ 64 then BitVec.ofNat 64 (t.toNat + tfu)
  else if tfu ≤ 2 * (2 ^ 64 % tfu) then 0 else BitVec.ofNat 64 tfu

/-- The tick that ends a frame begun at x by a time step or setting (R26): the first multiple of TF that
lies at least TF/2 after x; the multiples go on at 0 where the time word wraps. -/
def steppedNext (tfu : Nat) (x : TW) : TW :=
  let m := ceilDiv (x.toNat + tfu / 2) tfu * tfu
  if m < 2 ^ 64 then BitVec.ofNat 64 m
  else if tfu ≤ 2 * (2 ^ 64 - x.toNat) then 0 else BitVec.ofNat 64 tfu

/-- The tick that ends the frame that begins at x. -/
def frameEnd (tfu : Nat) (x : TW) : TW :=
  if x.toNat % tfu = 0 then regularNext tfu x else steppedNext tfu x

/-- Length in units of the frame from x to its end. -/
def frameLen (x e : TW) : Nat := (e - x).toNat

/-- FRAME_NUMBER of a frame that begins at t (R21). -/
def frameNumber (tfu : Nat) (t : TW) : Nat := t.toNat / tfu % 2 ^ 32

/-- Whether the frame from x is shorter than TF (R27). -/
def shortAt (tfu : Nat) (x : TW) : Bool := decide (frameLen x (frameEnd tfu x) < tfu)

/-- The frame that begins at the present tw: its end and whether it is shorter than TF. -/
def openFrame (s : State) : State :=
  let e := frameEnd (tf s) s.time.tw
  { s with time.frameTw := s.time.tw, time.nextTick := e,
           time.shortFrame := decide (frameLen s.time.tw e < tf s) }

/-- TF of the frame that begins at a coming tick t: a pending hoist for t or an earlier tick may change it (R23). -/
def tfFrom (s : State) (t : TW) : Nat :=
  if s.act.sched.any fun e => decide (e.op = .hoist) && TW.atOrBefore e.fire t then
    match s.conf.hoist.bind fun h => kvGet h.content (key 0x4001 0) with
    | some code => tfOfCode code
    | none => tf s
  else tf s

/-- The n-th tick after the tick that follows now (R29, R341). -/
def tickAfter (s : State) : Nat → TW
  | 0 => s.time.nextTick
  | n + 1 => frameEnd (tfFrom s (tickAfter s n)) (tickAfter s n)

/-- The second tick after the tick that follows acceptance (R461), on the grid to come as it is known now
(notes/assumptions/29.md). -/
def directTick (s : State) : TW := tickAfter s 2

/-- The first tick at or after t on the grid of ticks to come: t is a tick when it is a multiple of TF and
not the omitted wrap of R24. -/
def isTickTime (s : State) (t : TW) : Bool :=
  decide (t.toNat % tf s = 0) && (decide (t ≠ 0) || decide (tf s ≤ 2 * (2 ^ 64 % tf s)))

/-- Units of tw, in 2^−40 unit, from the start of the engine cycle in progress to the next tick. -/
def toTickUnits (s : State) : Nat := (s.time.nextTick - s.time.cycTw).toNat * 2 ^ 40 - s.time.cycFrac

/-- Units of tw in the whole engine cycles that end before the next tick (R15). -/
def wholeUnits (s : State) : Nat :=
  let r := toTickUnits s
  if r < s.time.cycInc then 0 else s.time.cycInc + (r - s.time.cycInc) / s.time.inc * s.time.inc

/-- Engine cycles that end before the next tick. -/
def wholeCycles (s : State) : Nat :=
  let r := toTickUnits s
  if r < s.time.cycInc then 0 else 1 + (r - s.time.cycInc) / s.time.inc

/-- A later cycle begins: n cycles and `units` of 2^−40 unit after the start of the one in progress. -/
def TimeEng.toCycle (n units : Nat) (t : TimeEng) : TimeEng :=
  let total := t.cycFrac + units
  { t with cyc := t.cyc + 1024 * n, cycTw := BitVec.ofNat 64 (t.cycTw.toNat + total / 2 ^ 40), cycFrac := total % 2 ^ 40,
           cycInc := if n = 0 then t.cycInc else t.inc }

/-- The present instant takes a time word and a local time; the era counts a wrap (Table 1.3). -/
def TimeEng.at_ (w : TW) (frac pt : Nat) (t : TimeEng) : TimeEng :=
  { t with tw := w, frac := frac, pt := pt, era := if w.toNat < t.tw.toNat then (t.era + 1) % 65536 else t.era }

/-- Lines of the stream buffer (R298). -/
def sbufLines : Nat := 24576

/-- Lines of the entered frame that are not yet written (R299). -/
def unwritten (s : State) : Nat := (s.buf.sbuf.map Entered.unwritten).sum

/-- m lines of the entered frame land at WRITE (R299). -/
def landLines (m : Nat) (s : State) : State :=
  { s with buf := { s.buf with
      sbuf := s.buf.sbuf.map fun e => { e with unwritten := e.unwritten - m }, write := (s.buf.write + m) % sbufLines,
      depth := s.buf.depth + m, peak := max s.buf.peak (s.buf.depth + m) } }

/-- n writes that a full stream buffer ignores (R303). -/
def ignoreWrites (n : Nat) (s : State) : State :=
  if n = 0 then s
  else
    let t := { s with buf.overrunCycles := satAdd s.buf.overrunCycles n }
    if s.buf.overrun then t else raisePn 8 { t with buf.overrun := true }

/-- n engine cycles end, in each of which the entry logic presents one line and none is released (R299, Table 12.1). A
cycle in which a line has been released has had its write with it. -/
def writeCycles (n : Nat) (s : State) : State :=
  let n := if s.buf.portsAt = some s.time.cyc then n - 1 else n
  let left := unwritten s
  let m := min n (min left (sbufLines - s.buf.depth))
  ignoreWrites (if m < left then n - m else 0) (landLines m s)

/-- Local time from the start of the engine cycle that holds the next tick to the tick. -/
def tickOffset (s : State) : Nat :=
  (toTickUnits s - wholeUnits s) * 1024 / (if wholeCycles s = 0 then s.time.cycInc else s.time.inc)

/-- Moves to the next tick: tw takes the tick's value, at its own instant inside the engine cycle that holds it (R15). -/
def toTick (s : State) : State :=
  let off := tickOffset s
  let n := wholeCycles s
  let s := { writeCycles n s with time := s.time.toCycle n (wholeUnits s) }
  { s with time := s.time.at_ s.time.nextTick 0 (s.time.cyc + off) }

/-- The frame in progress as the records of frames hold it. -/
def presentFrame (s : State) : MapSeg :=
  s.map.segs.head?.getD ⟨s.time.frameTw, s.time.epoch, 0, 0, s.shift, s.ptp.suspect⟩

/-- The frame of an instant t of the present course of the time word (R22). An instant before a time step lies in a frame
of the course before it; one at or after the next tick lies in the frame that this tick will begin. -/
def frameOf (s : State) (t : TW) : MapSeg :=
  if TW.atOrBefore s.time.nextTick t then { presentFrame s with tw := s.time.nextTick, shift := s.shift }
  else
    (s.map.segs.find? fun g => TW.atOrBefore (g.tw - BitVec.ofInt 64 g.shift) (t - BitVec.ofInt 64 s.shift)).getD (presentFrame s)

/-- The same instant as a time word of its own frame (R26). -/
def stampIn (s : State) (g : MapSeg) (t : TW) : TW := t + BitVec.ofInt 64 (g.shift - s.shift)

/-- Edges of the system reference are 10 ns apart, in step with the engine cycles at local time 0: the first at or after
local time x (R162, R166). -/
def sysEdge (x : Nat) : Nat := ceilDiv x 2560 * 2560

/-- Engine cycle of an idle step (R15). In BOOT only local time runs, since tw starts after it (R16); in OFF
and HIBERNATE nothing runs. A cycle that holds the next tick waits for FRAME_TICK (notes/assumptions/1.md). -/
def idleCycle (s : State) : State :=
  match s.power.mode with
  | .off | .hibernate => s
  | .boot => { s with time := { s.time with pt := s.time.pt + 1024, cyc := s.time.cyc + 1024 } }
  | _ =>
    if toTickUnits s < s.time.cycInc then s
    else
      let s := { writeCycles 1 s with time := s.time.toCycle 1 s.time.cycInc }
      { s with time := s.time.at_ s.time.cycTw s.time.cycFrac s.time.cyc }

end Sys2Proof.Machine
end

