-- ==== Sys2Proof/Machine/Operands.lean ====
section
/-! DEFINITION. The operand forms: floating-point values (R319), instants of local time as time words, and
the single-entry ranges that a written value must keep (R319, R339 and the rules of each chapter). -/

namespace Sys2Proof.Machine

/-- The value of a finite floating-point number with `m` stored mantissa bits and `e` exponent bits. -/
def decFloat (m e n : Nat) : Rat :=
  let man := n % 2 ^ m
  let ex := n / 2 ^ m % 2 ^ e
  let bias : Int := 2 ^ (e - 1) - 1
  let mag : Rat := if ex = 0 then (man : Rat) * (2 : Rat) ^ (1 - bias - m)
    else ((2 ^ m + man : Nat) : Rat) * (2 : Rat) ^ ((ex : Int) - bias - m)
  if n / 2 ^ (m + e) % 2 = 1 then -mag else mag

/-- The value of a finite binary32. -/
def decF32 (n : Nat) : Rat := decFloat 23 8 n
/-- The value of a finite binary64. -/
def decF64 (n : Nat) : Rat := decFloat 52 11 n

/-- The floating-point number nearest below or above a rational; the direction of an inexact result is not
the spec's (Config.roundUp). Zero is positive zero. -/
def encFloat (m e : Nat) (q : Rat) : Nat :=
  if q.num = 0 then 0
  else
    let n := q.num.natAbs
    let d := q.den
    let bias : Int := 2 ^ (e - 1) - 1
    let e0 : Int := (Nat.log2 n : Int) - Nat.log2 d
    let ge (k : Int) : Bool := if 0 ≤ k then decide (d * 2 ^ k.toNat ≤ n) else decide (d ≤ n * 2 ^ (-k).toNat)
    let ex : Int := if ge e0 then e0 else e0 - 1
    let ex := max ex (1 - bias)
    let sh : Int := m - ex
    let num := if 0 ≤ sh then n * 2 ^ sh.toNat else n
    let den := if 0 ≤ sh then d else d * 2 ^ (-sh).toNat
    let man := num / den + (if num % den ≠ 0 ∧ Config.roundUp q.num q.den then 1 else 0)
    let body := (ex + bias - 1).toNat * 2 ^ m + man
    body + (if q.num < 0 then 2 ^ (m + e) else 0)

/-- A rational as binary32. -/
def encF32 (q : Rat) : Nat := encFloat 23 8 q
/-- A rational as binary64. -/
def encF64 (q : Rat) : Nat := encFloat 52 11 q

/-- Factory data of n octets as written at manufacture (R449). -/
def factoryRaw (idx sub n : Nat) : Nat := Config.factory (key idx sub) % 2 ^ (8 * n)

/-- The two zeners' factory values agree with their factory ratio (R450). -/
def zenersAgree : Bool :=
  let p := decF64 (factoryRaw 0x7042 0 8)
  let x := decF64 (factoryRaw 0x7042 1 8)
  let q := decF64 (factoryRaw 0x7041 0 8)
  decide (0 < p) && decide (0 < q) && decide (|x / p / q - 1| ≤ 1 / 100000000)

/-- Factory data of n octets. What R450 and R453 require of them holds: data that do not meet it are no module's, and a
value that meets it stands for them (notes/assumptions/6.md). The constants of sources 0x00 to 0x0F are R161's. -/
def factoryNat (idx sub n : Nat) : Nat :=
  let v := factoryRaw idx sub n
  if idx = 0x7000 ∧ sub = 1 then (if v = 0 then 1 else v)
  else if idx = 0x7041 then (if zenersAgree then v else 0x3FF0000000000000)
  else if idx = 0x7042 then (if zenersAgree then v else 0x40147AE147AE147B)
  else if idx / 4 = 0x7050 / 4 then
    (if 899 / 1000 ≤ decF64 v ∧ decF64 v ≤ 901 / 1000 then v else 0x3FECCCCCCCCCCCCD)
  else if idx / 4 = 0x7060 / 4 then (if -20000 ≤ signedOf 32 v ∧ signedOf 32 v ≤ 20000 then v else 0)
  else if sub ≤ 0x0F ∧ (idx = 0x7380 ∨ idx = 0x7381) then (if idx = 0x7380 then 0x3F800000 else 0)
  else v

/-- A written floating-point value is finite. -/
def finite (m e n : Nat) : Bool := decide (n / 2 ^ m % 2 ^ e ≠ 2 ^ e - 1)

/-- The stored form of a written value: −0.0 becomes +0.0 (R366). -/
def normalForm (t : Ty) (v : Nat) : Nat :=
  match t with
  | .f32 => if v = 2 ^ 31 then 0 else v
  | .f64 => if v = 2 ^ 63 then 0 else v
  | _ => v

/-- The time word at a local instant, on the present course of the time engine. -/
def twAt (s : State) (x : Nat) : TW :=
  let d : Int := ((x : Int) - s.time.pt) * s.time.inc + 1024 * s.time.frac
  BitVec.ofInt 64 ((s.time.tw.toNat : Int) + d / (1024 * 2 ^ 40))

/-- The local instant at which the time word reaches t, on the present course, for t at most 2^62 away. -/
def ptAt (s : State) (t : TW) : Nat :=
  let d : Int := (ahead s t) * 2 ^ 40 - s.time.frac
  ((s.time.pt : Int) - (-(d * 1024)) / s.time.inc).toNat

/-- The whole part of a square root, from bit k − 1 down, above the part r already found. -/
def isqrtFrom : Nat → Nat → Nat → Nat
  | 0, _, r => r
  | k + 1, n, r => isqrtFrom k n (if (r + 2 ^ k) * (r + 2 ^ k) ≤ n then r + 2 ^ k else r)

/-- The whole part of a square root. -/
def isqrt (n : Nat) : Nat := isqrtFrom (n.log2 / 2 + 1) n 0

/-- Square root of a non-negative rational, cut to 80 fractional bits. -/
def sqrtRat (q : Rat) : Rat := (isqrt (q.num.toNat * 2 ^ 160 / q.den) : Rat) / 2 ^ 80

/-- A record of a ring is a marker record (Table 7.5). -/
def isMarker (w : Nat) : Bool := decide (w / 2 ^ 62 = 3)

/-- The value lies in lo to hi. -/
def inR (lo hi v : Nat) : Bool := decide (lo ≤ v) && decide (v ≤ hi)

/-- The signed value of w bits lies in lo to hi. -/
def inRI (w : Nat) (lo hi : Int) (v : Nat) : Bool := decide (lo ≤ signedOf w v) && decide (signedOf w v ≤ hi)

/-- The binary32 lies in lo to hi. -/
def inRF (lo hi : Rat) (v : Nat) : Bool := decide (lo ≤ decF32 v) && decide (decF32 v ≤ hi)

/-- Values that the type admits (Table 13.1): Booleans, finite numbers, the type's width. -/
def typeOk (t : Ty) (v : Nat) : Bool :=
  match t with
  | .bool => decide (v ≤ 1)
  | .f32 => finite 23 8 v
  | .f64 => finite 52 11 v
  | _ => true

/-- Counters of which a write accepts only 0 (R322). -/
def zeroOnly (k : Nat) : Bool :=
  let i := keyIdx k
  decide (i / 0x100 = 0x24) || [key 0x1220 0, key 0x1220 1, key 0x3804 1, key 0x3820 4, key 0x5210 4, key 0x4B01 0,
    key 0x4B01 1, key 0x4B05 2, key 0x4B00 6].contains k || decide (i = 0x3C48)

/-- Single-entry ranges of the filter, auxiliary and trigger entries (chapters 02 to 08). -/
def inRange1 (i sub v : Nat) : Bool :=
  match i with
  | 0x2F41 => if sub = 0 then inR 100 1000000 v else if sub = 1 then inR 100 100000 v else inRF 1 1000000000 v
  | 0x3400 => inR 3 5 v
  | 0x3401 => inR 3 12 v
  | 0x3402 => decide (v = 32) || decide (v = 64)
  | 0x3600 => inR 250 256000 v
  | 0x3601 => inR 0 1 v
  | 0x3602 => inR 0 16 v
  | 0x3800 => inR 0 16 v
  | 0x3801 => decide (bits v 31 12 = 0) && decide (bits v 11 8 ≤ 8)
  | 0x3802 => if sub = 0 then inR 0 3 v else if sub = 1 then inR 1 65535 v else inR 0 3 v
  | 0x3808 => inR 0 15 v
  | 0x380B => inR 0 2 v
  | 0x3820 => if sub = 3 then inR 1 8192 v else true
  | 0x3C00 => inR 0 2 v
  | 0x3C01 => inR 0 15 v
  | 0x3C02 => inR 0 6 v
  | 0x3C04 => inR 0 2 v
  | 0x3C06 => inR 0 (2 ^ 31 - 1) v
  | 0x3C07 => inR 1 256 v
  | 0x3C08 => inR 0 1 v
  | 0x3C0A => decide (v = 0) || decide (256000 ≤ v)
  | 0x3C0C => decide (1 ≤ v)
  | 0x3C0D => inR 0 (2 ^ 20) v
  | 0x3C0E => inR 0 16 v
  | 0x3C11 => inR 0 1 v
  | 0x3C80 => inR 0 7 v || decide (v = 0xFF)
  | 0x3C82 => inR 1 1000 v
  | _ => true

/-- Single-entry ranges of the time, link, event and system entries (chapters 01 and 09 to 16). -/
def inRange2 (i sub v : Nat) : Bool :=
  match i with
  | 0x1001 => decide (sub ≠ 0) || inR 0 0xFFFFE v
  | 0x1202 => inR 0 3600 v
  | 0x1210 => inR 100 60000 v
  | 0x4001 => inR 0 4 v
  | 0x4012 => match sub with
    | 0 => inR 0 127 v
    | 1 => inRI 8 (-7) 0 v
    | 2 => inRI 8 (-3) 4 v
    | 3 => inR 2 10 v
    | 4 => inRI 8 (-4) 4 v
    | 5 => inR 0 3 v
    | 7 => inR 0 4094 v
    | _ => true
  | 0x4013 => match sub with
    | 0 => inRF (1 / 1000) 1 v
    | 1 => inRF (1 / 2) 2 v
    | 2 => inR 10 100000 v
    | 3 => inR 1 86400 v
    | 4 => inR 100 1000000 v
    | _ => inR 1 255 v
  | 0x4014 => match sub with
    | 0 => inR 1000 4000000000 v
    | 1 => inRF 0 (1 / 1000000) v
    | _ => true
  | 0x4015 => inR 50 1000000 v
  | 0x4802 => inR 16 4096 v
  | 0x4901 => inR 0 3 v
  | 0x4902 => inR 100 10000 v
  | 0x4903 => inR 10 2000 v
  | 0x4909 => if sub = 1 then inR 10 60000 v else true
  | 0x4A00 => if sub = 1 then inR 0 4094 v else if sub = 2 then inR 0 7 v else if sub = 4 then inR 1 255 v else true
  | 0x4B05 => inR 4 240 v
  | 0x5200 => inR 0 2 v
  | 0x5210 => if sub = 3 then inR 1 4096 v else true
  | 0x5401 => decide (v = 1)
  | 0x5402 => inR 0 0x0FFF v
  | 0x5800 => inR 0 3 v
  | 0x5802 => inR 0 600 v
  | 0x5804 => inR 0 3 v
  | 0x5C60 => inR 5 200 v
  | _ => true

/-- Single-entry range of an entry (refused with 0x0201 outside it). -/
def inRange (k v : Nat) : Bool :=
  let i := keyIdx k
  let sub := keySub k
  if zeroOnly k then decide (v = 0)
  else match i / 0x100 with
    | 0x21 => inR 0 8 v
    | 0x22 => inRI 16 (-255) 255 v
    | 0x23 => decide (v / 8 = 0) && decide (v % 4 ≠ 3)
    | 0x35 => inRI 32 (-(2 ^ 23)) (2 ^ 23 - 1) v
    | _ => if i < 0x4000 ∧ 0x2F00 ≤ i then inRange1 i sub v else inRange2 i sub v

end Sys2Proof.Machine
end

