-- ==== Sys2Proof/Machine/Storage.lean ====
section
/-! DEFINITION. Configuration integrity (chapter 14): the Noveus digest (R366, R367), configuration images
(R350 to R352), the two banks and their writes (R353 to R356), and the mirror in the slot memory (R359). -/

namespace Sys2Proof.Machine

/-- Inserts an item into a list held with keys falling. -/
def insDesc (a : Nat × Ty) : List (Nat × Ty) → List (Nat × Ty)
  | [] => [a]
  | b :: l => if b.1 < a.1 then a :: b :: l else b :: insDesc a l

/-- The entries that a row names. -/
def Row.entries (r : Row) : List (Nat × Ty) :=
  (List.range r.n1).flatMap fun j => (List.range r.n2).flatMap fun k =>
    (List.range (r.hi + 1 - r.lo)).map fun i => (key (r.base + r.s1 * j + r.s2 * k) (r.lo + i), r.ty)

/-- Every staged entry, keys rising (R320). -/
def rwsEntries : List (Nat × Ty) :=
  ((rows.filter fun r => decide (r.acc = .rws)).flatMap Row.entries).foldl (fun l a => insDesc a l) [] |>.reverse

/-- The slot-owned entries (R358). -/
def slotOwned : List Nat := [key 0x4900 0, key 0x4900 1, key 0x4900 2, key 0x4900 3, key 0x5802 0, key 0x5802 1]

/-- Digest class of a staged entry (Table 14.4), 12 for none. -/
def digestClass (k : Nat) : Nat :=
  let i := keyIdx k
  let inR (a b : Nat) : Bool := decide (a ≤ i) && decide (i ≤ b)
  if k = key 0x4012 5 || slotOwned.contains k then 12
  else if i = 0x4001 || i = 0x5401 || i = 0x5402 then 0
  else if inR 0x4012 0x4015 then 1
  else if inR 0x3400 0x3402 then 2
  else if inR 0x3600 0x3602 || i = 0x4800 || i = 0x4802 || i = 0x4803 then 3
  else if inR 0x2100 0x29FF || i = 0x2F41 || i = 0x2F43 then 4
  else if i = 0x3010 then 5
  else if inR 0x3800 0x380B || i = 0x3820 then 6
  else if inR 0x3C00 0x3C15 || inR 0x3C80 0x3C82 then 7
  else if i = 0x5200 || i = 0x5210 || i = 0x5280 || i = 0x5281 then 8
  else if i = 0x4A00 || i = 0x4B05 then 9
  else if inR 0x5800 0x5BFF then 10
  else if inR 0x5C00 0x5FFF then 11
  else 12

/-- The shared entries of a configuration (R367). -/
def sharedEntries (c : KV) : List (Nat × Ty) :=
  let m := cfgGet c (key 0x5402 0)
  rwsEntries.filter fun e => let d := digestClass e.1; decide (d < 12) && (decide (d = 0) || m.testBit d)

/-- One digest record (R366). -/
def digestRecord (c : KV) (e : Nat × Ty) : List Nat :=
  octetsOf 3 e.1 ++ [e.2.code] ++ octetsOf 2 e.2.size ++ octetsOf e.2.size (cfgGet c e.1)

/-- The message M of R366. -/
def digestMessage (c : KV) : List Nat :=
  [0x4E, 0x4F, 0x56, 0x45, 0x55, 0x53, 0x01] ++ (sharedEntries c).flatMap (digestRecord c)

/-- The Noveus digest of a configuration (R366). -/
def digestOf (c : KV) : BitVec 64 := BitVec.ofNat 64 (natOf ((sha256 (digestMessage c)).take 8))

/-- MODULE_SERIAL. -/
def moduleSerial : BitVec 32 := BitVec.ofNat 32 (factoryNat 0x7000 1 4)

/-- Entries outside the staged ones that an image holds, and staged entries that it always holds (R350). -/
def alwaysStored : List Nat :=
  [key 0x1001 0, key 0x1202 0, key 0x1210 0, key 0x4107 0, key 0x4107 1, key 0x4107 2, key 0x4107 3] ++ slotOwned

/-- The records of FIR banks (R350), keys rising: bank states, check values, coefficients. -/
def bankRecords (s : State) : KV :=
  let ids := (List.range 8).map fun i => (i / 2, i % 2)
  ids.map (fun p => (key 0x3404 (2 * p.1 + p.2), bankStored s p.1 p.2))
  ++ ids.map (fun p => (key 0x340C (2 * p.1 + p.2), ((groupAt s p.1).bank p.2).crc))
  ++ ids.flatMap (fun p => ((groupAt s p.1).bank p.2).coefs.mapIdx fun i c =>
      (key (0x3500 + 0x10 * p.1 + p.2) i, wireInt 32 c))

/-- The configuration section of the configuration in force, as key and value, keys rising (R350). -/
def imageRecords (c : KV) (s : State) : KV :=
  let b := alwaysStored.foldl (fun acc k => kvSet acc k (cfgGet c k)) c
  b.filter (fun p => decide (p.1 < key 0x3404 0)) ++ bankRecords s ++ b.filter (fun p => decide (key 0x3404 0 ≤ p.1))

/-- Type of a stored entry. -/
def storedTy (k : Nat) : Ty := match lookup (keyIdx k) (keySub k) with | some r => r.ty | none => .i32

/-- An image record being formed: key of its first value, type, and the values, newest first (R352). -/
structure ImgRec where
  first : Nat
  ty    : Ty
  vals  : List Nat
deriving DecidableEq, Repr

/-- Adds a value to the records formed so far, the newest record at the head: it joins the newest when its subindex
follows and its type is the same. -/
def recordPush (acc : List ImgRec) (p : Nat × Nat) : List ImgRec :=
  match acc with
  | r :: l =>
    if p.1 = r.first + r.vals.length ∧ keyIdx p.1 = keyIdx r.first ∧ storedTy p.1 = r.ty ∧ r.vals.length < 255 then
      { r with vals := p.2 :: r.vals } :: l
    else ⟨p.1, storedTy p.1, [p.2]⟩ :: acc
  | [] => [⟨p.1, storedTy p.1, [p.2]⟩]

/-- The records of a configuration section, in order. -/
def recordsOf (l : KV) : List ImgRec := (l.foldl recordPush []).reverse

/-- An image record on its store: the 8-octet head and the values (R352). -/
def ImgRec.octets (r : ImgRec) : List Nat :=
  octetsOf 3 r.first ++ [r.ty.code, r.vals.length, 0] ++ octetsOf 2 r.ty.size
    ++ r.vals.reverse.flatMap (octetsOf r.ty.size)

/-- Octets of a configuration section. -/
def sectionLen (l : KV) : Nat := ((recordsOf l).map fun r => 8 + r.ty.size * r.vals.length).sum

/-- The resulting configuration section fits a bank (Table 14.6, check 4). -/
def sectionFits (c : KV) (s : State) : Bool := decide (sectionLen (imageRecords c s) ≤ 16336)

/-- An image of KIND kind with a calibration section, as its bank holds it (R350 to R352). -/
def imageOctets (kind : Nat) (im : Image) (cal : List Nat) : List Nat :=
  let body := (recordsOf im.records).flatMap ImgRec.octets
  let head := octetsOf 4 0x475A4346 ++ [0x01, kind, im.compat, 0] ++ octetsOf 4 im.sequence.toNat
    ++ octetsOf 2 body.length ++ octetsOf 2 cal.length ++ octetsOf 4 im.generation.toNat
    ++ octetsOf 8 im.digest.toNat ++ octetsOf 4 (im.nodeId * 2 ^ 12) ++ octetsOf 4 im.serial.toNat
    ++ octetsOf 8 im.writtenTw.toNat
  head ++ octetsOf 4 (crc32c (head ++ body ++ cal)) ++ body ++ cal

/-- The values of one record of n values of len octets from key k, before the rest of the section. -/
def recordVals (k len : Nat) : Nat → List Nat → KV
  | 0, _ => []
  | n + 1, l => (k, natOf (l.take len)) :: recordVals (k + 1) len n (l.drop len)

/-- Reads a configuration section (R352) whose keys lie above lo, taking at most `fuel` records: none where a record's
order is broken or the last does not end at the section's end. -/
def readSection : Nat → Nat → List Nat → Option KV
  | _, _, [] => some []
  | 0, _, _ :: _ => none
  | fuel + 1, lo, l =>
    let k := natOf (l.take 3)
    let n := l.getD 4 0
    let len := natOf ((l.drop 6).take 2)
    if l.length < 8 + n * len ∨ n = 0 ∨ 256 < keySub k + n ∨ k < lo then none
    else (readSection fuel (k + n) (l.drop (8 + n * len))).map fun t => recordVals k len n (l.drop 8) ++ t

/-- The image that a bank of KIND kind and size 48 + limit holds; none where the bank is not valid (R353, R357). -/
def readImage (kind limit : Nat) (l : List Nat) : Option Image :=
  let f (a n : Nat) : Nat := natOf ((l.drop a).take n)
  let cfgLen := f 12 2
  let len := cfgLen + f 14 2
  let body := (l.drop 48).take len
  if l.length < 48 + len ∨ f 0 4 ≠ 0x475A4346 ∨ f 4 1 ≠ 0x01 ∨ f 5 1 ≠ kind ∨ limit < len
      ∨ crc32c (l.take 44 ++ body) ≠ f 44 4 then none
  else (readSection cfgLen 0 (body.take cfgLen)).map fun recs =>
    { compat := f 6 1, sequence := BitVec.ofNat 32 (f 8 4), generation := BitVec.ofNat 32 (f 16 4),
      digest := BitVec.ofNat 64 (f 20 8), nodeId := f 28 4 / 2 ^ 12, serial := BitVec.ofNat 32 (f 32 4),
      writtenTw := BitVec.ofNat 64 (f 36 8), records := recs }

/-- The image of a slot bank (R357). -/
def readSlotBank (l : List Nat) : Option Image := readImage 0x02 16336 l

/-- The keys of a section rise and none appears twice (R352). -/
def keysRise : KV → Bool
  | a :: b :: l => decide (a.1 < b.1) && keysRise (b :: l)
  | _ => true

/-- A module bank is valid in what its content shows (R352, R353); its header, its check value and the length of its
calibration section are the read's (notes/assumptions/25.md). -/
def BankImage.valid (b : BankImage) : Bool := decide (sectionLen b.img.records ≤ 16336) && keysRise b.img.records

/-- The newer of two stored images by the serial arithmetic of R356: its bank. -/
def newestBank (a b : Option (BitVec 32)) : Option Nat :=
  match a, b with
  | some x, some y => some (if serialLt x y then 1 else 0)
  | some _, none => some 0
  | none, some _ => some 1
  | none, none => none

/-- Sequence numbers of the module's banks. -/
def bankSeq (s : State) (b : Nat) : Option (BitVec 32) := ((s.store.banks.getD b none)).map (·.img.sequence)

/-- The newest valid bank. -/
def bankNewest (s : State) : Option Nat := newestBank (bankSeq s 0) (bankSeq s 1)

/-- SEQUENCE of the next write: one more than the newest, or 1 (R354). -/
def nextSeq (newest : Option Nat) (seqOf : Nat → Option (BitVec 32)) : BitVec 32 :=
  match newest with
  | some b => (seqOf b).getD 0 + 1
  | none => 1

/-- Bank that a write goes to: not the newest, or bank 0 (R354). -/
def targetOf (newest : Option Nat) : Nat :=
  match newest with
  | some 0 => 1
  | _ => 0

/-- The calibration record of R82 as it stands; the pairs that a calibration has computed are in it from its step 6. -/
def calRecord (s : State) : CalRecord where
  slices := s.dies.map (·.slices)
  pairs := s.chans.map fun c => c.newPairs.getD c.pairs
  base := s.chans.map fun c => c.newPairs.getD c.base
  oBase := s.chans.map (·.oBase)
  orphan := s.dies.map (·.orphan)

/-- The image of the configuration in force. -/
def imageNow (s : State) (seq : BitVec 32) : BankImage where
  img := { compat := cfgAt s 0x5401 0, sequence := seq, generation := s.conf.generation, digest := s.conf.digest,
           nodeId := cfgAt s 0x1001 0, serial := moduleSerial, writtenTw := s.time.tw,
           records := imageRecords s.conf.cfg s }
  cal := calRecord s

/-- The slot memory may be written (R359, R364). -/
def slotWritable (s : State) : Bool := decide (s.store.slotState ≠ 4) && decide (s.store.slotState ≠ 6)

/-- Begins a bank write with the configuration in force. The target is not valid until its header is written. -/
def imageStart (s : State) : State :=
  let t := targetOf (bankNewest s)
  let im := imageNow s (nextSeq (bankNewest s) (bankSeq s))
  { s with store.writing := some (t, im, false), store.banks := s.store.banks.set t none,
           store.mirrorState := if slotWritable s ∧ s.store.mirroring.isNone then 1 else s.store.mirrorState }

/-- A trigger of R354: begins an image write, is stored by one that begins at the same instant (R371), or merges into
the further write after the one under way. Once a bank is faulty no image is written (R355). -/
def imageSave (s : State) : State :=
  if s.store.faulty.any id then s
  else
    match s.store.writing with
    | some (t, im, second) =>
      if !second && decide (im.img.writtenTw = s.time.tw) then
        { s with store.writing := some (t, imageNow s im.img.sequence, false) }
      else { s with store.again := true }
    | none => imageStart s

/-- Sequence numbers of the slot banks. -/
def slotSeq (s : State) (b : Nat) : Option (BitVec 32) := (s.store.slotBanks.getD b none).map (·.sequence)

/-- One transfer of the slot memory's bus, acknowledged or not (R357). -/
def SlotBus.transfer (b : SlotBus) (ack : Bool) : SlotBus :=
  if ack then { b with fails := 0 }
  else if b.fails < 2 then { b with fails := b.fails + 1 }
  else if b.slow then { b with fails := 0, unreadable := true }
  else { b with slow := true, fails := 0 }

/-- Transfers in their order. -/
def SlotBus.run (b : SlotBus) (l : List Bool) : SlotBus := l.foldl SlotBus.transfer b

/-- Begins the mirror of an image (R359). A slot memory that counts as unreadable is tried again with it (R357). -/
def mirrorStart (im : Image) (s : State) : State :=
  let newest := newestBank (slotSeq s 0) (slotSeq s 1)
  let t := targetOf newest
  { s with store.slotBus := { s.store.slotBus with fails := 0, unreadable := false },
           store.mirroring := some (t, { im with sequence := nextSeq newest (slotSeq s), writtenTw := s.time.tw }, 0),
           store.slotBanks := s.store.slotBanks.set t none, store.mirrorState := 2 }

/-- Mirrors an image, or has it mirrored after the mirror under way (R359). -/
def mirrorImage (im : Image) (s : State) : State :=
  if !slotWritable s then s
  else if s.store.mirroring.isSome then { s with store.mirrorNext := some im }
  else mirrorStart im s

/-- IMAGE_WRITE_DONE (R354, R355, R359): the bank write ends with its read-back. -/
def imageWriteDone (ok : Bool) (s : State) : State :=
  match s.store.writing with
  | none => s
  | some (t, im, second) =>
    if ok then
      let s := { s with store.banks := s.store.banks.set t (some im), store.writing := none }
      let s := mirrorImage im.img s
      if s.store.again then imageStart { s with store.again := false } else s
    else if second then
      raisePn 10 { s with store.writing := none, store.again := false,
                          store.faulty := s.store.faulty.set t true }
    else { s with store.writing := some (t, im, true) }

def execImageWriteDone (readBackOk : Bool) (s : State) : Result :=
  if live s then done (imageWriteDone readBackOk s) else .next s

/-- After a mirror ends, the newer image that waits is mirrored. -/
def mirrorFollow (s : State) : State :=
  match s.store.mirrorNext with
  | some im => mirrorStart im { s with store.mirrorNext := none }
  | none => s

/-- SLOT_MIRROR_DONE (R357, R359): a mirror ends with its read-back, and is repeated up to three times while the slot
memory answers. -/
def slotMirrorDone (o : MirrorEnd) (s : State) : State :=
  match s.store.mirroring with
  | none => s
  | some (t, im, n) =>
    let bus := s.store.slotBus.run o.transfers
    let s := { s with store.slotBus := bus }
    if o.readBackOk ∧ !bus.unreadable then
      mirrorFollow { s with store.slotBanks := s.store.slotBanks.set t (some im), store.mirrorLast := im.writtenTw,
                            store.mirroring := none,
                            store.mirrorState := if s.store.writing.isSome then 1 else 0 }
    else if n < 3 ∧ !bus.unreadable then { s with store.mirroring := some (t, im, n + 1) }
    else mirrorFollow (raisePn 10 { s with store.mirroring := none, store.mirrorState := 3 })

def execSlotMirrorDone (readBackOk : MirrorEnd) (s : State) : Result :=
  if live s then done (slotMirrorDone readBackOk s) else .next s

/-- KEEP_REGION_WRITE_DONE (R353): the copy becomes valid, or stays without a valid content; a change that
came meanwhile is written next. -/
def keepWriteDone (ok : Bool) (s : State) : State :=
  match s.store.keepWriting with
  | none => s
  | some (t, rec) =>
    let s := { s with store.keepWriting := none, store.keep := s.store.keep.set t (if ok then some rec else none) }
    if s.store.keepAgain then keepSave { s with store.keepAgain := false } else s

def execKeepRegionWriteDone (ok : Bool) (s : State) : Result :=
  if s.power.mode.clocked then done (keepWriteDone ok s) else .next s

/-- CFG_BANK_STATE (Table 14.9). -/
def bankStateCode (s : State) (b : Nat) : Nat :=
  if s.store.faulty.getD b false then 3
  else if bankNewest s = some b then 2
  else if (s.store.banks.getD b none).isSome then 1 else 0

/-- The newer image of the slot memory (R357). -/
def slotNewest (s : State) : Option Image :=
  (newestBank (slotSeq s 0) (slotSeq s 1)).bind fun b => s.store.slotBanks.getD b none

/-- A record of this entry bears a committed value (R350): FIR banks live in the groups. -/
def isConfigKey (k : Nat) : Bool :=
  !(decide (key 0x3404 0 ≤ k) && decide (k < key 0x3600 0)) &&
    (alwaysStored.contains k ||
      (match lookup (keyIdx k) (keySub k) with | some r => decide (r.acc = .rws) | none => false))

/-- The committed configuration that a configuration section spells. -/
def cfgOfRecords (records : KV) : KV :=
  records.foldl (fun c p => if isConfigKey p.1 then cfgSet c p.1 p.2 else c) []

/-- Bank b of group g as a configuration section spells it; without a record, as the factory image has it. -/
def bankOfRecords (records : KV) (g b : Nat) : Bank :=
  let d := Group.init.bank b
  let st := kvGet records (key 0x3404 (2 * g + b))
  { coefs := d.coefs.mapIdx fun i c =>
      match kvGet records (key (0x3500 + 0x10 * g + b) i) with | some v => signedOf 32 v | none => c
    sealed := match st with | some v => v.testBit 15 | none => d.sealed
    len := match st with | some v => bits v 6 0 | none => d.len
    crc := (kvGet records (key 0x340C (2 * g + b))).getD d.crc }

/-- Group g after BOOT from a configuration section. -/
def groupOfRecords (records : KV) (g : Nat) : Group :=
  let banks := [bankOfRecords records g 0, bankOfRecords records g 1]
  let act := match kvGet records (key 0x3404 (2 * g + 1)) with
    | some v => if v.testBit 14 then 1 else 0
    | none => 0
  { Group.init with banks := banks, active := act, firLog := [⟨0, 0, [], (banks.getD act ⟨[], false, 0, 0⟩).coefs⟩] }

end Sys2Proof.Machine
end

