-- ==== Sys2Proof/Machine/Admission.lean ====
section
/-! DEFINITION. What a configuration implies, and its admission: filter and stream delays (R120, R148), the
quantities of R290, the checks of Table 11.10 in their order, and the per-frame work budget (R33, R34). All
functions here read a configuration, not the state, so that a commit is judged on what it would leave. -/

namespace Sys2Proof.Machine

/-- Value of an entry in a configuration. -/
def cv (c : KV) (idx sub : Nat) : Nat := cfgGet c (key idx sub)

/-- TF in units. -/
def cTf (c : KV) : Nat := tfOfCode (cv c 0x4001 0)
/-- TF in microseconds. -/
def cTfUs (c : KV) : Nat := cTf c / usec

/-- CIC order N of group g. -/
def cicN (c : KV) (g : Nat) : Nat := cv c 0x3400 g
/-- CIC rate R of group g. -/
def cicR (c : KV) (g : Nat) : Nat := 2 ^ cv c 0x3401 g
/-- FIR length L of group g. -/
def firL (c : KV) (g : Nat) : Nat := cv c 0x3402 g
/-- FIR output rate of group g in S/s: 4.096 MHz over 2R. -/
def fIn (c : KV) (g : Nat) : Nat := 2048000 / cicR c g

/-- Chain delay of group g in units: D periods of 62,500 units, D = ((N + L − 1)·R − N)/2 (R120). -/
def chainDelay (c : KV) (g : Nat) : Nat :=
  ((cicN c g + firL c g - 1) * cicR c g - cicN c g) * (modPeriod / 2)

/-- Stream delay G of group g in stream st, in units (R148). -/
def streamDelay (c : KV) (st g : Nat) : Nat :=
  chainDelay c g + (if cv c 0x3601 st = 0 then 48 else 24) * cicR c g * modPeriod

/-- Channel set of stream st, bit c for channel c (R183, R267). -/
def streamMask (c : KV) (st : Nat) : Nat := cv c 0x4800 st

/-- Channels of a mask, ascending. -/
def maskChans (m : Nat) : List Nat := (List.range 128).filter m.testBit

/-- Groups that have a channel in a mask. -/
def maskGroups (m : Nat) : List Nat := (List.range 4).filter fun g => decide (bits m (32 * g + 31) (32 * g) ≠ 0)

/-- Channels in a mask. -/
def maskCount (m : Nat) : Nat := (List.range 128).countP m.testBit

/-- Stream st is defined (R267). -/
def streamDefined (c : KV) (st : Nat) : Bool := decide (streamMask c st ≠ 0)

/-- The defined streams. -/
def definedStreams (c : KV) : List Nat := (List.range 16).filter (streamDefined c)

/-- RS_LOAD: channel outputs per second of all defined streams (R142). -/
def rsLoad (c : KV) : Nat := ((definedStreams c).map fun s => maskCount (streamMask c s) * cv c 0x3600 s).sum

/-- Delivery bound of stream st in units (R287): the largest over its groups; 0 when it is not defined. -/
def streamBound (c : KV) (st : Nat) : Nat :=
  if streamDefined c st then
    (((maskGroups (streamMask c st)).map (streamDelay c st)).foldl max 0) + 2 * cTf c + 12 * usec
  else 0

/-- Outputs of n channels in one segment (R272). -/
def segCap (n : Nat) : Nat := 8900 / (4 * n)

/-- Octets of framing per segment in R290. -/
def segOver : Nat := 138

/-- σ and W of stream st (R290). -/
def streamLoad (c : KV) (st : Nat) : Nat × Nat :=
  let n := maskCount (streamMask c st)
  let e := cv c 0x4802 st
  let m := cv c 0x3600 st * cTfUs c / (1000000 * 2 ^ cv c 0x3602 st) + 1
  let sg := ceilDiv m (segCap n) + ceilDiv (8 * e) 8900 + 1
  (sg, 4 * n * m + 8 * e + segOver * sg)

/-- Units whose TRG_MODE is not 0. -/
def modeUnits (c : KV) : List Nat := (List.range 8).filter fun u => decide (cv c 0x3C00 u ≠ 0)

/-- Channels that unit u captures. -/
def unitChans (c : KV) (u : Nat) : Nat := maskCount (cv c 0x3C15 u)

/-- σ and W of unit u (R290). -/
def unitLoad (c : KV) (u : Nat) : Nat × Nat :=
  let n := unitChans c u
  let d := ceilDiv (cv c 0x3C13 u * cTfUs c) 1000000
  let sg := ceilDiv d (segCap n) + 1
  (sg, 4 * n * d + segOver * sg)

/-- Octets of b·(p + h + x) + 64 with b = 5·n (R196). -/
def capBytes (c : KV) (u x : Nat) : Nat :=
  64 + 5 * unitChans c u * (cv c 0x3C0B u + cv c 0x3C0D u + x)

/-- TRG_ALLOC of unit u in bytes. -/
def allocBytes (c : KV) (u : Nat) : Nat := cv c 0x3C12 u * 2 ^ 20

/-- Unit u is classed as streaming (R196). -/
def unitStreaming (c : KV) (u : Nat) : Bool :=
  decide (cv c 0x3C00 u ≠ 0) && decide (allocBytes c u < capBytes c u (cv c 0x3C0C u))

/-- W of R290 with the drains of the given units. -/
def wTotal (c : KV) (us : List Nat) : Nat :=
  ((definedStreams c).map fun s => (streamLoad c s).2).sum + (us.map fun u => (unitLoad c u).2).sum + 2048

/-- W of the configuration. -/
def wCfg (c : KV) : Nat := wTotal c (modeUnits c)

/-- σ of the configuration. -/
def sigmaCfg (c : KV) : Nat :=
  ((definedStreams c).map fun s => (streamLoad c s).1).sum + ((modeUnits c).map fun u => (unitLoad c u).1).sum + 2

/-- Wired ports of rank k (R280). -/
def rankPorts (c : KV) (k : Nat) : List Nat :=
  (List.range 4).filter fun p => decide (cv c 0x4900 p ≠ 0) && decide (cv c 0x4901 p = k)

/-- The ring ports of rank 1 and 2, ascending. -/
def ringPorts (c : KV) : List Nat :=
  (List.range 4).filter fun p => (rankPorts c 1).contains p || (rankPorts c 2).contains p

/-- Ω_p in microseconds (R278). -/
def rtoUs (c : KV) (p : Nat) : Nat := cv c 0x4903 p + 2 * cTfUs c + 200

/-- φ (R290). -/
def phiCfg (c : KV) : Nat := ceilDiv (((ringPorts c).map (rtoUs c)).foldl max 0) (cTfUs c)

/-- CREDIT_NEED (R290). -/
def creditNeed (c : KV) : Nat := ceilDiv (wCfg c * phiCfg c) 512

/-- A failed admission check: code, port, and both sides of the inequality (R291). -/
structure AdmitFail where
  code : Nat
  port : Nat
  need : Nat
  have_ : Nat
deriving DecidableEq, Repr

/-- A check that has no sides to report. -/
def plainFail (code : Nat) : Option AdmitFail := some ⟨code, 0xFF, 0, 0⟩

/-- A check `need ≤ have`. -/
def within (code port need hav : Nat) : Option AdmitFail :=
  if need ≤ hav then none else some ⟨code, port, need, hav⟩

/-- The first failure of a list of checks. -/
def firstFail (l : List (Option AdmitFail)) : Option AdmitFail := l.findSome? id

/-- Check 1: resampler ratios (R141). -/
def admit1 (c : KV) : Option AdmitFail :=
  if (definedStreams c).all fun s => (maskGroups (streamMask c s)).all fun g =>
      decide (fIn c g ≤ 2 * cv c 0x3600 s) && decide (cv c 0x3600 s ≤ fIn c g)
  then none else plainFail 0x0206

/-- Check 2: trigger channels (R205). -/
def admit2 (c : KV) : Option AdmitFail :=
  if (modeUnits c).all fun u =>
      let m := streamMask c (cv c 0x3C01 u)
      let t := cv c 0x3C15 u
      decide (m ≠ 0) && decide (t ≠ 0) && decide (t &&& m = t) &&
      (decide (cv c 0x3C02 u ≠ 1 ∧ cv c 0x3C02 u ≠ 2) || m.testBit (cv c 0x3C03 u))
  then none else plainFail 0x0207

/-- Check 3: ring ports (R280). -/
def admit3 (c : KV) : Option AdmitFail :=
  if (rankPorts c 1).length = 1 ∧ (rankPorts c 2).length = 1 then none else plainFail 0x0401

/-- Check 4: resampler capacity (R142). -/
def admit4 (c : KV) : Option AdmitFail := within 0x0407 0xFF (rsLoad c) 32768000

/-- CAP_REGION_SIZE in MiB (R195). -/
def capRegion (c : KV) : Nat := 256 - 16 - cv c 0x4B05 0

/-- Check 5: capture allocation (R195). -/
def admit5 (c : KV) : Option AdmitFail :=
  within 0x0409 0xFF ((List.range 8).map fun u => cv c 0x3C12 u).sum (capRegion c)

/-- Check 6, first stage, for one unit (R196, R197, R459). -/
def admit6unit (c : KV) (u : Nat) : Option AdmitFail :=
  let fd := cv c 0x3C13 u
  let fr := cv c 0x3600 (cv c 0x3C01 u)
  let k := cv c 0x3C0E u
  let wUs := max 10000 (4 * ((ringPorts c).map fun p => cv c 0x4903 p).foldl max 0)
  if fd = 0 then some ⟨0x0402, 0xFF, 1, 0⟩
  else if unitStreaming c u then
    if fd * 2 ^ k < fr then some ⟨0x0402, 0xFF, ceilDiv fr (2 ^ k), fd⟩
    else within 0x0402 0xFF (capBytes c u (ceilDiv (fr * wUs) (1000000 * 2 ^ k))) (allocBytes c u)
  else none

/-- Octets that a port's declared share holds in the transmit window: b·(TF − 15). -/
def shareWindow (c : KV) (p : Nat) : Nat := cv c 0x4902 p * (cTfUs c - 15) / 8

/-- Check 6, second stage, on one port (R459). -/
def admit6port (c : KV) (p : Nat) : Option AdmitFail :=
  let rest := wTotal c ((modeUnits c).filter fun u => !unitStreaming c u)
  if rest * 8 ≤ cv c 0x4902 p * (cTfUs c - 15) ∧ cv c 0x4902 p * (cTfUs c - 15) < wCfg c * 8
  then some ⟨0x0402, p, wCfg c, shareWindow c p⟩ else none

/-- Check 6 (R459). -/
def admit6 (c : KV) : Option AdmitFail :=
  firstFail ((modeUnits c).map (admit6unit c) ++ (ringPorts c).map (admit6port c))

/-- Check 7: port bandwidth. -/
def admit7 (c : KV) : Option AdmitFail :=
  firstFail ((ringPorts c).map fun p =>
    if wCfg c * 8 ≤ cv c 0x4902 p * (cTfUs c - 15) then none else some ⟨0x0403, p, wCfg c, shareWindow c p⟩)

/-- Check 8: the stream buffer covers the round trip. -/
def admit8 (c : KV) : Option AdmitFail := within 0x0404 0xFF (wCfg c * phiCfg c) 1572864

/-- Check 9: segments in flight. -/
def admit9 (c : KV) : Option AdmitFail := within 0x0405 0xFF (sigmaCfg c * phiCfg c) 192

/-- Check 10: delivery bounds against their ceilings. -/
def admit10 (c : KV) : Option AdmitFail :=
  firstFail ((definedStreams c).map fun s =>
    let m := cv c 0x4803 s
    if m = 0 ∨ streamBound c s ≤ m * usec then none else some ⟨0x040B, 0xFF, ceilDiv (streamBound c s) usec, m⟩)

/-- Sampling time t_s of a code in nanoseconds (Table 7.2). -/
def auxTs (ts : Nat) : Nat := 250 * 2 ^ ts

/-- TS field of sequence entry i. -/
def seqTs (c : KV) (i : Nat) : Nat := auxTs (bits (cv c 0x3801 i) 11 8)

/-- T_seq in nanoseconds (R163). -/
def tSeq (c : KV) : Nat :=
  let n := cv c 0x3800 0
  if n = 0 then 0
  else 20 + seqTs c 0 + ((List.range (n - 1)).map fun i => max 1000 (20 + seqTs c (i + 1))).sum + 980

/-- Check 11: the auxiliary sequence (R168). -/
def admit11 (c : KV) : Option AdmitFail :=
  if cv c 0x3802 0 = 2 then within 0x0408 0xFF (tSeq c) (cv c 0x3802 1 * (cTfUs c - 5) * 1000) else none

/-- Core clock in MHz at a level (Table 15.4). -/
def coreMhz (level : Nat) : Nat := if level ≤ 1 then 400 else if level = 2 then 600 else 800

/-- Budget B in cycles at a level (R33). -/
def budget (c : KV) (level : Nat) : Nat := cTfUs c * coreMhz level

/-- Blocks charged: every defined stream (R33). -/
def blockCost (c : KV) : Nat := 900 * (definedStreams c).length

/-- Load and limit of an ordinary tick with a actions (Table 1.5). -/
def ordinaryTick (c : KV) (level a : Nat) : Nat × Nat :=
  (blockCost c + 300 * a + 6000 + budget c level / 5, budget c level)

/-- Load and limit of a hoist tick without a level change. -/
def hoistTickLoad (c : KV) (level a : Nat) : Nat × Nat :=
  (blockCost c + 300 * a + 4000 + budget c level / 5, budget c level)

/-- Load and limit of a hoist tick that changes the level. -/
def levelTick (c : KV) (old new a : Nat) : Nat × Nat :=
  (blockCost c + 300 * a + 4000, (cTfUs c - 40) * min (coreMhz old) (coreMhz new))

/-- Load and limit of a tick that begins a frame shorter than TF. -/
def shortTick (c : KV) (level : Nat) : Nat × Nat := (blockCost c, budget c level / 2)

/-- Load and limit of a tick with a actions (Table 1.5): `now` is the level before it, `lv` the level after it. -/
def tickLoad (c : KV) (hoist : Bool) (now lv a : Nat) : Nat × Nat :=
  if hoist then (if lv = now then hoistTickLoad c lv a else levelTick c now lv a) else ordinaryTick c lv a

/-- The limits that every tick of a configuration meets at a level, with `now` the level in force and `a`
actions at the hoist tick (Table 1.5, R383). -/
def levelChecks (c : KV) (now level a : Nat) : List (Nat × Nat) :=
  [ordinaryTick c level 0, tickLoad c true now level a, hoistTickLoad c level 0, shortTick c level]

/-- The limits of the later ticks, with the numbers of actions scheduled for them (R34). -/
def laterChecks (c : KV) (level : Nat) (later : List Nat) : List (Nat × Nat) := later.map (ordinaryTick c level)

/-- A level keeps every limit. -/
def levelFits (c : KV) (now level a : Nat) (later : List Nat) : Bool :=
  (levelChecks c now level a ++ laterChecks c level later).all fun p => decide (p.1 ≤ p.2)

/-- The level that a commit takes: the configured one, or under AUTO the lowest that keeps every limit
(R383). -/
def chosenLevel (c : KV) (now a : Nat) (later : List Nat) : Option Nat :=
  if cv c 0x5804 0 = 0 then [1, 2, 3].find? fun l => levelFits c now l a later else some (cv c 0x5804 0)

/-- Check 12: the work budget (R33, R34, R383). -/
def admit12 (c : KV) (now a : Nat) (later : List Nat) : Option AdmitFail :=
  let l := (chosenLevel c now a later).getD 3
  firstFail (within 0x0406 0xFF a 32 :: (levelChecks c now l a ++ laterChecks c l later).map
    fun p => within 0x0406 0xFF p.1 p.2)

/-- Table 11.10 in order. -/
def admission (c : KV) (now a : Nat) (later : List Nat) : Option AdmitFail :=
  firstFail [admit1 c, admit2 c, admit3 c, admit4 c, admit5 c, admit6 c, admit7 c, admit8 c, admit9 c, admit10 c,
    admit11 c, admit12 c now a later]

/-- BUDGET_MARGIN: spare cycles of an ordinary tick under the committed configuration (R33). -/
def budgetMargin (c : KV) (level : Nat) : Nat :=
  let p := ordinaryTick c level 0
  p.2 - p.1

/-- Cross-entry rules of a resulting configuration (R172, R185, R226). -/
def crossOk (c : KV) : Bool :=
  ((List.range 4).all fun w => decide (signedOf 16 (cv c 0x3809 w) < signedOf 16 (cv c 0x380A w))) &&
  decide (cv c 0x4013 4 ≤ cv c 0x4014 0) &&
  ((List.range 8).all fun u =>
    let v := cv c 0x3C03 u
    match cv c 0x3C02 u with
    | 1 | 2 => decide (v ≤ 127)
    | 3 => decide (v ≤ 3)
    | 4 => decide (v ≤ 7)
    | 6 => decide (1 ≤ v)
    | _ => true)

end Sys2Proof.Machine
end

