-- ==== Sys2Proof/Machine/Schedule.lean ====
section
/-! DEFINITION. Operations that wait for a tick (R245 to R254, R461): their order at a tick (R251), what the
module foresees from them (R460), the conditions of each operation (Table 10.3), the budget of a tick (R34),
the tests of a hoist (R342, R343) and the completion records (R253). -/

namespace Sys2Proof.Machine

/-- Order of an operation at a tick: the step of R32, then R251. -/
def opRank : Op → Nat
  | .stepTime _ => 0
  | .hoist => 1
  | .stopStreams _ => 2
  | .startStreams _ => 3
  | .trg _ => 4
  | .xfade _ => 5
  | .owc _ => 6

/-- OP code of an operation (Table 10.3). -/
def opCode : Op → Nat
  | .startStreams _ => 1
  | .stopStreams _ => 2
  | .trg _ => 3
  | .hoist => 4
  | .owc _ => 5
  | .stepTime _ => 6
  | .xfade _ => 7

/-- Role that an operation needs (Table 10.3). -/
def opRole : Op → Role
  | .stepTime _ => .custodian
  | _ => .operator

/-- Entry a goes before entry b: earlier fire tick, then the order of R251. Equal entries keep their order of
acceptance. -/
def goesBefore (s : State) (a b : Sched) : Bool :=
  decide (ahead s a.fire < ahead s b.fire) || (decide (a.fire = b.fire) && decide (opRank a.op < opRank b.op))

/-- Inserts an entry behind all that do not come after it. -/
def insSched (s : State) (a : Sched) : List Sched → List Sched
  | [] => [a]
  | b :: l => if goesBefore s a b then a :: b :: l else b :: insSched s a l

/-- Entries in the order in which they run. -/
def sortSched (s : State) (l : List Sched) : List Sched := l.foldl (fun acc a => insSched s a acc) []

/-- What has run, in order, before an operation of this rank accepted now for tick F. -/
def priorTo (s : State) (F : TW) (rank : Nat) : List Sched :=
  sortSched s (s.act.sched.filter fun e =>
    decide (ahead s e.fire < ahead s F) || (decide (e.fire = F) && decide (opRank e.op ≤ rank)))

/-- Content of the pending hoist. -/
def hoistContent (s : State) : KV := match s.conf.hoist with | some h => h.content | none => []

/-- The configuration after the prior operations. -/
def cfgAfter (s : State) (prior : List Sched) : KV :=
  if prior.any (fun e => decide (e.op = .hoist)) then cfgApply s.conf.cfg (hoistContent s) else s.conf.cfg

/-- Stream st runs after the prior operations. -/
def runningAfter (s : State) (prior : List Sched) (st : Nat) : Bool :=
  prior.foldl (fun r e => match e.op with
    | .startStreams m => r || m.toNat.testBit st
    | .stopStreams m => r && !m.toNat.testBit st
    | _ => r) (streamAt s st).running

/-- Whether unit u is armed, and the configuration, after one more operation: a stop of its source stream at that moment
disarms it (Table 8.8). `new` is the configuration that a hoist makes. -/
def armedStep (new : KV) (u : Nat) (x : Bool × KV) (e : Sched) : Bool × KV :=
  match e.op with
  | .hoist => (x.1, new)
  | .trg a => (if a.toNat.testBit u then a.toNat.testBit 8 else x.1, x.2)
  | .stopStreams m => (x.1 && !m.toNat.testBit (cv x.2 0x3C01 u), x.2)
  | _ => x

/-- Unit u is armed after the prior operations. -/
def armedAfter (s : State) (prior : List Sched) (u : Nat) : Bool :=
  (prior.foldl (armedStep (cfgApply s.conf.cfg (hoistContent s)) u) ((unitAt s u).armed, s.conf.cfg)).1

/-- Some stream runs after the prior operations (the module is then in RUN). -/
def anyAfter (s : State) (prior : List Sched) : Bool := (List.range 16).any (runningAfter s prior)

/-- A start-up self-calibration that selects something bars operations for ticks up to its end (R78). -/
def calBars (s : State) (F : TW) : Bool :=
  decide (s.cal.state ≠ 0) && TW.atOrBefore F s.cal.endTick

/-- The module is in READY or RUN, or will be at F after the calibration that runs (R248 test 3). -/
def readyFor (s : State) (F : TW) : Bool :=
  match s.power.mode with
  | .ready | .run => true
  | .calibrate => !calBars s F
  | _ => false

/-- Every die that serves a channel of the mask has REF_READY set (R68). -/
def diesReady (s : State) (mask : Nat) : Bool := (maskGroups mask).all fun g => (dieAt s g).refReady

/-- Streams of a mask. -/
def streamsOf (m : BitVec 16) : List Nat := (List.range 16).filter m.toNat.testBit

/-- OWC_STATE of group g: 2 running, 1 scheduled, 0 idle (R55). A timed check counts as scheduled from its acceptance
(notes/assumptions/82.md). -/
def owcState (s : State) (g : Nat) : Nat :=
  if (groupAt s g).owc.state = 2 then 2
  else if s.act.sched.any (fun e => match e.op with | .owc a => a.toNat.testBit g | _ => false) then 1 else 0

/-- STREAM_STATE (R269). -/
def streamState (s : State) (st : Nat) : Nat :=
  let has (f : Op → Bool) := s.act.sched.any fun e => f e.op
  if (streamAt s st).running then
    if has (fun | .stopStreams m => m.toNat.testBit st | _ => false) then 4 else 3
  else if has (fun | .startStreams m => m.toNat.testBit st | _ => false) then 2
  else if streamDefined s.conf.cfg st then 1 else 0

/-- Octets of a frame: common header and payload. -/
def Frame.octetLen (f : Frame) : Nat := 24 + f.octets.length

/-- RESERVE_FILL. -/
def reserveFill (s : State) : Nat := (s.buf.res.map fun q => (q.map Frame.octetLen).sum).sum

/-- ASSEMBLY_FILL. -/
def assemblyFill (s : State) : Nat := (s.buf.asm.map fun q => (q.map Frame.octetLen).sum).sum

/-- Condition of a stream start at its tick (R10, R268, R312): 0 or the refusal code. -/
def startCond (s : State) (prior : List Sched) (F : TW) (m : BitVec 16) : Nat :=
  let c := cfgAfter s prior
  if s.store.slotState = 4 then 0x0604
  else if (streamsOf m).any (fun st => !streamDefined c st || runningAfter s prior st
      || !diesReady s (streamMask c st)) then 0x0301
  else if !readyFor s F || decide (s.time.quality = 0) || calBars s F then 0x0301
  else if cfgAt s 0x4B05 0 * 2 ^ 20 < 2 * reserveFill s then 0x0301
  else 0

/-- Condition of a stream stop at its tick (R268). -/
def stopCond (s : State) (prior : List Sched) (m : BitVec 16) : Nat :=
  if (streamsOf m).all (runningAfter s prior) then 0 else 0x0301

/-- Condition of a trigger arm or disarm at its tick (R189). -/
def trgCond (s : State) (prior : List Sched) (a : BitVec 16) : Nat :=
  let c := cfgAfter s prior
  if !a.toNat.testBit 8 then 0
  else if anyAfter s prior && ((List.range 8).filter a.toNat.testBit).all (fun u =>
      decide (cv c 0x3C00 u ≠ 0) && decide (cv c 0x3C02 u ≠ 0) && runningAfter s prior (cv c 0x3C01 u)
      && !armedAfter s prior u) then 0 else 0x0301

/-- Groups of an open-wire argument (R54). -/
def owcGroups (a : BitVec 32) : List Nat := (List.range 4).filter a.toNat.testBit

/-- Condition of an open-wire check (R54, R78). -/
def owcCond (s : State) (F : TW) (a : BitVec 32) : Nat :=
  if readyFor s F && !calBars s F && (owcGroups a).all (fun g =>
      decide (owcState s g = 0) && (dieAt s g).refReady) then 0 else 0x0301

/-- Condition of a time step (R29, R78, R232). -/
def stepCond (s : State) : Nat :=
  if s.time.quality ≠ 0 ∧ s.cal.state = 0 then 0 else 0x0301

/-- The content changes entry k. -/
def changes (s : State) (content : KV) (k : Nat) : Bool :=
  match kvGet content k with
  | some v => decide (v ≠ cfgGet s.conf.cfg k)
  | none => false

/-- The content restarts the chain of group g (R123). -/
def restarts (s : State) (content : KV) (g : Nat) : Bool :=
  changes s content (key 0x3400 g) || changes s content (key 0x3401 g) || changes s content (key 0x3402 g)

/-- Occupied interval of a fade in units (R132). -/
def fadeSpan (s : State) (g : Nat) (a : BitVec 32) : Int := (fadeLen a + 1) * 2 * cicR s.conf.cfg g * modPeriod

/-- Condition of a fade (R132): a fade of the group that has passed its start tick without an output yet counts as
scheduled, at that tick. -/
def fadeCond (s : State) (prior : List Sched) (F : TW) (a : BitVec 32) (others : List (Sched × BitVec 32)) : Nat :=
  let g := fadeGroup a
  let active := prior.foldl (fun b e => match e.op with
    | .xfade x => if fadeGroup x = g then fadeTarget x else b
    | _ => b) (match (groupAt s g).fade with | some f => f.target | none => (groupAt s g).active)
  let bank := (groupAt s g).bank (fadeTarget a)
  let meets (e : Sched × BitVec 32) : Bool :=
    let d := TW.diff F e.1.fire
    decide (d < fadeSpan s g a) && decide (-(fadeSpan s g e.2) < d)
  let begun := match (groupAt s g).fade with
    | some f => f.first.isNone && (let d := TW.diff F f.start
        decide (d < fadeSpan s g a) && decide (-((f.n + 1) * 2 * cicR s.conf.cfg g * modPeriod : Nat) < d))
    | none => false
  if !([Mode.ready, .run].contains s.power.mode) || fadeRunning s g || begun then 0x0301
  else if fadeTarget a = active then 0x0301
  else if !bank.sealed || decide (bank.len ≠ firL s.conf.cfg g) then 0x0301
  else if others.any meets then 0x0301
  else if s.conf.hoist.isSome && restarts s (hoistContent s) g then 0x0301
  else if calBars s F && s.cal.mask.testBit g then 0x0301
  else 0

/-- Operations scheduled for a tick, hoists apart. -/
def opsAt (s : State) (F : TW) : Nat :=
  s.act.sched.countP fun e => decide (e.fire = F) && decide (e.op ≠ .hoist)

/-- A hoist is scheduled for the tick. -/
def hoistAt (s : State) (F : TW) : Bool := s.act.sched.any fun e => decide (e.fire = F) && decide (e.op = .hoist)

/-- Operations at each tick after F that has some, as its hoist is judged (R34). -/
def laterOps (s : State) (F : TW) : List Nat :=
  (s.act.sched.filter fun e => decide (ahead s F < ahead s e.fire)).map fun e => opsAt s e.fire

/-- Level in force, or the one that a change under way leads to. -/
def levelNow (s : State) : Nat := s.clocks.perfTarget.getD s.clocks.perfNow

/-- The tick at F keeps R33 and R34 with `extra` further operations. -/
def tickFits (s : State) (F : TW) (extra : Nat) : Bool :=
  let a := opsAt s F + extra
  let prior := priorTo s F 1
  let c := cfgAfter s prior
  let lv := match prior.find? fun e => decide (e.op = .hoist) with
    | some h => (chosenLevel c (levelNow s) (if h.fire = F then a else opsAt s h.fire) (laterOps s h.fire)).getD (levelNow s)
    | none => levelNow s
  let load := tickLoad c (hoistAt s F) (levelNow s) lv a
  decide (a ≤ 32) && decide (load.1 ≤ load.2)

/-- Adds an operation written directly, for tick F (R461). -/
def schedDirect (op : Op) (r : Role) (F : TW) (s : State) : State :=
  { s with act.sched := s.act.sched ++ [⟨none, 0, 0, r, op, F, 0, 3, s.time.tw⟩] }

/-- A directly written operation with its condition judged: the tick is budgeted (R461), and the answer
carries the tick (R335). -/
def acceptDirect (op : Op) (r : Role) (cond : Nat) (F : TW) (s : State) : Ans :=
  if cond ≠ 0 then refuse cond s
  else if !tickFits s F 1 then refuse 0x0406 s
  else ⟨0, octetsOf 8 F.toNat, schedDirect op r F s⟩

/-- Octets of a completion record (Table 10.5). -/
def completionOctets (k : Completion) : List Nat :=
  octetsOf 2 k.handle ++ octetsOf 2 k.tag.toNat ++ [k.op, k.outcome * 16 + (if k.direct then 8 else 0)]
    ++ octetsOf 2 k.refusal ++ octetsOf 2 k.epoch.toNat ++ List.replicate 6 0
    ++ octetsOf 8 k.named.toNat ++ octetsOf 8 k.fired.toNat

/-- What is scheduled around the tick of a hoist, hoists apart: for earlier ticks, for it, and for later ones (R342,
R343). -/
structure Around where
  before : List Sched
  now    : List Sched
  later  : List Sched
deriving DecidableEq, Repr

/-- What is scheduled around a coming tick F. -/
def aroundTick (s : State) (F : TW) : Around :=
  let l := s.act.sched.filter fun e => decide (e.op ≠ .hoist)
  ⟨sortSched s (l.filter fun e => decide (ahead s e.fire < ahead s F)), sortSched s (l.filter fun e => decide (e.fire = F)),
   l.filter fun e => decide (ahead s F < ahead s e.fire)⟩

/-- What is scheduled around the present tick: what is due at it, whatever a step has made of its time word. -/
def aroundNow (s : State) : Around :=
  let l := s.act.sched.filter fun e => decide (e.op ≠ .hoist)
  ⟨[], sortSched s (l.filter fun e => decide (e.due ≠ 0)), l.filter fun e => decide (e.due = 0)⟩

/-- Operations that the tick itself was admitted for. -/
def Around.count (x : Around) : Nat := x.now.countP fun e => decide (e.due ≤ 1)

/-- Operations at each later tick. -/
def Around.laterCounts (x : Around) : List Nat := x.later.map fun e => x.later.countP fun d => decide (d.fire = e.fire)

/-- Streams of R460: those that run in the frame that the hoist tick begins, before its starts. -/
def runsAfterHoist (s : State) (x : Around) (st : Nat) : Bool :=
  let stopped := x.now.any fun e => match e.op with | .stopStreams m => m.toNat.testBit st | _ => false
  runningAfter s x.before st && !stopped

/-- Unit u is armed after all the operations of the hoist tick, the hoist's content c in force from it on (R205, R32). -/
def armedAfterHoist (s : State) (c : KV) (x : Around) (u : Nat) : Bool :=
  let b := x.before.foldl (armedStep c u) ((unitAt s u).armed, s.conf.cfg)
  (x.now.foldl (armedStep c u) (b.1, c)).1

/-- The step of the scheduled time steps that the n-th tick after the next applies, when its time word is w (R26, R27). -/
def steppedAt (s : State) (n : Nat) (w : TW) : TW :=
  if shortAt (tf s) w then w
  else (s.act.sched.findSome? fun e => match e.op with
    | .stepTime d => if (if e.slot.isNone then e.left = n + 1 else e.fire = w) then some (w + d) else none
    | _ => none).getD w

/-- Time word of the n-th tick after the next, with the steps scheduled up to it. -/
def courseTick (s : State) : Nat → TW
  | 0 => steppedAt s 0 s.time.nextTick
  | n + 1 => steppedAt s (n + 1) (frameEnd (tf s) (courseTick s n))

/-- Time word of the tick of a direct hoist accepted now, with the steps scheduled up to it (R342, R27). -/
def directCourse (s : State) : TW := if shortAt (tf s) (courseTick s 2) then courseTick s 3 else courseTick s 2

/-- Time word of the tick at which a hoist named for F commits: of F, or of a step at F or one that jumps over it (R342,
R250, R27). -/
def namedCourse (s : State) (F : TW) : TW :=
  let l := sortSched s (s.act.sched.filter fun e => decide (ahead s e.fire ≤ ahead s F))
  let w := (l.findSome? fun e => match e.op with
    | .stepTime d => if e.fire = F ∨ TW.atOrBefore F (e.fire + d) then some (e.fire + d) else none
    | _ => none).getD F
  if shortAt (tf s) w then frameEnd (tf s) w else w

/-- Groups from which unit u takes a source: its captured channels and, for kinds 1 and 2, its watched channel. -/
def unitGroups (c : KV) (u : Nat) : List Nat :=
  let w := if cv c 0x3C02 u = 1 ∨ cv c 0x3C02 u = 2 then 2 ^ cv c 0x3C03 u else 0
  maskGroups (cv c 0x3C15 u ||| w)

/-- Entries of unit u that a hoist may not change while it is armed (R205). -/
def unitEntryIdx : List Nat := (List.range 0x16).map fun i => 0x3C00 + i

/-- State rules of a hoist's content (R123, R156, R205, R267, R310, R360, R361): it may commit at its tick. -/
def stateRulesOk (s : State) (content : KV) (x : Around) : Bool :=
  let c := cfgApply s.conf.cfg content
  let runs := runsAfterHoist s x
  let any := (List.range 16).any runs
  let armed := armedAfterHoist s c x
  ((List.range 4).all fun g => !restarts s content g ||
    (((List.range 16).all fun st => !(runs st && (maskGroups (streamMask s.conf.cfg st)).contains g)) &&
     ((List.range 8).all fun u => !(armed u && (unitGroups s.conf.cfg u).contains g)) &&
     decide (fadeState s g = 0) &&
     ((groupAt s g).banks.any fun b => b.sealed && decide (b.len = firL c g)))) &&
  ((List.range 16).all fun st => !runs st || !(changes s content (key 0x3600 st) || changes s content (key 0x3601 st)
    || changes s content (key 0x3602 st) || changes s content (key 0x4800 st))) &&
  ((List.range 8).all fun u => !armed u || unitEntryIdx.all fun i => !changes s content (key i u)) &&
  (!changes s content (key 0x4B05 0) || (!any && decide (reserveFill s = 0))) &&
  (!(changes s content (key 0x1001 0) || changes s content (key 0x5401 0)) || !any)

/-- Fields of a hoist check (Table 14.5). -/
def baseGen (k : BitVec 128) : BitVec 32 := BitVec.ofNat 32 (k.toNat / 2 ^ 96)
/-- NEW_GEN of a hoist check. -/
def newGen (k : BitVec 128) : BitVec 32 := BitVec.ofNat 32 (k.toNat / 2 ^ 64)
/-- DIGEST of a hoist check. -/
def checkDigest (k : BitVec 128) : BitVec 64 := BitVec.ofNat 64 k.toNat

/-- The checks of Table 14.6 in order (R369): 0 or the refusal code. -/
def hoistCheck (s : State) (c : KV) (k : BitVec 128) : Nat :=
  let d := digestOf c
  if baseGen k ≠ 0xFFFFFFFF ∧ baseGen k ≠ s.conf.generation then 0x0603
  else if !serialLt s.conf.generation (newGen k) && !(decide (newGen k = s.conf.generation) && decide (d = s.conf.digest))
    then 0x0603
  else if checkDigest k ≠ d then 0x0601
  else if s.store.faulty.any id || !sectionFits c s then 0x0605
  else 0

/-- Tests 3 to 7 of R342 on a content whose tick has the time word w, in order: the failure with both sides of an
admission check. -/
def hoistTests (s : State) (content : KV) (k : BitVec 128) (w : TW) (x : Around) : Option AdmitFail × Nat :=
  let c := cfgApply s.conf.cfg content
  if changes s content (key 0x4001 0) && decide (w.toNat % 256000000 ≠ 0) then (none, 0x0504)
  else if !crossOk c then (none, 0x0201)
  else if !stateRulesOk s content x then (none, 0x0301)
  else match admission c (levelNow s) x.count x.laterCounts with
    | some f => (some f, f.code)
    | none => (none, hoistCheck s c k)

/-- Records the traces of a refused hoist: the admission entries (R291), and the count and pennant of a hoist
check refused (R369). -/
def hoistTrace (f : Option AdmitFail) (code : Nat) (s : State) : State :=
  let s := match f with
    | some x => { s with conf.admitCode := x.code, conf.admitPort := x.port, conf.admitNeed := x.need,
                         conf.admitHave := x.have_ }
    | none => s
  if code = 0x0601 ∨ code = 0x0603 then
    raisePn 10 { s with conf.checkRefusals := satInc s.conf.checkRefusals }
  else s

/-- Accepts a hoist: the shadow becomes its content (R341). -/
def hoistTake (k : BitVec 128) (r : Role) (s : State) : State :=
  { s with conf.hoist := some ⟨s.conf.shadow, k, r⟩, conf.shadow := [] }

end Sys2Proof.Machine
end

