-- ==== Sys2Proof/Machine/Blocks.lean ====
section
/-! DEFINITION. Sequenced frames as octets and their class queues: the common header (R263), sample blocks, parts
and segments (R270 to R272), exception lists (R274), forming a frame (R296, R308), completion records and
pennant notices (R253, R407). -/

namespace Sys2Proof.Machine

/-- The common header (Table 11.1) of a frame sent now. -/
def commonHeader (s : State) (typ dest hops ssn len : Nat) : List Nat :=
  [0x10, typ % 256] ++ octetsOf 5 (cfgAt s 0x1001 0 * 2 ^ 20 + dest) ++ [hops % 256] ++ octetsOf 4 ssn
    ++ octetsOf 4 (len * 2 ^ 18) ++ octetsOf 8 s.conf.digest.toNat

/-- Writes a 32-bit word of a list of octets. -/
def setWord (octets : List Nat) (w v : Nat) : List Nat := octets.take (4 * w) ++ octetsOf 4 v ++ octets.drop (4 * w + 4)

/-- Octets of SRAM for the assembly area (R295). -/
def assemblySize : Nat := 262144

/-- The framing words of a frame are copied to the shadow area (R307). -/
def Frame.copied (f : Frame) : Frame := { f with shadow := f.octets, shadowHead := f.header }

/-- Places a formed frame in class queue q (0, 1, 2 for class 4, 5, 6), with the copy of its framing words (R296, R307,
R308). -/
def placeFrame (q : Nat) (f : Frame) (s : State) : State :=
  if (s.buf.res.getD q []).isEmpty ∧ assemblyFill s + f.octetLen ≤ assemblySize then
    { s with buf.asm := updAt (· ++ [f.copied]) q s.buf.asm }
  else
    let s := { s with buf.res := updAt (· ++ [{ f.copied with moved := true }]) q s.buf.res }
    { s with buf.reservePeak := max s.buf.reservePeak (reserveFill s) }

/-- Place of a frame's kind among those formed in one engine cycle (R296). -/
def kindOrder (f : Frame) : Nat :=
  match f.typ with
  | 0x01 => 1
  | 0x02 => 2
  | 0x04 => 3
  | 0x05 => 4
  | 0x03 => 5
  | _ => 6

/-- Forms a frame in class queue q: it enters behind the queue's frames, but before those of a later kind that the same
engine cycle has formed (R296). -/
def formFrame (q : Nat) (f : Frame) (s : State) : State :=
  let f := { f with formed := s.time.cyc }
  let asm := s.buf.asm.getD q []
  let res := s.buf.res.getD q []
  let late := ((asm ++ res).reverse.takeWhile fun x => decide (x.formed = f.formed) && decide (kindOrder f < kindOrder x)).reverse
  if late.isEmpty then placeFrame q f s
  else
    let n := asm.length + res.length - late.length
    forList (f :: late) (placeFrame q)
      { s with buf := { s.buf with asm := s.buf.asm.set q (asm.take n), res := s.buf.res.set q (res.take (n - asm.length)) } }

/-- A frame of class 5 that holds no sample words. -/
def plainFrame (typ : Nat) (octets : List Nat) : Frame :=
  ⟨typ, 5, octets, 0, 0, [], 0, 0, none, none, [], [], [], 0, [], false, [], [], 0⟩

/-- Adds a completion record to the log (R253). -/
def logCompletion (k : Completion) (s : State) : State :=
  { s with act.log := (k :: s.act.log).take 256, act.logCount := wrapInc s.act.logCount }

/-- Logs a completion record whose frame is formed later in the engine cycle (R296). -/
def oweCompletion (k : Completion) (s : State) : State :=
  let s := logCompletion k s
  { s with act.owed := s.act.owed ++ [k] }

/-- Forms the completion frames that are owed, in the order of their records (R253, R296). -/
def sendCompletions (s : State) : State :=
  forList s.act.owed (fun k => formFrame 1 (plainFrame 0x05 (completionOctets k))) { s with act.owed := [] }

/-- A completion record written outside a tick: logged and sent. -/
def completeNow (k : Completion) (s : State) : State :=
  formFrame 1 (plainFrame 0x05 (completionOctets k)) (logCompletion k s)

/-- Forms the continuation segments of the engine cycle (R296). -/
def sendLate (s : State) : State := forList s.buf.late (formFrame 2) { s with buf.late := [] }

/-- The epoch at the tick that began the frame in progress, or that begins one now. -/
def frameEpoch (s : State) : BitVec 16 := if s.time.frameTw = s.frame.tw then s.frame.epoch else s.time.epoch

/-- The completion record of a scheduled operation that is cancelled: its tick is the one that began the frame in which it is
(R253). -/
def cancelRecord (s : State) (e : Sched) (outcome : Nat) : Completion where
  handle := e.handle
  op := opCode e.op
  direct := e.slot.isNone
  outcome := outcome
  refusal := 0
  named := e.fire
  fired := s.time.frameTw
  tag := BitVec.ofNat 16 (e.desc.toNat / 2 ^ 224)
  epoch := frameEpoch s

/-- The completion record of a scheduled operation. -/
def recordOf (s : State) (e : Sched) (outcome refusal : Nat) (fired : TW) : Completion where
  handle := e.handle
  op := opCode e.op
  direct := e.slot.isNone
  outcome := outcome
  refusal := refusal
  named := e.fire
  fired := fired
  tag := BitVec.ofNat 16 (e.desc.toNat / 2 ^ 224)
  epoch := s.time.epoch

/-- A pennant notice (Table 16.5) of pennant nn. -/
def noticeOctets (s : State) (nn : Nat) (p : Pennant) : List Nat :=
  [nn, (if p.raised then 128 else 0) + (if p.level then 64 else 0)] ++ octetsOf 2 p.count
    ++ octetsOf 2 s.time.epoch.toNat ++ [0, 0] ++ octetsOf 4 (ensign s) ++ [0, 0, 0, 0]
    ++ octetsOf 8 (bunting s) ++ octetsOf 8 p.first.toNat ++ octetsOf 8 p.last.toNat

/-- Runs of equal non-empty sets in a list of sets by output: (first output, length, set). -/
def flagRuns : Nat → Option (Nat × Nat × Nat) → List Nat → List (Nat × Nat × Nat)
  | _, cur, [] => cur.toList
  | j, cur, f :: l =>
    match cur with
    | some (a, n, g) =>
      if f = g ∧ n < 65536 then flagRuns (j + 1) (some (a, n + 1, g)) l
      else (a, n, g) :: flagRuns (j + 1) (if f = 0 then none else some (j, 1, f)) l
    | none => flagRuns (j + 1) (if f = 0 then none else some (j, 1, f)) l

/-- The 64-bit number of an exception entry (Table 11.5). -/
def excEntry (sample chan run flags : Nat) : Nat := sample * 2 ^ 32 + chan * 2 ^ 24 + run * 2 ^ 8 + flags

/-- The exception entries of a part (R274): flags by output, each a list by channel of the set. -/
def exceptions (chans : List Nat) (flags : List (List Nat)) : List Nat :=
  let all := flags.map fun f => f.foldl (· &&& ·) 127
  let keys : List (Nat × List Nat) := (0xFF, all) :: chans.mapIdx fun i c =>
    (c, (flags.zip all).map fun p => let f := p.1.getD i 0; f ^^^ (f &&& p.2))
  let runs := keys.flatMap fun k => (flagRuns 0 none k.2).map fun r => (r.1, excEntry r.1 k.1 (r.2.1 - 1) r.2.2)
  (List.range flags.length).flatMap fun j => (runs.filter fun r => decide (r.1 = j)).map (·.2)

/-- Splits a list into pieces of at most n elements, at most `fuel` of them. -/
def chunks {α : Type} (n : Nat) : Nat → List α → List (List α)
  | 0, _ => []
  | _, [] => []
  | fuel + 1, l => l.take n :: chunks n fuel (l.drop n)

/-- Exception entries of one continuation segment: as many as its frame holds within the declared share of either ring
port (R274, R313; notes/assumptions/79.md). -/
def contEntries (c : KV) : Nat :=
  let share := ((ringPorts c).map fun p => cv c 0x4902 p * cTfUs c / 8).foldl min 9038
  max 1 (min 1112 ((share - 138) / 8))

/-- What the segments of one part hold: outputs and exception entries of each (R272), then the entries left
for continuation segments (R274). -/
structure PartPlan where
  segs : List (List OutRec × List Nat)
  conts : List (List Nat)
  total : Nat
  excess : Bool
deriving DecidableEq, Repr

/-- Plans a part with outputs oldest first, under allowance E, with at most `cap` entries in a continuation segment. -/
def planPart (cap : Nat) (chans : List Nat) (e : Nat) (outs : List OutRec) : PartPlan :=
  let n := chans.length
  let exc := exceptions chans (outs.map (·.flags))
  let own := exc.take e
  let rest := exc.drop e
  let oc := if outs.isEmpty then [[]] else chunks (segCap n) outs.length outs
  let lastOuts := oc.getLastD []
  let room := (8900 - 4 * n * lastOuts.length) / 8
  let segs := (oc.dropLast.map fun o => (o, ([] : List Nat))) ++ [(lastOuts, own.take room)]
    ++ (chunks 1112 own.length (own.drop room)).map fun x => ([], x)
  ⟨segs, chunks cap rest.length rest, own.length, !rest.isEmpty⟩

/-- The block header (Table 11.3). -/
def blockHeader (s : State) (c : KV) (ens st part : Nat) (first final interim : Bool) (p : Part) (plan : PartPlan) : List Nat :=
  let outs := p.outs.reverse
  let pre := match outs.head? with | some o => decide (o.epoch ≠ s.frame.epoch) | none => false
  let b (x : Bool) (k : Nat) : Nat := if x then 2 ^ k else 0
  octetsOf 2 (2 ^ 12 + st * 2 ^ 8 + part * 2 ^ 6 + b pre 5 + b first 4 + b final 3 + b interim 2 + b plan.excess 1)
    ++ [maskCount (streamMask c st), cv c 0x3602 st * 8] ++ octetsOf 2 s.frame.epoch.toNat
    ++ octetsOf 8 s.frame.tw.toNat ++ octetsOf 4 s.frame.number ++ octetsOf 4 s.frame.generation.toNat
    ++ octetsOf 8 s.frame.digest.toNat ++ octetsOf 4 ens ++ octetsOf 4 (cv c 0x3600 st)
    ++ octetsOf 6 (match outs.head? with | some o => o.n | none => 0) ++ octetsOf 2 outs.length ++ octetsOf 2 plan.total

/-- The segment descriptor (Table 11.4). -/
def segDescriptor (partEnd blockEnd : Bool) (segOut exc firstOut number : Nat) : List Nat :=
  octetsOf 2 ((if partEnd then 2 ^ 15 else 0) + (if blockEnd then 2 ^ 14 else 0) + segOut)
    ++ octetsOf 2 exc ++ octetsOf 2 firstOut ++ octetsOf 2 number

/-- Local time by which the earliest output of a part is to reach the uplink (R287). -/
def partDeadline (s : State) (c : KV) (st : Nat) (p : Part) : Option (Nat × Nat) :=
  p.outs.getLast?.map fun o =>
    let inst := BitVec.ofInt 64 ((o.n * 256000000000 / cv c 0x3600 st : Nat) + (s.shift - o.shift))
    (st, ptAt s inst + streamBound c st)

/-- The plan of a part of a stream. -/
def Part.plan (c : KV) (st : Nat) (p : Part) : PartPlan :=
  planPart (contEntries c) (maskChans (streamMask c st)) (cv c 0x4802 st) p.outs.reverse

/-- What a part carries, as its segments are formed. -/
def partSent (s : State) (c : KV) (ens st part : Nat) (first final interim : Bool) (p : Part) : PartSent :=
  let plan := p.plan c st
  ⟨blockHeader s c ens st part first final interim p plan ++ octetsOf 16 (streamMask c st), plan.segs.length, plan.conts⟩

/-- The sample segments of one part. -/
def partSegments (s : State) (c : KV) (ens st part seg0 : Nat) (first final interim last : Bool) (p : Part) : List Frame :=
  let chans := maskChans (streamMask c st)
  let plan := p.plan c st
  let hdr := (partSent s c ens st part first final interim p).header
  plan.segs.mapIdx fun i g =>
    let isLast := decide (i + 1 = plan.segs.length)
    let firstOut := ((plan.segs.take i).map fun x => x.1.length).sum
    let partEnd := isLast && !plan.excess
    { typ := 0x01, cls := 4
      octets := hdr ++ segDescriptor partEnd (partEnd && last) g.1.length g.2.length
          (if g.1.isEmpty then 0 else firstOut) (seg0 + i)
        ++ g.1.flatMap (fun o => o.vals.flatMap fun v => octetsOf 4 (wireInt 32 v)) ++ g.2.flatMap (octetsOf 8)
      sampleAt := 72, samples := g.1.length * chans.length, chans := chans, firstOut := firstOut
      blockTw := s.frame.tw, deadline := if isLast then partDeadline s c st p else none, frees := none, poison := [],
      marks := [], outs := g.1, stream := st, header := [], moved := false, shadow := [], shadowHead := [], formed := 0 }

/-- Number of sample segments of a part. -/
def partSegCount (c : KV) (st : Nat) (p : Part) : Nat :=
  match p.sent with | some x => x.segs | none => (p.plan c st).segs.length

/-- Some of a part's exception entries follow in continuation segments. -/
def partOver (c : KV) (st : Nat) (p : Part) : Bool :=
  match p.sent with | some x => !x.conts.isEmpty | none => (p.plan c st).excess

/-- The continuation segments of a block's parts (R274), oldest part first: each with the block header of its part, which an
interim close has fixed for one that it sent. -/
def continuations (s : State) (c : KV) (ens st seg0 : Nat) (first final : Bool) (parts : List Part) : List Frame :=
  let chans := maskChans (streamMask c st)
  let all := (parts.mapIdx fun i p =>
    let x := p.sent.getD (partSent s c ens st i first final false p)
    x.conts.mapIdx fun j l => (x.header, l, decide (j + 1 = x.conts.length))).flatten
  all.mapIdx fun j a =>
    let (header, x, partEnd) := a
    { typ := 0x06, cls := 6
      octets := header ++ segDescriptor partEnd (decide (j + 1 = all.length)) 0 x.length 0 (seg0 + j) ++ x.flatMap (octetsOf 8)
      sampleAt := 0, samples := 0, chans := chans, firstOut := 0
      blockTw := s.frame.tw, deadline := none, frees := none, poison := [], marks := [], outs := [], stream := st,
      header := [], moved := false, shadow := [], shadowHead := [], formed := 0 }

/-- Parts of a block to be sent: without an output, the one empty part (R270). -/
def blockParts (t : Stream) : List Part := if t.parts.isEmpty then [⟨none, []⟩] else t.parts.reverse

/-- Frames of class 4 and class 6 that the close of the open block of stream st forms. A part closed at an
interim close has been sent already (R271). -/
def blockFrames (s : State) (c : KV) (ens st : Nat) (final : Bool) : List Frame × List Frame :=
  let t := streamAt s st
  let ps := blockParts t
  let ovr := ps.any (partOver c st)
  let segAt (i : Nat) : Nat := ((ps.take i).map (partSegCount c st)).sum
  let segs := (ps.mapIdx fun i p =>
    if p.sent.isSome then [] else partSegments s c ens st i (segAt i) t.firstDue final false (decide (i + 1 = ps.length) && !ovr) p).flatten
  (segs, continuations s c ens st (segAt ps.length) t.firstDue final ps)

/-- Clears the open block of a stream after its close, and counts it (R270, R274). -/
def blockCleared (c : KV) (st : Nat) (t : Stream) : Stream :=
  let ovr := (blockParts t).countP (partOver c st)
  { t with parts := [], firstDue := false, blocks := wrapInc t.blocks, excOver := satAdd t.excOver ovr }

/-- Closes the blocks of the given streams (number and FINAL) under the configuration and ensign word of the
frame that ends: segments by ascending stream; the continuations, by ascending stream, are formed last (R296). -/
def closeBlocks (c : KV) (ens : Nat) (l : List (Nat × Bool)) (s : State) : State :=
  let fr := l.map fun p => blockFrames s c ens p.1 p.2
  let s := forList (fr.flatMap (·.1)) (formFrame 0) s
  let s := { s with buf.late := s.buf.late ++ fr.flatMap (·.2) }
  forList l (fun p => onStream p.1 (blockCleared c p.1)) s

/-- INTERIM_CLOSE (R271): the part in progress of a frame longer than TF is closed and sent. -/
def interimClose (st : Nat) (s : State) : State :=
  let t := streamAt s st
  if t.running ∧ tf s < frameLen s.time.frameTw s.time.nextTick then
    match t.parts with
    | p :: older =>
      if p.sent.isSome ∨ p.outs.isEmpty then s
      else
        let c := s.conf.cfg
        let seg0 := (older.map (partSegCount c st)).sum
        let fr := partSegments s c (ensign s) st older.length seg0 t.firstDue false true false p
        let p' := { p with sent := some (partSent s c (ensign s) st older.length t.firstDue false true p) }
        forList fr (formFrame 0) (onStream st (fun t => { t with parts := p' :: older }) s)
    | [] => s
  else s

/-- Appends one output to the open block (R270, R271): it goes on the part in progress or begins a new one. -/
def appendOutput (k : Nat) (o : OutRec) (t : Stream) : Stream :=
  let t := { t with gridIndex := o.n }
  match t.parts with
  | p :: older =>
    match p.outs with
    | q :: _ =>
      if p.sent.isNone && decide (q.ident = o.ident) && decide (o.n = q.n + 2 ^ k) then
        { t with parts := { p with outs := o :: p.outs } :: older }
      else { t with parts := ⟨none, [o]⟩ :: t.parts }
    | [] => { t with parts := ⟨none, [o]⟩ :: t.parts }
  | [] => { t with parts := [⟨none, [o]⟩] }

def execInterimClose (st : Fin 16) (s : State) : Result :=
  if live s then done (interimClose st.val s) else .next s

end Sys2Proof.Machine
end

