-- ==== Sys2Proof/Machine/Data.lean ====
section
/-! DEFINITION. The arithmetic of the data path: slice output and dither (R61, R63), switch factor and trim (R70,
R91), CIC (R114, R115), correction layers (R72, R74), compensation FIR and fades (R118, R133), the fractional
resampler (R143 to R147), averaging (R154), clamping (R48) and the propagation of flags (R49). -/

namespace Sys2Proof.Machine

/-- One advance of a dither register: feedback polynomial x^31 + x^28 + 1 (R63). -/
def lfsrStep (v : Nat) : Nat :=
  (v * 2 + (if v.testBit 30 == v.testBit 27 then 0 else 1)) % 2 ^ 31

/-- Image of v under a linear map given by the images of the 31 unit vectors. -/
def linApply (cols : List Nat) (v : Nat) : Nat :=
  (cols.mapIdx fun i c => if v.testBit i then c else 0).foldl (· ^^^ ·) 0

/-- The register after `n` advances, by repeated squaring of the advance over `fuel` bits of n. -/
def lfsrJump : Nat → List Nat → Nat → Nat → Nat
  | 0, _, _, v => v
  | fuel + 1, cols, n, v =>
    if n = 0 then v
    else lfsrJump fuel (cols.map (linApply cols)) (n / 2) (if n % 2 = 1 then linApply cols v else v)

/-- The advance as a linear map. -/
def lfsrCols : List Nat := (List.range 31).map fun i => lfsrStep (2 ^ i)

/-- Dither value D_n of slice k of die g at edge n (R63), with the newest bit lowest (notes/assumptions/48.md). -/
def dither (g k n : Nat) : Int :=
  signedOf 11 (lfsrJump 64 lfsrCols (11 * (n + 1)) (0x40000000 + 0x100 * g + k))

/-- Slice output y from its decision bits (R61); weights are in units of 2^−16 slice step (R64). -/
def sliceOutput (weights : List Nat) (b : BitVec 18) (d : Int) : Int :=
  let sum : Int := ((List.range 18).map fun i =>
    if b.toNat.testBit i then (weights.getD i 0 : Int) else -(weights.getD i 0 : Int)).sum
  roundDiv (sum - 2 * d * (weights.getD 18 0 : Int)) (2 ^ 10)

/-- Multiplication by K = 1 + k·2^−30 with the rounding of R61. -/
def scaleK (k y : Int) : Int := roundDiv (y * (2 ^ 30 + k)) (2 ^ 30)

/-- Trimmed output y″ (R91). -/
def trimmed (a b y : Int) : Int := roundDiv ((2 ^ 9 * y - a) * (2 ^ 30 + b)) (2 ^ 30)

/-- The value in effect at edge e from a log with the newest entry first. -/
def logAt {α : Type} (d : α) (l : List (Nat × α)) (e : Nat) : α :=
  match l.find? (fun p => decide (p.1 ≤ e)) with
  | some p => p.2
  | none => match l.getLast? with | some p => p.2 | none => d

/-- Puts a change from edge e on into a log, after the value before it when the log is empty. -/
def logPush {α : Type} (old new : α) (e : Nat) (l : List (Nat × α)) : List (Nat × α) :=
  ((e, new) :: (if l.isEmpty then [(0, old)] else l)).take 32

/-- The working slice of position p. -/
def homeSlice (d : Die) (p : Nat) : Option Nat :=
  d.slices.findIdx? fun k => decide (k.role = .working) && decide (k.home = p)

/-- The visit has handed its channel to the spare. -/
def Visit.handed (v : Visit) : Bool := decide (2 ≤ v.phase) && !v.swapped

/-- The slice that serves position p of a die: its working slice, or the spare to which a visit has handed it (R91). -/
def servingSlice (d : Die) (p : Nat) : Option Nat :=
  match d.visit with
  | some v => if v.handed ∧ v.chan = p then some v.spare else homeSlice d p
  | none => homeSlice d p

/-- What serves channel c now; an orphaned channel has no slice. -/
def servingNow (s : State) (c : Nat) : Serving :=
  let d := dieAt s (c / 32)
  match servingSlice d (c % 32) with
  | some k => let x := d.slice k; ⟨k, x.weights, x.trimA, x.trimB⟩
  | none => ⟨34, [], 0, 0⟩

/-- Notes from modulator edge e on what has come to serve each channel since the state `was` (R91). -/
def logServe (e : Nat) (was s : State) : State :=
  onChans (fun c ch =>
    if servingNow was c = servingNow s c then ch
    else { ch with serveLog := logPush (servingNow was c) (servingNow s c) e ch.serveLog }) s

/-- Switch factor k on slice outputs now: 0 on the primary reference (R70). -/
def switchNow (s : State) : Int := if s.ref.inUse = 1 then s.ref.k else 0

/-- Notes from modulator edge e on the switch factor that holds since the state `was`. -/
def logSwitch (e : Nat) (was s : State) : State :=
  if switchNow was = switchNow s then s
  else { s with ref := { s.ref with kLog := logPush (switchNow was) (switchNow s) e s.ref.kLog } }

/-- Output y″ of the slice that serves channel c at edge n, from its decision bits (R61, R70, R91). -/
def sampleOf (s : State) (c n : Nat) (b : BitVec 18) : Int :=
  let v := logAt (servingNow s c) (chanAt s c).serveLog n
  let y := sliceOutput v.weights b (dither (c / 32) v.slice n)
  trimmed v.trimA v.trimB (scaleK (logAt (switchNow s) s.ref.kLog n) y)

/-- The first edge at or after e at which the slices of a die convert (R68); none while they do not. -/
def nextConv (log : List (Nat × Bool)) (e : Nat) : Option Nat :=
  if logAt true log e then some e else ((log.filter fun p => p.2 && decide (e < p.1)).getLast?).map (·.1)

/-- Every working slice of a die serves its channel, and its spares stand by (Table 4.6). -/
def Die.serving (d : Die) : Die :=
  { d with slices := d.slices.map fun k =>
      if k.role = .working then { k with activity := 2 } else { k with activity := 0, onChan := 0 } }

/-- The slices of die g begin or cease to convert at the first modulator edge at or after now (R68, R79). -/
def setConv (on : Bool) (g : Nat) (s : State) : State :=
  let e := edgeNow s
  onDie g (fun d => { d with convLog := logPush (!on) on e d.convLog }) s

/-- Index of channel c's per-channel parameter p (R12). -/
def chanKey (p c : Nat) : Nat := key (0x2000 + 0x100 * p + 0x10 * (c / 32)) (c % 32)

/-- Gain code of channel c under the committed configuration. -/
def gainNow (s : State) (c : Nat) : Nat := cfgGet s.conf.cfg (chanKey 1 c)

/-- User scale and offset of channel c under a configuration (R74). -/
def userOf (k : KV) (c : Nat) : Int × Int :=
  (signedOf 32 (cfgGet k (key (0x6000 + 0x10 * (c / 32)) (c % 32))),
   signedOf 32 (cfgGet k (key (0x6100 + 0x10 * (c / 32)) (c % 32))))

/-- Modulus of the CIC registers (R114). -/
def cicMod : Int := 2 ^ 96

/-- Integrators fed with y. -/
def integrate : Int → List Nat → List Nat
  | _, [] => []
  | y, i :: l => let v := ((i : Int) + y) % cicMod; v.toNat :: integrate v l

/-- Combs fed with the last integrator: new registers and output. -/
def combine : Nat → List Nat → List Nat × Nat
  | v, [] => ([], v)
  | v, r :: l => let (rs, o) := combine (((v : Int) - r) % cicMod).toNat l; (v :: rs, o)

/-- The signed value of a 96-bit register. -/
def signed96 (v : Nat) : Int := signedOf 96 v

/-- Normalisation to unit gain (R115): a shift by B − 8 bits with rounding. -/
def cicNorm (n logR : Nat) (c : Int) : Int := roundDiv c (2 ^ (n * logR - 8))

/-- The self-calibration layer (R72); u and the result are in units of 2^−8 output LSB. -/
def calLayer (p : Int × Int) (u : Int) : Int := roundDiv ((u - p.1 * 256) * (2 ^ 30 + p.2)) (2 ^ 30)

/-- The user layer (R74). -/
def userLayer (p : Int × Int) (v : Int) : Int := roundDiv (v * p.1) (2 ^ 24) + p.2 * 256

/-- The self-calibration layer at edge e of channel c, with the pair of the gain in effect there (R72). -/
def calibrated (s : State) (c e : Nat) (u : Int) : Int :=
  let ch := chanAt s c
  let gain := logAt (gainNow s c) ch.gainLog e
  let pairs := logAt ch.pairs ch.pairLog e
  calLayer (pairs.getD gain (0, 0)) u

/-- The user layer at edge e of channel c (R74). -/
def corrected (s : State) (c e : Nat) (v : Int) : Int :=
  userLayer (logAt (userOf s.conf.cfg c) (chanAt s c).userLog e) v

/-- Sum of c_k·x over the L taps of a symmetric FIR (R118); x newest first, missing inputs are 0. -/
def tapSum (coefs : List Int) (l : Nat) (x : List Int) : Int :=
  ((List.range l).map fun k => coefs.getD (if k < l / 2 then k else l - 1 - k) 0 * x.getD k 0).sum

/-- FIR output j under a log of banks and fades (R118, R133). -/
def firOutput (segs : List FirSeg) (l j : Nat) (x : List Int) : Int :=
  match segs.find? (fun g => decide (g.start ≤ j)) with
  | some g =>
    let new := tapSum g.new l x
    if g.n = 0 ∨ g.start + g.n ≤ j then roundDiv new (2 ^ 23)
    else
      let old := tapSum g.old l x
      roundDiv (old * (2 * g.n) + (2 * (j - g.start : Nat) + 1) * (new - old)) (2 * g.n * 2 ^ 23)
  | none => 0

/-- The last l CIC outputs ending at index i, newest first; an output that is not held is 0. -/
def lastInputs (x : List (Nat × Int)) (i l : Nat) : List Int :=
  (List.range l).map fun k => match x.find? (fun p => decide (p.1 + k = i)) with | some p => p.2 | none => 0

/-- A span (first, last) meets the range a to b. -/
def meetsSpan (a b : Int) (p : Nat × Nat) : Bool := decide ((p.1 : Int) ≤ b) && decide (a ≤ (p.2 : Int))

/-- A measure window takes one CIC output. -/
def WinSum.add (v : Int) (rail ovr : Bool) (w : WinSum) : WinSum := ⟨w.sum + v, w.n + 1, w.railed && rail, w.anyOvr || ovr⟩

/-- The support a to b lies wholly in the window that phase k of a check opens and phase k + 1 closes. -/
def inWindow (marks : List Nat) (k a b : Nat) : Bool :=
  match marks.drop k with
  | o :: rest => decide (o ≤ a) && (match rest.head? with | some c => decide (b < c) | none => true)
  | [] => false

/-- An open-wire check takes the CIC output v of an included channel whose support runs from edge a to edge b (R57). -/
def owcGather (marks : List Nat) (a b : Nat) (v : Int) (ch : Chan) : Chan :=
  let hit (p : Nat × Nat × OvrSide) : Bool := meetsSpan a b (p.1, p.2.1)
  let ovr := ch.ovrRuns.any hit
  let rail (x : OvrSide) : Bool := ch.ovrRuns.any fun p => hit p && decide (p.2.2 = x)
  if inWindow marks 1 a b then { ch with owcSrc := ch.owcSrc.add v (rail .above) ovr }
  else if inWindow marks 3 a b then { ch with owcSnk := ch.owcSnk.add v (rail .below) ovr }
  else ch

/-- Registers of the filters before edge e, the next one after p.e: a chain restart between them clears all (R124). -/
def pathClear (n restart e : Nat) (p : Path) : Path :=
  let reset := decide (restart ≠ 0) && decide (p.e ≤ restart) && decide (restart ≤ e)
  { p with integ := if reset ∨ p.integ.length ≠ n then List.replicate n 0 else p.integ
           comb := if reset ∨ p.comb.length ≠ n then List.replicate n 0 else p.comb
           x := if reset then [] else p.x
           w := if reset then [] else p.w }

/-- One conversion of channel c at edge e (R114 to R118). -/
def convert (s : State) (c e : Nat) (b : BitVec 18) (ch : Chan) : Chan :=
  let g := c / 32
  let n := cicN s.conf.cfg g
  let r := cicR s.conf.cfg g
  let l := firL s.conf.cfg g
  let p := pathClear n (groupAt s g).restart e ch.path
  let integ := integrate (sampleOf s c e b) p.integ
  if e % r = 0 then
    let i := e / r
    let (comb, raw) := combine (integ.getLastD 0) p.comb
    let v := calibrated s c e (cicNorm n (cv s.conf.cfg 0x3401 g) (signed96 raw))
    let x := ((i, corrected s c e v) :: p.x).take 80
    let w := if i % 2 = 0 then
        ((i / 2, firOutput (groupAt s g).firLog l (i / 2) (lastInputs x i l)) :: p.w).take 256
      else p.w
    let ch := { ch with path := ⟨e + 1, integ, comb, x, w⟩ }
    if ch.owcIn ∧ n * (r - 1) ≤ e then owcGather (groupAt s g).owc.marks (e - n * (r - 1)) e v ch else ch
  else { ch with path := ⟨e + 1, integ, p.comb, p.x, p.w⟩ }

/-- The next conversion of channel c: its slice's decision bits at the next edge at which the die converts. -/
def chanStep (s : State) (c : Nat) (ch : Chan) (b : BitVec 18) : Chan :=
  match nextConv (dieAt s (c / 32)).convLog ch.path.e with
  | some e => convert s c e b ch
  | none => ch

/-- Applies the conversions of one channel to its path. -/
def feedChan (f : Feed) (s : State) : State :=
  let ch := f.samples.foldl (chanStep s f.ch.val) (chanAt s f.ch.val)
  onChan f.ch.val (fun _ => ch) s

/-- The resolution 2^−32·P / 62,500 edges at which the map is evaluated (R144), in units of 2^−64 / rate edge. -/
def mapResolution : Nat := 4096000 * 2 ^ 32

/-- Position of a grid instant in the data of a group (R144, R145), in units of 2^−32 FIR output period, with
whether the instant lies in a time-suspect frame (R226). The instant is n·256·10^9/rate units in the time
words of a segment whose sum of steps is `shift`. -/
def position (s : State) (rate n g : Nat) (shift : Int) : Int × Bool :=
  let whole := n * 256000000000 / rate
  let rem := n * 256000000000 % rate
  let t : TW := BitVec.ofInt 64 ((whole : Int) + (s.shift - shift))
  let base (m : MapSeg) : TW := BitVec.ofInt 64 ((m.tw.toNat : Int) + (s.shift - m.shift))
  let seg := match s.map.segs.find? (fun m => decide (0 ≤ TW.diff (base m) t)) with
    | some m => some m
    | none => s.map.segs.getLast?
  match seg with
  | some m =>
    let d := TW.diff (base m) t * rate + rem
    let es := roundDiv (m.e * 2 ^ 16 * rate + d * m.q) mapResolution * mapResolution
    let dh : Int := (cicN s.conf.cfg g + firL s.conf.cfg g - 1) * cicR s.conf.cfg g - cicN s.conf.cfg g
    (roundDiv (es + dh * 2 ^ 63 * rate) (2 ^ 33 * rate * cicR s.conf.cfg g), m.suspect)
  | none => (0, true)

/-- First tap of a prototype, and how many there are (R146). -/
def tapRange (proto : Nat) : Int × Nat := if proto = 0 then (-23, 48) else (-11, 24)

/-- Factory coefficient h_p[i]; phase 1,024 is phase 0 moved by one tap (R146). -/
def rawCoef (proto p : Nat) (i : Int) : Int :=
  let r := tapRange proto
  let i' := if p = 1024 then i - 1 else i
  if r.1 ≤ i' ∧ i' < r.1 + r.2 then Config.protoCoef proto (p % 1024) (i' - r.1).toNat else 0

/-- The taps of a phase. -/
def rawRow (proto p : Nat) : List Int :=
  (List.range (tapRange proto).2).map fun (k : Nat) => rawCoef proto p ((tapRange proto).1 + k)

/-- What R146 says of the coefficients of a phase: signed 32-bit values that sum to 2^30, their magnitudes to less than
1.3. -/
def rowOk (l : List Int) : Bool :=
  l.all (fun c => decide (-2 ^ 31 ≤ c) && decide (c < 2 ^ 31)) && decide (l.sum = 2 ^ 30)
    && decide ((l.map Int.natAbs).sum * 10 < 13 * 2 ^ 30)

/-- A phase and its mirror keep R146, and each is the other's mirror image (R147). -/
def phaseOk (proto p : Nat) : Bool :=
  rowOk (rawRow proto p) && rowOk (rawRow proto (1024 - p)) && decide (rawRow proto p = (rawRow proto (1024 - p)).reverse)

/-- Linear interpolation, a symmetric prototype that keeps R146. -/
def linearCoef (p : Nat) (i : Int) : Int := if i = 0 then 2 ^ 30 - p * 2 ^ 20 else if i = 1 then p * 2 ^ 20 else 0

/-- The stored coefficients of a phase (R146, R147). Factory data that broke the rules would stand for no module; linear
interpolation stands in for it (notes/assumptions/78.md). -/
def phaseRow (proto p : Nat) : List Int :=
  if phaseOk proto (p % 1024) then rawRow proto p
  else (List.range (tapRange proto).2).map fun (k : Nat) => linearCoef p ((tapRange proto).1 + k)

/-- FIR output j of a channel; one that is not held is 0 (R124). -/
def firAt (p : Path) (j : Int) : Int :=
  match p.w.find? (fun q => decide ((q.1 : Int) = j)) with | some q => q.2 | none => 0

/-- The resampled value z of a channel at a position, in units of 2^−8 output LSB (R146). -/
def resampled (proto : Nat) (p : Path) (pos : Int) : Int :=
  let j := pos / 2 ^ 32
  let mu := (pos % 2 ^ 32).toNat
  let ph := mu / 2 ^ 22
  let lam : Int := (mu % 2 ^ 22 : Nat)
  let r := tapRange proto
  let a := phaseRow proto ph
  let b := phaseRow proto (ph + 1)
  roundDiv (((List.range r.2).map fun (k : Nat) =>
    firAt p (j + (r.1 + k)) * ((2 ^ 22 - lam) * a.getD k 0 + lam * b.getD k 0)).sum) (2 ^ 52)

/-- Newest FIR output that the window of a position needs (R148). -/
def windowEnd (proto : Nat) (pos : Int) : Int := pos / 2 ^ 32 + (if proto = 0 then 24 else 12)

/-- First FIR position of the support of a position (R147): 48 positions for both prototypes. -/
def windowStart (proto : Nat) (pos : Int) : Int := windowEnd proto pos - 47

/-- First and last modulator sample in the support of FIR outputs a to b of group g (Table 2.3). -/
def edgeSupport (c : KV) (g : Nat) (a b : Int) : Int × Int :=
  let r : Int := cicR c g
  (2 * a * r - ((firL c g : Int) - 1) * r - (cicN c g : Int) * (r - 1), 2 * b * r)

/-- Flags of a resampled output of channel c at a position (R49, R97, R124, R134, R56, R153), without OVR. -/
def flagsOf (s : State) (c proto : Nat) (pos : Int) (suspect : Bool) : Nat :=
  let g := c / 32
  let ch := chanAt s c
  let ja := windowStart proto pos
  let jb := windowEnd proto pos
  let (a, b) := edgeSupport s.conf.cfg g ja jb
  let fill := decide ((groupAt s g).restart ≠ 0) && decide (a < ((groupAt s g).restart : Int))
  let orphan := match ch.orphanFrom with | some e => decide ((e : Int) ≤ b) | none => false
  let f (x : Bool) (k : Nat) : Nat := if x then 2 ^ k else 0
  f (ch.taint.any (meetsSpan a b) || fill || orphan) 1 + f suspect 3
    + f (ch.swaps.any fun e => meetsSpan a b (e, e)) 4
    + f ((groupAt s g).cxf.any (meetsSpan ja jb)) 5 + f (ch.checks.any (meetsSpan a b)) 6

/-- The channel is orphaned within the support of a position (R104). -/
def orphanAt (s : State) (c proto : Nat) (pos : Int) : Bool :=
  match (chanAt s c).orphanFrom with
  | some e => decide ((e : Int) ≤ (edgeSupport s.conf.cfg (c / 32) 0 (windowEnd proto pos)).2)
  | none => false

/-- The support of the output with grid index n of channel c reaches modulator sample e. -/
def supportReaches (s : State) (st c e n : Nat) (shift : Int) : Bool :=
  let pos := (position s (cfgAt s 0x3600 st) n (c / 32) shift).1
  decide ((e : Int) ≤ (edgeSupport s.conf.cfg (c / 32) 0 (windowEnd (cfgAt s 0x3601 st) pos)).2)

/-- The words of an averaged output on orphaned channels are 0 (R104). -/
def orphanWords (s : State) (st : Nat) (chans : List Nat) (q : OutRec) : OutRec :=
  let orphan (c : Nat) : Bool := match (chanAt s c).orphanFrom with
    | some e => supportReaches s st c e q.n q.shift
    | none => false
  { q with vals := List.zipWith (fun c v => if orphan c then 0 else v) chans q.vals
           flags := List.zipWith (fun c f => if orphan c then f - f % 2 else f) chans q.flags }

/-- A formed output whose support holds a failed run: TNT on the channel at place i (R103), and a word of 0 where the channel
is orphaned (R104). -/
def OutRec.failed (i : Nat) (zero : Bool) (o : OutRec) : OutRec :=
  { o with vals := if zero then updAt (fun _ => 0) i o.vals else o.vals
           flags := updAt (fun f => if zero then (f ||| 3) - 1 else f ||| 2) i o.flags }

/-- The outputs of a part that no interim close has sent. -/
def Part.failed (reach : OutRec → Bool) (i : Nat) (zero : Bool) (p : Part) : Part :=
  if p.sent.isSome then p else { p with outs := p.outs.map fun o => if reach o then o.failed i zero else o }

/-- The same for a capture sample. -/
def CapSample.failed (i : Nat) (zero : Bool) (o : CapSample) : CapSample :=
  { o with vals := if zero then updAt (fun _ => 0) i o.vals else o.vals
           flags := updAt (fun f => if zero then (f ||| 3) - 1 else f ||| 2) i o.flags }

/-- The inputs that an averager holds. -/
def Averager.failed (i : Nat) (a : Averager) : Averager := { a with flags := updAt (· ||| 2) i a.flags }

/-- The outputs of a frame that waits for its first transmission: a word of 0 in place, and the flags that an output takes
now in exception entries of its own, beyond the allowance like those of R306 (notes/assumptions/80.md). -/
def Frame.failed (reach : OutRec → Bool) (c : Nat) (zero : Bool) (f : Frame) : Frame :=
  let i := f.chans.idxOf c
  let hit := (List.range f.outs.length).filter fun j => (f.outs[j]?.map reach).getD false
  let add (j : Nat) : Option (Nat × Nat × Nat) :=
    if (((f.outs[j]?.map OutRec.flags).getD []).getD i 0).testBit 1 then none else some (f.firstOut + j, c, 2)
  { f with
    octets := if zero then hit.foldl (fun l j => setWord l (f.sampleAt / 4 + j * f.chans.length + i) 0) f.octets else f.octets
    marks := f.marks ++ hit.filterMap add
    outs := f.outs.mapIdx fun j o => if hit.contains j then o.failed i zero else o }

/-- Index and sum of steps of the newest resampled output of stream st. -/
def newestOutput (s : State) (st : Nat) : Option (Nat × Int) :=
  (streamAt s st).segs.head?.map fun g => (g.next - 1, g.shift)

/-- The frames that wait for their first transmission take the marks of outputs whose support reaches the first sample e of
a failed run of channel c. -/
def failQueued (c e : Nat) (zero : Bool) (s : State) : State :=
  let change (f : Frame) : Frame :=
    if f.chans.contains c && !f.outs.isEmpty then f.failed (fun o => supportReaches s f.stream c e o.n o.shift) c zero else f
  { s with buf := { s.buf with
      asm := s.buf.asm.map (·.map change), res := s.buf.res.map (·.map change)
      sbuf := s.buf.sbuf.map fun x => if x.sent then x else { x with frame := change x.frame } } }

/-- Outputs of channel c formed before a fault was recognised, whose support reaches the first sample e of the failed run
(R103, R104): in the open blocks, in the averagers, in the capture stores and in the frames not yet sent. -/
def failFormed (c e : Nat) (zero : Bool) (s : State) : State :=
  let late (st : Nat) : Bool := match newestOutput s st with
    | some (n, sh) => supportReaches s st c e n sh
    | none => false
  let s' := forNat 16 (fun st x =>
    let chans := maskChans (streamMask s.conf.cfg st)
    let i := chans.idxOf c
    if (streamAt s st).running && chans.contains c && late st then
      onStream st (fun t =>
        { t with avg := t.avg.failed i
                 parts := t.parts.map (Part.failed (fun o => supportReaches s st c e o.n o.shift) i zero) }) x
    else x) s
  let s' := failQueued c e zero s'
  forNat 8 (fun u x =>
    let st := cfgAt s 0x3C01 u
    let chans := (maskChans (streamMask s.conf.cfg st)).filter (cfgAt s 0x3C15 u).testBit
    let i := chans.idxOf c
    if (streamAt s st).running && chans.contains c && late st then
      onUnit u (fun y =>
        { y with avg := y.avg.failed i
                 store := y.store.map fun o => if supportReaches s st c e o.n o.shift then o.failed i zero else o }) x
    else x) s'

/-- The final word of an exact value num/den output LSB (R48, R154), and whether it was clamped. -/
def finalWord (num : Int) (den : Nat) : Int × Bool :=
  let v := roundDiv num den
  if 2 ^ 31 - 1 < v then (2 ^ 31 - 1, true)
  else if v < -(2 ^ 31 - 1) then (-(2 ^ 31 - 1), true)
  else (v, false)

/-- The largest grid index not used: first grid index whose instant is at or after time word t (R143). -/
def gridAt (rate : Nat) (t : Nat) : Nat := ceilDiv (t * rate) 256000000000

/-- One resampled output: values z by channel in units of 2^−8 LSB, and flags. -/
structure Resampled where
  n     : Nat
  ident : Nat
  epoch : BitVec 16
  shift : Int
  zs    : List Int
  flags : List Nat
deriving DecidableEq, Repr

/-- Adds two lists term by term. -/
def addLists (a b : List Int) : List Int := List.zipWith (· + ·) a b

/-- What an averager delivers at an output (R154): words and flags of the closing, or nothing. An interval
before the first closing counts only when it is whole. -/
def average (k : Nat) (o : Resampled) (a : Averager) : Averager × Option OutRec :=
  let fresh := a.count = 0
  let begins := o.n % 2 ^ k = 0
  let same := decide (a.ident = o.ident)
  let acc : Averager :=
    if !a.open_ && (decide begins || (!decide fresh && !same)) then
      if begins then { a with sums := o.zs, flags := o.flags, count := 1, ident := o.ident }
      else { a with sums := [], flags := [], count := 0, ident := o.ident }
    else if !a.open_ && decide fresh then a
    else if fresh then { a with sums := o.zs, flags := o.flags, count := 1, ident := o.ident }
    else { a with sums := addLists a.sums o.zs, flags := List.zipWith (· ||| ·) a.flags o.flags, count := a.count + 1,
                  ident := o.ident }
  if (o.n + 1) % 2 ^ k = 0 then
    let whole := acc.open_ || decide (acc.count = 2 ^ k)
    let cleared : Averager := { acc with sums := [], flags := [], count := 0, open_ := acc.open_ || whole }
    if whole ∧ acc.count ≠ 0 then
      let ws := acc.sums.map fun z => finalWord z (256 * acc.count)
      (cleared, some ⟨o.n, o.ident, o.epoch, o.shift, ws.map (·.1),
        List.zipWith (fun f w => if w.2 then f ||| 1 else f) acc.flags ws⟩)
    else (cleared, none)
  else (acc, none)

/-- Drops the grid segments that are used up, keeping the last. -/
def currentSegs : List GridSeg → List GridSeg
  | [] => []
  | g :: l => match g.limit with
    | some m => if m ≤ g.next ∧ !l.isEmpty then currentSegs l else g :: l
    | none => g :: l

/-- Forms the next resampled output of stream st, if its windows are complete (R148). -/
def formOutput (s : State) (st : Nat) : Option Resampled :=
  let t := streamAt s st
  let c := s.conf.cfg
  let rate := cv c 0x3600 st
  let proto := cv c 0x3601 st
  match currentSegs t.segs with
  | g :: _ =>
    if (match g.limit with | some m => decide (m ≤ g.next) | none => false) then none
    else
      let chans := maskChans (streamMask c st)
      let pos := (List.range 4).map fun q => position s rate g.next q g.shift
      let posOf (ch : Nat) : Int × Bool := pos.getD (ch / 32) (0, true)
      let ready (ch : Nat) : Bool := match (chanAt s ch).path.w.head? with
        | some w => decide (windowEnd proto (posOf ch).1 ≤ (w.1 : Int))
        | none => false
      if chans.all ready then
        some ⟨g.next, g.ident, g.epoch, g.shift,
          chans.map fun ch => if orphanAt s ch proto (posOf ch).1 then 0
            else resampled proto (chanAt s ch).path (posOf ch).1,
          chans.map fun ch => flagsOf s ch proto (posOf ch).1 (posOf ch).2⟩
      else none
  | [] => none

/-- Moves the grid of a stream past its next index. -/
def gridStep (t : Stream) : Stream :=
  match currentSegs t.segs with
  | g :: l => { t with segs := { g with next := g.next + 1 } :: l }
  | [] => t

/-- Adds a taint span to a channel, joining spans that overlap or touch (R47), and dropping spans that no
filter window reaches any more. -/
def addTaint (a b : Nat) (ch : Chan) : Chan :=
  let hit (p : Nat × Nat) : Bool := decide (p.1 ≤ b + 1) && decide (a ≤ p.2 + 1)
  let m := ch.taint.filter hit
  let lo := (m.map (·.1)).foldl min a
  let hi := (m.map (·.2)).foldl max b
  { ch with taint := (lo, hi) :: (ch.taint.filter fun p => !hit p && decide (a < p.2 + 2 ^ 24)) }

end Sys2Proof.Machine
end

