-- ==== Sys2Proof/Machine/Trigger.lean ====
section
/-! DEFINITION. The trigger units and their captures (chapter 08): the store and its locks (R184, R195), events and the
tests of Table 8.4 (R193), acceptance (R194), the capture segments (R199 to R201), the detectors (R187) and the
forming of a resampled output (R148). -/

namespace Sys2Proof.Machine

/-- Instant (t, e) lies at or before instant (t', e'): within one epoch by R17, across a step by epoch. -/
def epochLe (t : TW) (e : BitVec 16) (t' : TW) (e' : BitVec 16) : Bool :=
  if e = e' then TW.atOrBefore t t' else decide (0 < (e' - e).toInt)

/-- The last whole time word at or before grid instant n. -/
def gridFloor (rate n : Nat) : TW := BitVec.ofNat 64 (n * 256000000000 / rate)

/-- A grid instant as the module reports it (R143). -/
def gridReport (rate n : Nat) : TW := BitVec.ofNat 64 ((2 * n * 256000000000 + rate) / (2 * rate))

/-- Source stream of unit u. -/
def unitStream (s : State) (u : Nat) : Nat := cfgAt s 0x3C01 u

/-- Output rate of the source stream of unit u. -/
def unitRate (s : State) (u : Nat) : Nat := cfgAt s 0x3600 (unitStream s u)

/-- Capture samples that the store of unit u holds (R184, R195). -/
def storeCap (s : State) (u : Nat) : Nat :=
  let n := unitChans s.conf.cfg u
  if n = 0 then 0 else (allocBytes s.conf.cfg u - 64) / (5 * n)

/-- Index of the oldest sample that may serve a new capture. -/
def Unit.oldest (x : Unit) (cap : Nat) : Nat := x.nextIdx - min x.filled cap

/-- One past the last sample of a capture. -/
def Capture.stop (k : Capture) : Nat := k.first + k.pre + k.post

/-- The oldest locked sample (R195). -/
def Unit.locked (x : Unit) : Option Nat :=
  match x.captures with
  | [] => none
  | k :: l => some ((l.map (·.first)).foldl min (max x.lockFrom k.first))

/-- Bytes of a store for samples (R195, R196). -/
def storeRoom (s : State) (u : Nat) : Nat := allocBytes s.conf.cfg u - 64

/-- Bytes of one capture sample of unit u. -/
def sampleSize (s : State) (u : Nat) : Nat := 5 * unitChans s.conf.cfg u

/-- Bytes from the oldest locked sample to the write position: each sample has the channels of the mask it was stored
under. -/
def Unit.lockedBytes (x : Unit) : Nat :=
  match x.locked with
  | some l => ((x.store.filter fun y => decide (l ≤ y.idx)).map fun y => 5 * y.vals.length).sum
  | none => 0

/-- The write position lies at a locked sample: `room` holds no further sample of `size` bytes. -/
def Unit.blocked (x : Unit) (room size : Nat) : Bool := decide (size = 0) || decide (room < x.lockedBytes + size)

/-- The capture that has not closed. -/
def Unit.openCap (x : Unit) : Option Capture := x.captures.find? fun k => !k.closed

/-- Ends the open capture at its last stored sample (R198, R206); one without any sample leaves nothing to send. -/
def Unit.truncateOpen (x : Unit) : Unit :=
  match x.openCap with
  | none => x
  | some k =>
    let trig := k.trig.getD x.nextIdx
    let pre := trig - k.first
    let k' := { k with closed := true, truncated := true, trig := some trig, pre := pre, post := x.nextIdx - trig,
                       shortPre := k.shortPre || decide (pre < k.pre) }
    { x with truncated := satInc x.truncated,
             captures := if x.nextIdx ≤ k.first then x.captures.dropLast else x.captures.dropLast ++ [k'] }

/-- Stops writing when the write position has reached a locked sample (R195, R198). -/
def Unit.checkWait (room size : Nat) (x : Unit) : Unit :=
  if !x.waiting && x.blocked room size then { x.truncateOpen with waiting := true } else x

/-- Disarms a unit (R189, R206). -/
def disarmUnit (u : Nat) (s : State) : State :=
  onUnit u (fun x => if x.armed then
      { x.truncateOpen with
        armed := false, spans := (((x.armTw, x.armEpoch), (s.time.tw, s.time.epoch)) :: x.spans).take 64 }
    else x) s

/-- Number of the first T_m at or after tw t (R188); for a single instant that lies before it, 1. -/
def firstInstant (s : State) (u : Nat) (t : TW) : Nat :=
  let d := TW.diff (BitVec.ofNat 64 (cfgAt s 0x3C09 u)) t
  let q := cfgAt s 0x3C0A u
  if d ≤ 0 then 0 else if q = 0 then 1 else ceilDiv d.toNat q

/-- Arms a unit at its arm tick (R189). -/
def armUnit (u : Nat) (s : State) : State :=
  onUnit u (fun x =>
    ({ x with armed := true, armTw := s.time.tw, armEpoch := s.time.epoch, filled := 0, waiting := false,
              primedUp := false, primedDown := false, nextM := firstInstant s u s.time.tw } : Unit).checkWait
      (storeRoom s u) (sampleSize s u)) s

/-- The unit was armed at an instant: in a span from an arm tick to a disarm (R193). -/
def armedAt (x : Unit) (ev : TrgEvent) : Bool :=
  (x.armed && epochLe x.armTw x.armEpoch ev.t ev.epoch) ||
  x.spans.any fun p => epochLe p.1.1 p.1.2 ev.t ev.epoch && !epochLe p.2.1 p.2.2 ev.t ev.epoch

/-- Grid instant n of a grid segment lies at or after an event's instant; grid instants are compared exactly (R143). -/
def instantAfter (rate : Nat) (ev : TrgEvent) (n ident : Nat) (epoch : BitVec 16) : Bool :=
  match ev.grid with
  | some (m, i) => if ident = i then decide (m ≤ n) else decide (i < ident)
  | none => epochLe ev.t ev.epoch (gridFloor rate n) epoch

/-- A sample of the store lies at or after an event's instant. -/
def sampleAfter (rate : Nat) (ev : TrgEvent) (y : CapSample) : Bool := instantAfter rate ev y.n y.ident y.epoch

/-- Grid index of the first grid instant at or after an event (R143). -/
def eventIndex (rate : Nat) (ev : TrgEvent) : Nat :=
  match ev.grid with | some p => p.1 | none => gridAt rate ev.t.toNat

/-- Capture samples that the grid segments of a stream still give before an event's instant (R150, R151, R154, R191): `whole`
tells whether the averages have begun, or the one in progress is whole so far. -/
def samplesToCome (k rate : Nat) (ev : TrgEvent) : Bool → List GridSeg → Nat
  | _, [] => 0
  | whole, g :: l =>
    let after (n : Nat) : Bool := instantAfter rate ev n g.ident g.epoch
    let upTo (m : Nat) : Nat := m / 2 ^ k - (if whole then g.next else ceilDiv g.next (2 ^ k) * 2 ^ k) / 2 ^ k
    match g.limit with
    | none => if after g.next then 0 else upTo (eventIndex rate ev)
    | some m =>
      if m ≤ g.next then samplesToCome k rate ev whole l
      else if after g.next then 0
      else if after (m - 1) then upTo (eventIndex rate ev)
      else upTo m + samplesToCome k rate ev (whole || decide (0 < upTo m)) l

/-- Index of the trigger sample of an event: the held one, or the one that the grid puts it at (R191). In WAITING no sample is
stored, and the next one is the first after it. -/
def trigIndex (s : State) (u : Nat) (ev : TrgEvent) : Nat :=
  let x := unitAt s u
  let rate := unitRate s u
  let segs := (streamAt s (unitStream s u)).segs
  let held := (x.store.take (min x.filled (storeCap s u))).filter (sampleAfter rate ev)
  match held.getLast? with
  | some y => y.idx
  | none =>
    if x.waiting then x.nextIdx
    else
      let whole := x.avg.open_ || (decide (x.avg.count ≠ 0) && decide (segs.head?.map (·.ident) = some x.avg.ident))
      x.nextIdx + samplesToCome (cfgAt s 0x3C0E u) rate ev whole (currentSegs segs)

/-- Index of the oldest sample that may serve a capture with its trigger sample at index `trig`: one that comes after a WAITING
stands in a fresh fill (R195). -/
def Unit.serves (x : Unit) (cap trig : Nat) : Nat := if x.waiting ∧ x.nextIdx ≤ trig then x.nextIdx else x.oldest cap

/-- Test 6 of Table 8.4: a grid sample before the oldest held one lies at or after the event. -/
def trigTooOld (s : State) (u : Nat) (ev : TrgEvent) : Bool :=
  let x := unitAt s u
  let rate := unitRate s u
  match (x.store.take (min x.filled (storeCap s u))).getLast? with
  | some y =>
    let k := cfgAt s 0x3C0E u
    match ev.grid with
    | some (n, ident) => if y.ident = ident then decide (n + 2 ^ k ≤ y.n) else decide (ident < y.ident)
    | none =>
      if y.epoch = ev.epoch then
        decide ((2 ^ k * 256000000000 : Int) ≤ TW.diff ev.t (gridFloor rate y.n) * rate + (y.n * 256000000000 % rate : Nat))
      else epochLe ev.t ev.epoch (gridFloor rate y.n) y.epoch
  | none => false

/-- The time hold-off covers an event (R192): elapsed time is the difference less the steps between the two instants. -/
def heldOff (s : State) (u : Nat) (ev : TrgEvent) : Bool :=
  match (unitAt s u).lastTw with
  | some (l, sh) => decide (TW.diff l ev.t - (ev.shift - sh) < cfgAt s 0x3C0F u * usec) && decide (cfgAt s 0x3C0F u ≠ 0)
  | none => false

/-- Post-trigger samples of a capture with its trigger sample at index `trig` that are not yet written. -/
def postLeft (s : State) (u trig : Nat) : Nat :=
  let q := cfgAt s 0x3C0C u
  min q (trig + q - (unitAt s u).nextIdx)

/-- The tests of Table 8.4: 0 accepted, or the reason. -/
def trgTest (s : State) (u : Nat) (ev : TrgEvent) : Nat :=
  let x := unitAt s u
  let c := s.conf.cfg
  let cap := storeCap s u
  let p := cfgAt s 0x3C0B u
  let h := cfgAt s 0x3C0D u
  let trig := trigIndex s u ev
  if !x.armed || !armedAt x ev then 7
  else if (match x.lastTw with | some l => !TW.later l.1 ev.t | none => false) then 8
  else if x.openCap.isSome then 3
  else if x.holdCount ≠ 0 then 2
  else if heldOff s u ev then 1
  else if trigTooOld s u ev then 5
  else if trig < x.serves cap trig + p ∧ cfgAt s 0x3C11 u = 0 then (if x.filled < p + h then 4 else 5)
  else match x.locked with
    | some _ =>
      if !unitStreaming c u && decide ((storeRoom s u - x.lockedBytes) / sampleSize s u < postLeft s u trig) then 6 else 0
    | none => 0

/-- Records a missed event (R202). -/
def trgMiss (u : Nat) (ev : TrgEvent) (reason : Nat) (s : State) : State :=
  raisePn 14 (onUnit u (fun x =>
    { x with missed := satInc x.missed, missTotal := satInc x.missTotal, missBy := updAt satInc (reason - 1) x.missBy,
             holdCount := if x.armed then x.holdCount - 1 else x.holdCount,
             log := (⟨ev.t, reason, cfgAt s 0x3C02 u, s.time.epoch, x.count⟩ :: x.log).take 64 }) s)

/-- Inserts a pulse by its start. -/
def insPulse (a : Nat × Nat) : List (Nat × Nat) → List (Nat × Nat)
  | [] => [a]
  | b :: l => if a.1 < b.1 then a :: b :: l else b :: insPulse a l

/-- The pulse of output o for an accepted trigger (R203), on the present course of the time word. -/
def trgPulse (ev : TrgEvent) (o : Nat) (s : State) : State :=
  let start : TW := BitVec.ofInt 64 ((ev.t.toNat : Int) + (s.shift - ev.shift) + cfgAt s 0x3C81 o * usec)
  let width := cfgAt s 0x3C82 o * usec
  let isLate := decide (ahead s start ≤ 0)
  let from_ := if isLate then s.time.pt else ptAt s start
  { s with outs := updAt (fun q => { q with starts := insPulse (from_, from_ + width) q.starts,
                                            late := if isLate then satInc q.late else q.late }) o s.outs }

/-- Bits [255:64] of a trigger message as 24 octets (Table 10.7). -/
def trgBody (code scope sender seq epoch instant : Nat) : List Nat :=
  octetsOf 1 code ++ octetsOf 2 scope ++ octetsOf 3 sender ++ octetsOf 2 seq ++ octetsOf 2 epoch
    ++ List.replicate 6 0 ++ octetsOf 8 instant

/-- The first 64 bits of the tag of a trigger message under a key (R257). -/
def trgAuth (k : BitVec 256) (body : List Nat) : List Nat := (hmac k body).take 8

/-- Hands a trigger message to the link layer (R204, R257). Without an Operator key the tag is a free value. -/
def trgSend (code : Nat) (ev : TrgEvent) (s : State) : State :=
  let body := trgBody code (cfgAt s 0x5281 0) (cfgAt s 0x1001 0) s.ev.sendSeq.toNat ev.epoch.toNat ev.t.toNat
  let (auth, s) := match s.dict.keyOp.key with
    | some k => (trgAuth k body, s)
    | none => let (v, s) := fresh s; (octetsOf 8 v, s)
  { s with ev.sendSeq := s.ev.sendSeq + 1,
           link.ports := s.link.ports.map fun q =>
             if q.role = 1 ∨ q.role = 2 then { q with msgs := q.msgs ++ [body ++ auth] } else q }

/-- Accepts an event as a trigger (R191, R194). -/
def trgAccept (u : Nat) (ev : TrgEvent) (s : State) : State :=
  let cap := storeCap s u
  let trig := trigIndex s u ev
  let p := cfgAt s 0x3C0B u
  let s := onUnit u (fun x =>
    let pre := min p (trig - x.serves cap trig)
    let k : Capture :=
      { number := wrapInc x.count, trigTw := ev.t, epoch := ev.epoch, grid := ev.grid, kind := cfgAt s 0x3C02 u, mask := cfgAt s 0x3C15 u,
        stream := unitStream s u, rate := unitRate s u, avgK := cfgAt s 0x3C0E u, streaming := unitStreaming s.conf.cfg u,
        first := trig - pre, trig := if trig < x.nextIdx then some trig else none, pre := pre, post := cfgAt s 0x3C0C u,
        q := cfgAt s 0x3C0C u, firstAt := none, trigEpoch := (x.store.find? fun y => decide (y.idx = trig)).map (·.epoch),
        changed := false, shortPre := decide (pre < p)
        ahead := decide (0 < ahead s (BitVec.ofInt 64 ((ev.t.toNat : Int) + (s.shift - ev.shift)))), truncated := false, closed := false, packed := 0,
        generation := s.conf.generation, missedSince := x.missed }
    { x with count := wrapInc x.count, lastTw := some (ev.t, ev.shift), missed := 0,
             holdCount := cfgAt s 0x3C10 u, holdTime := decide (cfgAt s 0x3C0F u ≠ 0),
             captures := x.captures ++ [k] }) s
  let s := forNat 2 (fun o s => if cfgAt s 0x3C80 o = u then trgPulse ev o s else s) s
  if cfgAt s 0x3C14 u = 0 then s else trgSend (cfgAt s 0x3C14 u) ev s

/-- Closes captures whose last post-trigger sample is stored; a single-mode unit then disarms (R194). -/
def trgClose (u : Nat) (s : State) : State :=
  let x := unitAt s u
  let full (k : Capture) : Bool := !k.closed && k.trig.isSome && decide (k.stop ≤ x.nextIdx)
  if x.captures.any full then
    let s := onUnit u (fun x => { x with captures := x.captures.map fun k => if full k then { k with closed := true } else k }) s
    if cfgAt s 0x3C00 u = 1 then disarmUnit u s else s
  else s

/-- A capture that a unit accepts in WAITING with a stored trigger sample ends at the last stored sample (R195, R198). -/
def Unit.endWaiting (x : Unit) : Unit :=
  if x.waiting && (match x.openCap with | some k => k.trig.isSome | none => false) then x.truncateOpen else x

/-- Offers an event to unit u (R193). Only a unit that is armed now or was armed at the instant decides it. A capture that
is complete at its acceptance closes before the write position is judged (R194, R198). -/
def trgOffer (u : Nat) (ev : TrgEvent) (s : State) : State :=
  let x := unitAt s u
  if x.armed || armedAt x ev then
    let r := trgTest s u ev
    if r = 0 then
      onUnit u (fun x => (x.checkWait (storeRoom s u) (sampleSize s u)).endWaiting) (trgClose u (trgAccept u ev s))
    else trgMiss u ev r s
  else s

/-- Offers an event to every unit of a source kind that watches item `sel`. -/
def trgOfferAll (kind sel : Nat) (ev : TrgEvent) (s : State) : State :=
  forNat 8 (fun u s => if cfgAt s 0x3C02 u = kind ∧ cfgAt s 0x3C03 u = sel then trgOffer u ev s else s) s

/-- Puts an event among those that a unit has still to decide, by trigger instant (R193). -/
def insOffer (ev : TrgEvent) : List TrgEvent → List TrgEvent
  | [] => [ev]
  | a :: l => if epochLe a.t a.epoch ev.t ev.epoch then a :: insOffer ev l else ev :: a :: l

/-- Unit u recognises an event that others of the engine cycle may precede. -/
def trgAwait (u : Nat) (ev : TrgEvent) (s : State) : State :=
  onUnit u (fun x => { x with offers := insOffer ev x.offers }) s

/-- The units decide the events that they have recognised in the engine cycle, by trigger instant (R193). -/
def decideOffers (s : State) : State :=
  forNat 8 (fun u s => forList (unitAt s u).offers (trgOffer u) (onUnit u (fun x => { x with offers := [] }) s)) s

/-- The engine cycle in progress ends: what it has recognised is decided. -/
def cycleEnd (s : State) : State :=
  if !live s || s.units.all (fun x => x.offers.isEmpty) then s else settle (decideOffers s)

/-- Stores one capture sample of unit u (R184), resolving the trigger sample of the open capture (R191). -/
def trgStore (u : Nat) (o : OutRec) (s : State) : State :=
  let cap := storeCap s u
  let rate := unitRate s u
  let x := unitAt s u
  if x.waiting then s
  else
    let y : CapSample := ⟨x.nextIdx, o.n, o.ident, o.epoch, o.shift, o.vals, o.flags⟩
    let place (k : Capture) : Capture :=
      if !k.closed && k.trig.isNone && sampleAfter rate ⟨k.trigTw, k.epoch, 0, k.grid⟩ y then
        let pre := if k.packed = 0 then min (cfgAt s 0x3C0B u) (y.idx - x.oldest cap) else y.idx - k.first
        { k with trig := some y.idx, pre := pre, first := y.idx - pre, shortPre := decide (pre < cfgAt s 0x3C0B u),
                 trigEpoch := some y.epoch }
      else k
    let keep := max cap (x.nextIdx + 1 - x.locked.getD (x.nextIdx + 1))
    let s := onUnit u (fun x => { x with store := (y :: x.store).take keep, nextIdx := x.nextIdx + 1,
                                         filled := x.filled + 1, captures := x.captures.map place }) s
    onUnit u (Unit.checkWait (storeRoom s u) (sampleSize s u)) (trgClose u s)

/-- A detector pair after value v: new priming, and which detectors fire (R187). -/
def detect (thr hyst v : Int) (x : Unit) : Unit × Bool × Bool :=
  let up := x.primedUp && decide (thr ≤ v)
  let down := x.primedDown && decide (v ≤ thr)
  ({ x with primedUp := if up then false else x.primedUp || decide (v ≤ thr - hyst),
            primedDown := if down then false else x.primedDown || decide (thr + hyst ≤ v) }, up, down)

/-- Evaluates the watched channel of unit u on a resampled output of its source stream (R186, R187). R187 has the detectors
both begin unprimed after a skipped output and keep their state across one: the model keeps it (notes/assumptions/97.md). -/
def trgWatch (u : Nat) (chans : List Nat) (o : Resampled) (s : State) : State :=
  let kind := cfgAt s 0x3C02 u
  let ev : TrgEvent := ⟨gridReport (unitRate s u) o.n, o.epoch, o.shift, some (o.n, o.ident)⟩
  if kind ≠ 1 ∧ kind ≠ 2 then s
  else
    let i := chans.idxOf (cfgAt s 0x3C03 u)
    let xn := (finalWord (o.zs.getD i 0) 256).1
    let tnt := (o.flags.getD i 0).testBit 1
    let skipTnt := decide (cfgAt s 0x3C08 u = 1)
    let d := if kind = 1 then 0 else cfgAt s 0x3C07 u
    let s := onUnit u (fun x => { x with hist := ((xn, tnt) :: x.hist).take 257 }) s
    let x := unitAt s u
    if !(x.armed || armedAt x ev) then s
    else match x.hist[d]? with
    | none => s
    | some (xd, tntD) =>
      if skipTnt && (tnt || (decide (kind = 2) && tntD)) then s
      else
        let v := if kind = 1 then xn else xn - xd
        let r := detect (cfgInt s 32 0x3C05 u) (cfgAt s 0x3C06 u) v (unitAt s u)
        let s := onUnit u (fun _ => r.1) s
        let edge := cfgAt s 0x3C04 u
        let s := whenever (r.2.1 && decide (edge ≠ 1)) (trgOffer u ev) s
        whenever (r.2.2 && decide (edge ≠ 0)) (trgOffer u ev) s

/-- A resampled output as unit u captures it: the channels of its mask only (R183). -/
def maskOutput (chans : List Nat) (mask : Nat) (o : Resampled) : Resampled :=
  let pick {α : Type} (l : List α) : List α := ((chans.zip l).filter fun p => mask.testBit p.1).map (·.2)
  { o with zs := pick o.zs, flags := pick o.flags }

/-- Averages a resampled output for unit u, armed or not, and stores what closes while it is armed (R183, R184). -/
def trgSample (u : Nat) (chans : List Nat) (o : Resampled) (s : State) : State :=
  let r := average (cfgAt s 0x3C0E u) (maskOutput chans (cfgAt s 0x3C15 u) o) (unitAt s u).avg
  let s := onUnit u (fun x => { x with avg := r.1 }) s
  match r.2 with
  | some q =>
    if (unitAt s u).armed then trgStore u (orphanWords s (unitStream s u) (chans.filter (cfgAt s 0x3C15 u).testBit) q) s else s
  | none => s

/-- RESAMPLED_OUTPUT_FORMED (R148, R154, R183, R187, R270): the conversions given enter the channels' paths; a
complete window gives the stream's next output, which the open block and the trigger units take. -/
def outputFormed (st : Nat) (feed : List Feed) (s : State) : State :=
  let s := forList feed feedChan s
  if (streamAt s st).running then
    match formOutput s st with
    | none => s
    | some o =>
      let k := cfgAt s 0x3602 st
      let chans := maskChans (streamMask s.conf.cfg st)
      let r := average k o (streamAt s st).avg
      let s := onStream st (fun t =>
        let t := { gridStep t with avg := r.1 }
        match r.2 with
        | some q => appendOutput k (orphanWords s st chans q) t
        | none => t) s
      let mine (u : Nat) (s : State) : Bool := decide (unitStream s u = st)
      let s := forNat 8 (fun u s => whenever (mine u s) (trgWatch u chans o) s) s
      forNat 8 (fun u s => whenever (mine u s) (trgSample u chans o) s) s
  else s

def execResampledOutputFormed (st : Fin 16) (feed : List Feed) (s : State) : Result :=
  if live s then done (outputFormed st.val feed s) else .next s

/-- T_m of unit u (R188). -/
def unitInstant (s : State) (u m : Nat) : TW := BitVec.ofNat 64 (cfgAt s 0x3C09 u + m * cfgAt s 0x3C0A u)

/-- Fires the next instant of a kind-5 unit (R188). -/
def fireInstant (u : Nat) (s : State) : State :=
  let x := unitAt s u
  if x.armed ∧ cfgAt s 0x3C02 u = 5 ∧ (cfgAt s 0x3C0A u ≠ 0 ∨ x.nextM = 0) then
    let m := x.nextM
    trgOffer u ⟨unitInstant s u m, s.time.epoch, s.shift, none⟩ (onUnit u (fun x => { x with nextM := m + 1 }) s)
  else s

def execTrgTimeInstant (u : Fin 8) (s : State) : Result :=
  if live s then done (fireInstant u.val s) else .next s

/-- TRG_HOLDOFF_EXPIRY (R190, R192): the span of the time hold-off ends. -/
def execTrgHoldoffExpiry (u : Fin 8) (s : State) : Result :=
  if live s then done (onUnit u.val (fun x => { x with holdTime := false }) s) else .next s

/-- CAPTURE_STORE_RESUME (R195): once the sample at the write position is free, writing resumes from a fresh fill. -/
def resumeStore (u : Nat) (s : State) : State :=
  onUnit u (fun x => if x.waiting && !x.blocked (storeRoom s u) (sampleSize s u) then { x with waiting := false, filled := 0 } else x) s

def execCaptureStoreResume (u : Fin 8) (s : State) : Result :=
  if live s then done (resumeStore u.val s) else .next s

/-- TRGOUT_PULSE_START (R203): the next pulse asserts the output, or extends the pulse that stands. -/
def pulseStart (q : TrgOut) : TrgOut :=
  match q.starts with
  | p :: l => { q with level := true, starts := l, endAt := if q.level then max q.endAt p.2 else p.2 }
  | [] => q

/-- The outputs may be high (R203). -/
def outsMode (s : State) : Bool := decide (s.power.mode = .ready) || decide (s.power.mode = .run)

def execTrgoutPulseStart (o : Fin 2) (s : State) : Result :=
  if outsMode s then done { s with outs := updAt pulseStart o.val s.outs } else .next s

/-- TRGOUT_PULSE_END (R203): the output returns low, unless a further pulse begins within the one that ends. -/
def pulseEnd (q : TrgOut) : TrgOut :=
  if q.level then
    match q.starts with
    | p :: l => if p.1 ≤ q.endAt then { q with starts := l, endAt := max q.endAt p.2 } else { q with level := false }
    | [] => { q with level := false }
  else q

def execTrgoutPulseEnd (o : Fin 2) (s : State) : Result :=
  if live s then done { s with outs := updAt pulseEnd o.val s.outs } else .next s

/-- Outputs are low outside READY and RUN and with the source 0xFF (R203). -/
def outsLow (s : State) : State :=
  let off (o : Nat) : Bool := !outsMode s || decide (cfgAt s 0x3C80 o = 0xFF)
  { s with outs := s.outs.mapIdx fun o q => if off o then { q with level := false, starts := [] } else q }

/-- TRG_STATE (Table 8.3). -/
def unitState (s : State) (u : Nat) : Nat :=
  let x := unitAt s u
  if !x.armed then 0
  else if x.waiting then 1
  else if x.openCap.isSome then 2
  else if x.holdTime || decide (x.holdCount ≠ 0) then 3
  else if x.filled < cfgAt s 0x3C0B u + cfgAt s 0x3C0D u then 4
  else 5

/-- TRG_STORE_FREE: store bytes not locked. -/
def storeFree (s : State) (u : Nat) : Nat := allocBytes s.conf.cfg u - (unitAt s u).lockedBytes

/-- The sample of a store with an index. -/
def Unit.sample (x : Unit) (i : Nat) : Option CapSample := x.store.find? fun y => decide (y.idx = i)

/-- The capture header (Table 8.5). -/
def capHeader (u : Nat) (k : Capture) (lastSeg : Bool) : List Nat :=
  let b (v : Bool) (i : Nat) : Nat := if v then 2 ^ i else 0
  let firstTw := match k.firstAt with | some p => p.1 | none => 0
  let post := if k.truncated && !lastSeg then k.q else k.post
  [2 ^ 4 + u * 2 + (if k.streaming then 1 else 0),
   k.kind * 16 + b k.shortPre 3 + b k.changed 2 + b (k.truncated && lastSeg) 1]
    ++ octetsOf 4 k.number ++ octetsOf 2 (k.trigEpoch.getD k.epoch).toNat ++ octetsOf 8 k.trigTw.toNat ++ octetsOf 8 firstTw.toNat
    ++ octetsOf 4 k.pre ++ octetsOf 4 post ++ [maskCount k.mask, k.stream * 16 + k.avgK / 2, (k.avgK % 2) * 128, 0]
    ++ octetsOf 4 k.rate ++ octetsOf 4 k.generation.toNat ++ octetsOf 4 k.missedSince

/-- A stored sample as it is read for sending: words that cannot be corrected are sent as 0x8000_0000 with PSN
(R201). -/
def readStored (chans : List Nat) (bad : List (Nat × Nat)) (y : CapSample) : CapSample :=
  let hit (i : Nat) : Bool := bad.any fun p => decide (p.1 = y.idx) && decide (p.2 = chans.getD i 128)
  { y with vals := y.vals.mapIdx fun i v => if hit i then -(2 ^ 31) else v,
           flags := y.flags.mapIdx fun i f => if hit i then f ||| 4 else f }

/-- One capture segment with m samples from sample index i0 of capture k. -/
def capSegment (u : Nat) (x : Unit) (k : Capture) (bad : List (Nat × Nat)) (i0 m : Nat) : Frame :=
  let chans := maskChans k.mask
  let ys := ((List.range m).filterMap fun j => x.sample (k.first + i0 + j)).map (readStored chans bad)
  let exc := (exceptions chans (ys.map (·.flags))).map fun e => e + i0 * 2 ^ 32
  let isLast := k.closed && decide (k.first + i0 + m = k.stop)
  { typ := 0x02, cls := 4
    octets := capHeader u k isLast ++ octetsOf 16 k.mask ++ octetsOf 2 ((if isLast then 2 ^ 15 else 0) + m)
      ++ octetsOf 2 exc.length ++ octetsOf 4 i0
      ++ ys.flatMap (fun y => y.vals.flatMap fun v => octetsOf 4 (wireInt 32 v)) ++ exc.flatMap (octetsOf 8)
    sampleAt := 72, samples := m * chans.length, chans := chans, firstOut := i0
    blockTw := 0, deadline := none, frees := some (u, k.first + i0 + m - 1), poison := [], marks := [],
    outs := ys.map fun y => ⟨y.n, y.ident, y.epoch, y.shift, y.vals, y.flags⟩, stream := k.stream, header := [],
    moved := false, shadow := [], shadowHead := [], formed := 0 }

/-- Largest number of samples, at most m, that a segment holds beside their exception entries. -/
def segFit (x : Unit) (k : Capture) (i0 : Nat) : Nat → Nat
  | 0 => 1
  | m + 1 =>
    let chans := maskChans k.mask
    let ys := (List.range (m + 1)).filterMap fun j => x.sample (k.first + i0 + j)
    if 4 * chans.length * (m + 1) + 8 * (exceptions chans (ys.map (·.flags))).length ≤ 8900 then m + 1
    else segFit x k i0 m

/-- Samples of a capture that can be sent now (R197): before the trigger sample is stored, those before the place that the
grid gives it, and none while a step may still move that place. The last stored sample of an open capture stays behind, so that its last segment always has a sample. -/
def capReady (x : Unit) (k : Capture) : Nat :=
  let last := if k.trig.isSome then k.stop else if k.ahead then k.first else k.first + k.pre
  (if k.closed then last else min last (x.nextIdx - 1)) - k.first - k.packed

/-- What the header of the next segments says of the samples: FIRST_TW, and whether a time step has come since the first
sample (R199). -/
def Capture.latch (x : Unit) (k : Capture) : Capture :=
  let at_ := match k.firstAt with
    | some p => some p
    | none => (x.sample k.first).map fun y => (gridReport k.rate y.n, y.epoch)
  let now := (x.sample (min x.nextIdx k.stop - 1)).map (·.epoch)
  { k with firstAt := at_
           changed := k.changed || match at_, now with | some a, some e => decide (a.2 ≠ e) | _, _ => false }

/-- Packs up to d samples of capture k into segments. -/
def packCapture (u : Nat) (x : Unit) (bad : List (Nat × Nat)) : Nat → Nat → Capture → Capture × List Frame × Nat
  | 0, d, k => (k, [], d)
  | fuel + 1, d, k =>
    let n := min d (capReady x k)
    if n = 0 then (k, [], d)
    else
      let m := segFit x k k.packed (min n (segCap (maskCount k.mask)))
      let fr := capSegment u x k bad k.packed m
      let r := packCapture u x bad fuel (d - m) { k with packed := k.packed + m }
      (r.1, fr :: r.2.1, r.2.2)

/-- Packs the captures of a unit in order. -/
def packCaptures (u : Nat) (x : Unit) (bad : List (Nat × Nat)) : Nat → List Capture → List Capture × List Frame
  | _, [] => ([], [])
  | d, k :: l =>
    let r := packCapture u x bad d d (if capReady x k = 0 then k else k.latch x)
    let q := packCaptures u x bad r.2.2 l
    (r.1 :: q.1, r.2.1 ++ q.2)

/-- The drain of one frame, from s to t, has read the word of a fault (R197, R201). -/
def capRead (s t : State) (f : CapFault) : Bool :=
  ((unitAt s f.unit.val).captures.zip (unitAt t f.unit.val).captures).any fun p =>
    p.1.mask.testBit f.chan.val && decide (p.1.first + p.1.packed ≤ f.index) && decide (f.index < p.2.first + p.2.packed)

/-- The drain of unit u in one frame (R197, R290). -/
def drainUnit (bad : List CapFault) (u : Nat) (s : State) : State :=
  let x := unitAt s u
  let d := max 1 (ceilDiv (cfgAt s 0x3C13 u * cTfUs s.conf.cfg) 1000000)
  let mine := bad.filterMap fun p => if p.unit.val = u then some (p.index, p.chan.val) else none
  let r := packCaptures u x mine d x.captures
  forList r.2 (formFrame 0) (onUnit u (fun x => { x with captures := r.1 }) s)

/-- The link layer releases a capture frame: its samples are free (R195). -/
def capRelease (u last : Nat) (s : State) : State :=
  onUnit u (fun x => match x.captures with
    | k :: l => if k.closed ∧ k.stop ≤ last + 1 then { x with captures := l, lockFrom := 0 }
      else { x with lockFrom := last + 1 }
    | [] => x) s

end Sys2Proof.Machine
end

