-- ==== Sys2Proof/Machine/Auxiliary.lean ====
section
/-! DEFINITION. The auxiliary converter and its sequencer (chapter 07): the choice of the next conversion (R169), hold
instants and results (R162, R171), the ring (R175 to R178), launches (R166, R167), calibration (R171) and the
window comparators (R172). -/

namespace Sys2Proof.Machine

/-- Slots of the auxiliary ring. -/
def auxRingSize : Nat := 8192

/-- A marker record (Table 7.5). -/
def markerRecord (tick : TW) (epoch : BitVec 16) : Nat := 3 * 2 ^ 62 + (epoch.toNat % 64) * 2 ^ 56 + tick.toNat / 256

/-- BASE of a marker. -/
def markerBase (tick : TW) : Nat := tick.toNat / 256 * 256

/-- Puts one record into a ring of a size; a full ring discards it (R178). -/
def ringPut (size word : Nat) (r : Ring) : Ring :=
  if r.recs.length < size then { r with recs := r.recs ++ [word] }
  else { r with lost := satInc r.lost, dropped := true }

/-- Writes a data record under a marker, which goes before it where R176 asks for one. A full ring discards and counts the data
record alone, and a marker may take the last slot (notes/assumptions/44.md). -/
def ringUnder (size mark full : Nat) (r : Ring) : Ring :=
  if size ≤ r.recs.length then ringPut size full r
  else
    let r := if r.marker ≠ some mark ∨ r.dropped then { ringPut size mark r with marker := some mark, dropped := false } else r
    ringPut size full r

/-- A data record with its OFFSET, for an instant in the frame of a tick. `word` is the record without its OFFSET. -/
def withOffset (tick at_ : TW) (word : Nat) : Nat := word + (at_ - BitVec.ofNat 64 (markerBase tick)).toNat % 2 ^ 32

/-- Writes a data record for an instant in the frame of a tick (R176). -/
def ringWrite (size : Nat) (tick : TW) (epoch : BitVec 16) (at_ : TW) (word : Nat) (r : Ring) : Ring :=
  ringUnder size (markerRecord tick epoch) (withOffset tick at_ word) r

/-- Slot of the next record (R177). -/
def ringNext (size : Nat) (r : Ring) : Nat := (r.read + r.recs.length) % size

/-- Releases records up to a slot (R177): none when the slot does not lie between READ and READ + FILL. READ's own value
releases no record of a full ring (notes/assumptions/44.md). -/
def ringRelease (size v : Nat) (r : Ring) : Option Ring :=
  let n := (v + size - r.read) % size
  if v < size ∧ n ≤ r.recs.length then 
    some { r with read := v, recs := r.recs.drop n, base := (((r.recs.take n).reverse).find? isMarker).or r.base }
  else none

/-- Octets that a read of a ring's data entry returns: up to 128 records (R177). -/
def ringData (r : Ring) : List Nat := (r.recs.take 128).flatMap (octetsOf 8)

/-- The gain of a gain code (R164). -/
def auxGain (code : Nat) : Nat := 2 ^ code

/-- k1 and k0 of a source (R161). -/
def auxConst (src : Nat) : Rat × Rat :=
  if src < 16 then (1, 0)
  else (decF32 (factoryNat 0x7380 src 4), decF32 (factoryNat 0x7381 src 4))

/-- Physical value of a code (R161). -/
def auxValue (src gain : Nat) (x : Int) : Rat :=
  (auxConst src).1 * x * (3125 / 10000000) / auxGain gain + (auxConst src).2

/-- Entry i of the committed sequence. -/
def seqItem (s : State) (i : Nat) : AuxItem :=
  let v := cfgAt s 0x3801 i
  ⟨0, bits v 5 0, bits v 7 6, bits v 11 8, i⟩

/-- The committed sequence. -/
def seqItems (s : State) : List AuxItem := (List.range (cfgAt s 0x3800 0)).map (seqItem s)

/-- A running sequence: entries not yet held, or its last conversion in progress. -/
def seqActive (s : State) : Bool :=
  !s.aux.seq.isEmpty || (match s.aux.conv with | some c => decide (c.item.kind = 0) | none => false)

/-- The converter serves a start-up self-calibration (R174). -/
def auxSpan (s : State) : Bool :=
  match s.aux.spanEnd with | some e => !TW.atOrBefore e s.time.tw | none => false

/-- The converter is calibrating, or a calibration is requested (notes/assumptions/96.md). -/
def auxCalBusy (s : State) : Bool := decide (s.aux.calState ≠ 0) || auxSpan s

/-- AUX_SEQ_STATE (R167, R169). -/
def seqState (s : State) : Nat :=
  if seqActive s then (if auxCalBusy s then 2 else 1) else if s.aux.latched.isSome then 3 else 0

/-- Time word of the first edge of the system reference at or after now. -/
def edgeTw (s : State) : TW := twAt s (sysEdge s.time.pt)

/-- Time word of the first edge of the system reference after now. -/
def edgeAfter (s : State) : TW := twAt s (sysEdge (s.time.pt + 1))

/-- Starts the sequence with its entries, launched at the edge t (R166). -/
def seqStart (items : List AuxItem) (t : TW) (s : State) : State :=
  { s with aux.seq := items, aux.lastLaunch := t, aux.latched := none }

/-- The front of the queue may run: it precedes the calibration requested and the span of R174, where there are such. -/
def auxQueueOpen (s : State) : Bool :=
  (decide (s.aux.calState = 0) || (decide (s.aux.calState = 1) && decide (0 < s.aux.calBefore)))
    && (!auxSpan s || decide (0 < s.aux.spanBefore))

/-- The next item for the multiplexer (R169); none while a calibration takes its turn. In the span of R174 the
measurements of step 1 of Table 3.1 follow the calibration. -/
def auxPick (s : State) : Option AuxItem :=
  match if auxQueueOpen s then s.aux.queue.head? else none with
  | some a => some a
  | none =>
    if auxSpan s then (if s.aux.calOwn then none else s.aux.measure.head?)
    else if s.aux.calState ≠ 0 then none
    else s.aux.seq.head?

/-- Gives the multiplexer its next item. An injected conversion that samples keeps it; a sequence entry gives way
(R169, R170). A latched launch runs when its turn comes. -/
def auxKick (s : State) : State :=
  let s := match s.aux.latched with
    | some l => if !auxCalBusy s && s.aux.queue.isEmpty && !seqActive s then seqStart l (edgeTw s) s else s
    | none => s
  let keep := match s.aux.sampling with | some a => decide (a.kind ≠ 0) | none => false
  if keep then s
  else
    let next := auxPick s
    if next = s.aux.sampling then s else { s with aux.sampling := next, aux.sampleFrom := s.time.pt }

/-- A launch occurs at the edge t (R166, R167). Launches are ignored in WARM (R174). Whether a calibration that is only requested
counts as one, and what a launch behind a latched one does once the calibration has ended, is the model's choice
(notes/assumptions/96.md). -/
def launch (t : TW) (s : State) : State :=
  if s.power.mode = .warm ∨ cfgAt s 0x3800 0 = 0 then s
  else if seqActive s ∨ s.aux.latched.isSome then { s with aux.missed := satInc s.aux.missed }
  else if auxCalBusy s then { s with aux.latched := some (seqItems s) }
  else auxKick (seqStart (seqItems s) t s)

/-- Requests a calibration of the converter; a request while one stands is merged into it (R171). -/
def auxCalRequest (s : State) : State :=
  if s.aux.calState ≠ 0 then s
  else auxKick { s with aux.calState := 1, aux.calBefore := s.aux.queue.length }

/-- Adds a request to the injected queue; none when it is full (R170). -/
def auxEnqueue (a : AuxItem) (s : State) : Option State :=
  if s.aux.queue.length < 4 then some (auxKick { s with aux.queue := s.aux.queue ++ [a] }) else none

/-- What the converter measures for a start-up self-calibration after its own calibration: the buffers of the dies of a
mask, and both zeners against each other (step 1 of Table 3.1). -/
def measureItems (mask : Nat) : List AuxItem :=
  (((List.range 4).filter mask.testBit).map (fun g => 0x10 + 10 * g) ++ [0x38]).map fun src => ⟨3, src, 3, 4, 0⟩

/-- The converter at C0 (R171, R174): its calibration is requested, and the span of 40 ms begins. -/
def auxAtC0 (c0 : TW) (mask : Nat) (s : State) : State :=
  let s := auxCalRequest s
  { s with aux.spanEnd := some (c0 + 10240000000), aux.spanBefore := s.aux.calBefore, aux.calOwn := true,
           aux.measure := measureItems mask }

/-- The end of that span: the converter makes its choice (R169, R174). -/
def auxResume (s : State) : State :=
  if s.aux.spanEnd.isSome ∧ !auxSpan s then auxKick { s with aux.spanEnd := none, aux.measure := [] } else s

/-- AUX_HOLD_INSTANT (R162): the sampled item is held at an edge of the system reference, which stamps it, and its
conversion begins. -/
def auxHold (s : State) : State :=
  match s.aux.sampling, s.aux.conv with
  | some a, none =>
    let t := edgeTw s
    let g := frameOf s t
    let queued := decide (a.kind = 1) || decide (a.kind = 2)
    let s := { s with
      aux.conv := some ⟨a, stampIn s g t, g.epoch, g.tw, g.suspect, s.aux.calOffset, s.aux.calGain⟩
      aux.lastHold := some (sysEdge s.time.pt)
      aux.sampling := none
      aux.queue := if queued then s.aux.queue.drop 1 else s.aux.queue
      aux.calBefore := if queued then s.aux.calBefore - 1 else s.aux.calBefore
      aux.spanBefore := if queued then s.aux.spanBefore - 1 else s.aux.spanBefore
      aux.measure := if a.kind = 3 then s.aux.measure.drop 1 else s.aux.measure
      aux.seq := if a.kind = 0 then s.aux.seq.drop 1 else s.aux.seq }
    auxKick s
  | _, _ => s

/-- The next edge of the system reference lies at or after the next tick. -/
def edgeLate (s : State) : Bool := TW.atOrBefore s.time.nextTick (edgeTw s)

/-- What an edge of the system reference does waits for the tick where the edge lies at or after it (R22, R26). -/
def atEdge (l : Late) (act : State → State) (s : State) : State :=
  if edgeLate s then { s with time.late := s.time.late ++ [l] } else act s

def execAuxHoldInstant (s : State) : Result := if live s then done (atEdge .hold auxHold s) else .next s

/-- A corrected code clamped to 16 bits (R171). -/
def auxClamp (x : Int) : Int := max (-32768) (min 32767 x)

/-- A code after the corrections of its hold instant: the gain in units of 2^−30, the offset in units of 2^−8 code
(R171, Table 7.9). -/
def auxCorrect (c : AuxConv) (raw : Int) : Int :=
  auxClamp (roundDiv (raw * (2 ^ 30 + c.gain) + c.offset * 2 ^ 22) (2 ^ 30))

/-- A data record without its OFFSET (Table 7.4). -/
def auxRecord (c : AuxConv) (code : Int) (clip : Bool) : Nat :=
  c.item.kind * 2 ^ 62 + c.item.source * 2 ^ 56 + c.item.gain * 2 ^ 54 + c.item.tag * 2 ^ 50
    + (if clip then 2 ^ 49 else 0) + (if c.tsp then 2 ^ 48 else 0) + wireInt 16 code * 2 ^ 32

/-- AUX_CONVERSION_DONE (R162, R171, R173, R175), with the code that the converter gives before its corrections. -/
def auxDone (raw : Int) (s : State) : State :=
  match s.aux.conv with
  | none => s
  | some c =>
    let code := auxCorrect c raw
    let clip := decide (code = -32768) || decide (code = 32767)
    let src := c.item.source
    let toRing := c.item.kind < 2 ∨ (c.item.kind = 2 ∧ cfgBool s 0x3820 5)
    let s := { s with
      aux.conv := none
      aux.codes := s.aux.codes.set src code
      aux.values := s.aux.values.set src (encF32 (auxValue src c.item.gain code))
      aux.times := s.aux.times.set src c.hold
      aux.ring := if toRing then ringWrite auxRingSize c.frame c.epoch c.hold (auxRecord c code clip) s.aux.ring else s.aux.ring
      aux.staff := if c.item.kind = 2 ∧ src = 0x3C then some code else s.aux.staff
      aux.arrived := if c.item.kind = 2 then s.aux.arrived ++ [(src, code, clip)] else s.aux.arrived }
    auxKick s

def execAuxConversionDone (code : Int) (s : State) : Result := if live s then done (auxDone code s) else .next s

/-- AUX_CAL_BEGIN (R171): the running conversion and the injected ones queued before the request have finished. -/
def auxCalBegin (s : State) : State :=
  if s.aux.calState = 1 ∧ s.aux.conv.isNone ∧ s.aux.calBefore = 0 ∧ (auxSpan s → s.aux.calOwn) then
    { s with aux.calState := 2, aux.sampling := none }
  else s

def execAuxCalBegin (s : State) : Result := if live s then done (auxCalBegin s) else .next s

/-- AUX_CAL_END (R171). -/
def auxCalEnd (offset gain : Int) (s : State) : State :=
  if s.aux.calState = 2 then
    auxKick { s with aux.calState := 0, aux.calOwn := false, aux.calLast := s.time.tw, aux.calOffset := offset,
                     aux.calGain := gain, aux.calTemp := s.aux.staff }
  else s

def execAuxCalEnd (offset gain : Int) (s : State) : Result := if live s then done (auxCalEnd offset gain s) else .next s

/-- AUX_WINDOW_EVENT (R172), recognised at an edge of the system reference: the event is recorded, may launch the sequence (R166) and is offered to the units that
watch the comparator (R185). -/
def windowEvent (w : Nat) (s : State) : State :=
  let q := s.aux.wins.getD w ⟨0, 0, true⟩
  if cfgAt s 0x380B w = 0 ∨ !q.armed then s
  else
    let g := frameOf s (edgeTw s)
    let t := stampIn s g (edgeTw s)
    let s := { s with aux.wins := s.aux.wins.set w ⟨t, satInc q.count, false⟩ }
    let s := if cfgAt s 0x3802 0 = 3 ∧ cfgAt s 0x3802 2 = w then launch (edgeTw s) s else s
    trgOfferAll 3 w ⟨t, g.epoch, g.shift, none⟩ s

def execAuxWindowEvent (w : Fin 4) (s : State) : Result := if live s then done (atEdge (.window w.val) (windowEvent w.val) s) else .next s

/-- AUX_WINDOW_REARM (R172). -/
def execAuxWindowRearm (w : Fin 4) (s : State) : Result :=
  if live s then done { s with aux.wins := updAt (fun q => { q with armed := true }) w.val s.aux.wins } else .next s

/-- States in which the path takes launches and requests of the host (R174). -/
def auxModes : List Mode := [.calibrate, .ready, .run, .safe]

/-- Write of AUX_LAUNCH: the launch is at the first edge after acceptance (R166). -/
def auxLaunchWrite (r : Role) (v : BitVec 8) (s : State) : Ans :=
  gate r .operator (decide (v = 1)) auxModes s fun s =>
    if cfgAt s 0x3802 0 ≠ 1 ∨ cfgAt s 0x3800 0 = 0 then refuse 0x0301 s else accept (launch (edgeAfter s) s)

def execAuxLaunch (r : Role) (v : BitVec 8) (s : State) : Result := served s (auxLaunchWrite r v)

/-- Write of AUX_INJECT (R170). -/
def auxInjectWrite (r : Role) (v : BitVec 32) (s : State) : Ans :=
  let n := v.toNat
  gate r .operator (decide (bits n 31 16 = 0) && decide (bits n 11 8 ≤ 8)) auxModes s fun s =>
    match auxEnqueue ⟨1, bits n 5 0, bits n 7 6, bits n 11 8, bits n 15 12⟩ s with
    | some s' => accept s'
    | none => refuse 0x0301 s

def execAuxInject (r : Role) (v : BitVec 32) (s : State) : Result := served s (auxInjectWrite r v)

/-- Write of AUX_CAL_START (R171). -/
def auxCalStartWrite (r : Role) (v : BitVec 8) (s : State) : Ans :=
  gate r .operator (decide (v = 1)) auxModes s fun s =>
    if s.aux.calState ≠ 0 then refuse 0x0301 s else accept (auxCalRequest s)

def execAuxCalStart (r : Role) (v : BitVec 8) (s : State) : Result := served s (auxCalStartWrite r v)

/-- The states in which the dictionary serves (R322). -/
def servedModes : List Mode := [.warm, .calibrate, .ready, .run, .safe]

/-- Write of AUX_RING_READ (R177). -/
def auxRingReadWrite (r : Role) (v : BitVec 16) (s : State) : Ans :=
  gate r .operator true servedModes s fun s =>
    match ringRelease auxRingSize v.toNat s.aux.ring with
    | some q => accept { s with aux.ring := q }
    | none => refuse 0x0301 s

def execAuxRingRead (r : Role) (v : BitVec 16) (s : State) : Result := served s (auxRingReadWrite r v)

end Sys2Proof.Machine
end

