-- ==== Sys2Proof/Machine/Fade.lean ====
section
/-! DEFINITION. Coefficient banks and cross-fades (R123 to R136), and the restart of a group's chain (R124, R125). -/

namespace Sys2Proof.Machine

/-- Changes bank b of group g. -/
def onBank (g b : Nat) (f : Bank → Bank) (s : State) : State :=
  onGroup g (fun gr => { gr with banks := updAt f b gr.banks }) s

/-- Write of FIR_COEF (R127). An accepted write clears the seal, the length tag and the check value. -/
def firCoefWrite (r : Role) (g b i : Nat) (v : BitVec 32) (s : State) : Ans :=
  gate r .operator (inRI 32 (-(2 ^ 23)) (2 ^ 23 - 1) v.toNat) servedModes s fun s =>
    if bankLocked s g b then refuse 0x0301 s
    else accept (imageSave (onBank g b (fun k =>
      { k with coefs := k.coefs.set i v.toInt, sealed := false, len := 0, crc := 0 }) s))

def execFirCoefWrite (r : Role) (g : Fin 4) (b : Bool) (i : Fin 32) (v : BitVec 32) (s : State) : Result :=
  served s (firCoefWrite r g.val (if b then 1 else 0) i.val v)

/-- Length that a LEN bit names (Tables 5.2 and 5.3). -/
def lenOf (v : Nat) : Nat := if v.testBit 3 then 64 else 32

/-- The unit-gain and length rule of R128. -/
def sealOk (coefs : List Int) (l : Nat) : Bool :=
  decide (coefs.sum = 2 ^ 22) && (decide (l = 64) || (coefs.drop 16).all fun c => decide (c = 0))

/-- Seals a bank with a length tag (R128). -/
def sealBank (l : Nat) (k : Bank) : Bank := { k with sealed := true, len := l, crc := bankCrc k.coefs l }

/-- Write of FIR_SEAL (R128). A bank that fails the check stays unsealed. -/
def firSealWrite (r : Role) (v : BitVec 16) (s : State) : Ans :=
  let n := v.toNat
  gate r .operator (decide (bits n 15 4 = 0)) servedModes s fun s =>
    let g := bits n 2 1
    let b := bits n 0 0
    if bankLocked s g b then refuse 0x0301 s
    else if !sealOk ((groupAt s g).bank b).coefs (lenOf n) then refuse 0x0205 s
    else accept (imageSave (onBank g b (sealBank (lenOf n)) s))

def execFirSeal (r : Role) (v : BitVec 16) (s : State) : Result := served s (firSealWrite r v)

/-- Write of FIR_LOAD_FACTORY (R129). -/
def firLoadWrite (r : Role) (v : BitVec 16) (s : State) : Ans :=
  let n := v.toNat
  gate r .operator (decide (bits n 15 6 = 0) && decide (bits n 5 4 ≠ 3)) servedModes s fun s =>
    let g := bits n 2 1
    let b := bits n 0 0
    if bankLocked s g b then refuse 0x0301 s
    else accept (imageSave (onBank g b (fun k =>
      sealBank (lenOf n) { k with coefs := factoryFir (bits n 5 4 + 3) (n.testBit 3) }) s))

def execFirLoadFactory (r : Role) (v : BitVec 16) (s : State) : Result := served s (firLoadWrite r v)

/-- A fade argument keeps Table 5.5. -/
def fadeArgOk (v : BitVec 32) : Bool :=
  decide (bits v.toNat 31 8 = 0) && decide (bits v.toNat 7 4 ≤ 8) && !v.toNat.testBit 3

/-- Write of FIR_XFADE_START (R131, R132). -/
def fadeWrite (r : Role) (v : BitVec 32) (s : State) : Ans :=
  gate r .operator (fadeArgOk v) [.ready, .run] s fun s =>
    let F := directTick s
    acceptDirect (.xfade v) r (fadeCond s (priorTo s F 5) F v (schedFades s (fadeGroup v))) F s

def execFirXfadeStart (r : Role) (v : BitVec 32) (s : State) : Result := served s (fadeWrite r v)

/-- The start tick of a fade (R131): it waits for its first output. -/
def fadeBegin (e : Sched) (a : BitVec 32) (s : State) : State :=
  let x : Fade := { target := fadeTarget a, n := fadeLen a, edge := edgeNow s, first := none, handle := e.handle,
                    direct := e.slot.isNone, tag := (recordOf s e 0 0 s.time.tw).tag, named := e.fire, start := s.time.tw }
  onGroup (fadeGroup a) (fun gr => { gr with fade := some x }) s

/-- FADE_FIRST_OUTPUT (R133, R134): output i = 0, the first FIR output at or after the start edge. -/
def fadeFirst (g : Nat) (s : State) : State :=
  match (groupAt s g).fade with
  | none => s
  | some x =>
    if x.first.isSome then s
    else
      let step := 2 * cicR s.conf.cfg g
      let j := ceilDiv x.edge step
      let gr := groupAt s g
      let seg : FirSeg := ⟨j, x.n, (gr.bank gr.active).coefs, (gr.bank x.target).coefs⟩
      let at_ := twAt s (edgePt s (j * step))
      onGroup g (fun gr => { gr with fade := some { x with first := some j }, firLog := (seg :: gr.firLog).take 16,
                                     cxf := ((j, j + x.n - 1) :: gr.cxf).take 16, fadeLast := at_ }) s

def execFadeFirstOutput (g : Fin 4) (s : State) : Result := if live s then done (fadeFirst g.val s) else .next s

/-- The record of a fade that ends: its tick is the one that began the frame in which it does (R133, R253). -/
def fadeRecord (s : State) (x : Fade) (outcome : Nat) : Completion :=
  { handle := x.handle, op := 7, direct := x.direct, outcome := outcome, refusal := 0, named := x.named,
    fired := s.time.frameTw, tag := x.tag, epoch := frameEpoch s }

/-- FADE_COMPLETE at output n (R133). -/
def fadeDone (g : Nat) (s : State) : State :=
  match (groupAt s g).fade with
  | none => s
  | some x =>
    if x.first.isNone then s
    else imageSave (completeNow (fadeRecord s x 5) (onGroup g (fun gr => { gr with fade := none, active := x.target }) s))

def execFadeComplete (g : Fin 4) (s : State) : Result := if live s then done (fadeDone g.val s) else .next s

/-- Abandons the fade of a group on entry into SAFE (Table 5.6): the old bank stays active. -/
def fadeAbort (g : Nat) (s : State) : State :=
  match (groupAt s g).fade with
  | none => s
  | some x =>
    let gr := groupAt s g
    let old := (gr.bank gr.active).coefs
    let now := edgeNow s / (2 * cicR s.conf.cfg g)
    let log := match x.first with
      | some j => (⟨max j (now + 1), 0, [], old⟩ :: gr.firLog).take 16
      | none => gr.firLog
    let cxf := match x.first with
      | some j => gr.cxf.map fun p => if p.1 = j then (p.1, min p.2 now) else p
      | none => gr.cxf
    oweCompletion (fadeRecord s x 4) (onGroup g (fun gr => { gr with fade := none, firLog := log, cxf := cxf }) s)

/-- Restarts the chain of a group at the first edge at or after now (R124): its bank serves every output from here on. -/
def restartChain (g : Nat) (s : State) : State :=
  let e := edgeNow s
  onGroup g (fun gr => { gr with restart := e, firLog := [⟨0, 0, [], (gr.bank gr.active).coefs⟩], cxf := [] }) s

/-- A hoist that changes L moves the selection to the other bank when the active one is not sealed for it (R123). -/
def selectBank (g l : Nat) (s : State) : State :=
  let gr := groupAt s g
  let k := gr.bank gr.active
  if k.sealed ∧ k.len = l then s else onGroup g (fun gr => { gr with active := 1 - gr.active }) s

end Sys2Proof.Machine
end

