-- ==== Sys2Proof/Machine/Input.lean ====
section
/-! DEFINITION. The analog inputs (chapter 02): overload episodes and taint spans (R46, R47, R51, R52) and the open-wire
check (R54 to R58). -/

namespace Sys2Proof.Machine

/-- Modulator samples from the last overload sample to the end of its span (R47). -/
def ovrTail : Nat := 17

/-- The same for the neighbours (R51). -/
def neighbourTail : Nat := 9

/-- A run of overload samples is noted; runs that no filter window reaches any more are dropped. -/
def noteRun (first last : Nat) (side : OvrSide) (ch : Chan) : Chan :=
  { ch with ovrRuns := (first, last, side) :: ch.ovrRuns.filter fun p => decide (first < p.2.1 + 2 ^ 24) }

/-- OVERLOAD_EXCURSION (R46, R47, R51, R52): `samples` overload samples from the next modulator edge on. A sample at
most 18 after the latest one extends the episode; otherwise a new episode opens. -/
def overload (c samples : Nat) (side : OvrSide) (s : State) : State :=
  if samples = 0 then s
  else
    let first := edgeNow s
    let last := first + samples - 1
    let ch := chanAt s c
    let opens := decide (ch.ovrEdge = 0) || decide (ch.ovrEdge + 18 < first)
    let start := if opens then first else ch.ovrFirst
    let s := onChan c (noteRun first last side) s
    let last := if opens then last else max last ch.ovrEdge
    let at_ := twAt s (edgePt s first)
    let s := onChan c (fun ch =>
      let ch := addTaint start (last + ovrTail) ch
      { ch with ovrFirst := start, ovrEdge := last, ovrLevel := true,
                ovrCount := if opens then satInc ch.ovrCount else ch.ovrCount,
                ovrLast := if opens then at_ else ch.ovrLast }) s
    if cfgBool s 0x2F43 (c / 32) then
      onChans (fun i ch => if i / 32 = c / 32 ∧ i ≠ c then addTaint start (last + neighbourTail) ch else ch) s
    else s

def execOverloadExcursion (ch : Fin 128) (run : OvrRun) (s : State) : Result :=
  if live s then done (overload ch.val run.samples run.side s) else .next s

/-- OVERLOAD_SPAN_CLOSE (R47, R52): the span of the episode ends. -/
def execOverloadSpanClose (ch : Fin 128) (s : State) : Result :=
  if live s then done (onChan ch.val (fun c => { c with ovrLevel := false }) s) else .next s

/-- A pull setting decoded (R53): none when off, otherwise whether it sinks and its current in amperes. -/
def pullOf (v : Nat) : Option (Bool × Rat) :=
  match v % 4 with
  | 1 => some (v.testBit 2, 1 / 100000000)
  | 2 => some (v.testBit 2, 1 / 1000000)
  | _ => none

/-- The pull of channel c at modulator edge n (R53, R55). -/
def pullAt (s : State) (c n : Nat) : Option (Bool × Rat) :=
  pullOf (logAt (cfgGet s.conf.cfg (chanKey 3 c)) (chanAt s c).pullLog n)

/-- Channel c takes a pull setting from edge e on. -/
def setPull (e v : Nat) (old : Nat) (ch : Chan) : Chan := { ch with pullLog := logPush old v e ch.pullLog }

/-- SLICE_APERTURE_FACTORY of slice k of die g, in fs (R45). -/
def apertureFactory (g k : Nat) : Int := signedOf 32 (factoryNat (0x7060 + g) k 4)

/-- Delay in fs of channel c's sampling instant after modulator edge n: the trim in effect and the aperture correction of
the slice that serves the channel there (R44, R45). -/
def sampleDelay (s : State) (c n : Nat) : Int :=
  1000 * logAt (signedOf 16 (cfgGet s.conf.cfg (chanKey 2 c))) (chanAt s c).trimLog n
    + apertureFactory (c / 32) (logAt (servingNow s c) (chanAt s c).serveLog n).slice

/-- Channel c's sampling instant at modulator edge n, in local units: one fs is 4/15,625 unit (R36). -/
def sampleInstant (s : State) (c n : Nat) : Rat := edgePt s n + (sampleDelay s c n : Rat) * 4 / 15625

/-- Channel c is included in open-wire checks. -/
def owcIncluded (s : State) (c : Nat) : Bool := decide (cfgGet s.conf.cfg (chanKey 9 c) ≠ 0)

/-- Clears the results of the included channels of the groups of a check (Table 2.5, step 1). -/
def owcClear (a : BitVec 32) (s : State) : State :=
  onChans (fun c ch => if a.toNat.testBit (c / 32) && owcIncluded s c then
    { ch with owResult := 0, owRes := nan32 } else ch) s

/-- An open-wire argument has its reserved bits 0 and selects a group (R54). -/
def owcArgOk (v : BitVec 32) : Bool := decide (bits v.toNat 31 5 = 0) && decide (bits v.toNat 3 0 ≠ 0)

/-- Write of OWC_START (R54, R55). -/
def owcStartWrite (r : Role) (v : BitVec 32) (s : State) : Ans :=
  gate r .operator (owcArgOk v) [.ready, .run] s fun s =>
    let F := directTick s
    let a := acceptDirect (.owc v) r (owcCond s F v) F s
    if a.code = 0 then { a with st := owcClear v a.st } else a

def execOwcStart (r : Role) (v : BitVec 32) (s : State) : Result := served s (owcStartWrite r v)

/-- Ticks of a settle phase (R55). -/
def owcSettle (s : State) : Nat := ceilDiv (cfgAt s 0x2F41 0 * usec) (tf s)

/-- Modulator edges that hold four complete CIC outputs of group g, wherever the window lies on the CIC grid
(notes/assumptions/82.md). -/
def owcSpan (s : State) (g : Nat) : Nat :=
  let n := cicN s.conf.cfg g
  let r := cicR s.conf.cfg g
  n * (r - 1) + 1 + 3 * r + (r - 1)

/-- Ticks of a measure window over the selected groups (R55). -/
def owcMeasure (s : State) (a : BitVec 32) : Nat :=
  let need := ((owcGroups a).map (owcSpan s)).foldl max 0
  max (ceilDiv (cfgAt s 0x2F41 1 * usec) (tf s)) (ceilDiv (need * modPeriod) (tf s))

/-- Pull setting of a check current, source or sink (R54, R55). -/
def owcPull (cur : Nat) (sink : Bool) : Nat := (if cur = 1 then 1 else 2) + (if sink then 4 else 0)

/-- T0 of a check (Table 2.5, step 2), which fixes its phases (notes/assumptions/82.md). -/
def owcBegin (e : Sched) (a : BitVec 32) (s : State) : State :=
  let st := owcSettle s
  let m := owcMeasure s a
  let s := forList (owcGroups a) (fun g => onGroup g fun gr =>
    { gr with owc := { state := 2, t0 := s.time.tw, lastStart := s.time.tw, s := st, m := m, phase := 1, ticks := 0,
                       cur := bits a.toNat 4 4, pull := 1, mask := bits a.toNat 3 0, marks := [edgeNow s], due := false, handle := e.handle, direct := e.slot.isNone,
                       tag := (recordOf s e 0 0 s.time.tw).tag, named := e.fire, epoch := s.time.epoch } }) s
  let e0 := edgeNow s
  onChans (fun c ch =>
    if a.toNat.testBit (c / 32) then
      let inc := owcIncluded s c
      let ch := { ch with owcIn := inc, owcTouched := false }
      if inc then
        setPull e0 (owcPull (bits a.toNat 4 4) false) (cfgGet s.conf.cfg (chanKey 3 c))
          { ch with owResult := 0, owRes := nan32, checks := (e0, 2 ^ 64) :: ch.checks
                    owcSrc := ⟨0, 0, true, false⟩, owcSnk := ⟨0, 0, true, false⟩ }
      else ch
    else ch) s

/-- Tick, counted from T0, at which a phase ends (Table 2.5), wherever the phases before it ended
(notes/assumptions/82.md). -/
def owcEnd (o : Owc) : Nat :=
  match o.phase with
  | 1 => o.s
  | 2 => o.s + o.m
  | 3 => 2 * o.s + o.m
  | 4 => 2 * o.s + 2 * o.m
  | _ => 3 * o.s + 2 * o.m

/-- A tick of the running checks. A boundary waits past a tick that begins a short frame (R55). -/
def owcTick (s : State) : State :=
  { s with groups := s.groups.map fun g =>
      if g.owc.state = 2 then
        let o := { g.owc with ticks := g.owc.ticks + 1 }
        { g with owc := { o with due := o.due || (decide (owcEnd o ≤ o.ticks) && !s.time.shortFrame) } }
      else g }

/-- The next phase of a check (Table 2.5, steps 3 to 6), from modulator edge e on. -/
def owcAdvance (e : Nat) (o : Owc) : Owc :=
  if o.state = 2 ∧ o.due ∧ o.phase < 5 then
    { o with phase := o.phase + 1, due := false, marks := o.marks ++ [e]
             pull := match o.phase + 1 with | 3 | 4 => 2 | 5 => 0 | _ => 1 }
  else o

/-- The included channels of group g take the pull of the phase that has begun: sink, or their own setting. -/
def owcPulls (g : Nat) (s : State) : State :=
  let o := (groupAt s g).owc
  let e := edgeNow s
  onChans (fun c ch =>
    if c / 32 = g ∧ ch.owcIn then
      setPull e (if o.pull = 0 then cfgGet s.conf.cfg (chanKey 3 c) else owcPull o.cur (decide (o.pull = 2)))
        (owcPull o.cur false) ch
    else ch) s

/-- OWC_PHASE_BOUNDARY (R55). -/
def owcPhase (g : Nat) (s : State) : State :=
  let e := edgeNow s
  let t := onGroup g (fun gr => { gr with owc := owcAdvance e gr.owc }) s
  if (groupAt t g).owc.pull = (groupAt s g).owc.pull then t else owcPulls g t

def execOwcPhaseBoundary (g : Fin 4) (s : State) : Result :=
  if live s then done (owcPhase g.val s) else .next s

/-- Gain of a code (Table 2.1). -/
def gainOf (code : Nat) : Rat := (2 : Rat) ^ code / 2

/-- Check current in amperes (R54). -/
def owcCurrent (cur : Nat) : Rat := if cur = 1 then 1 / 100000000 else 1 / 1000000

/-- Mean of CIC outputs in volts (R41, R57); outputs are in units of 2^−8 output LSB. -/
def meanVolts (sum : Int) (n code : Nat) : Rat := (sum : Rat) / n / 256 * (512 / 100) / (gainOf code * 2 ^ 31)

/-- Resistance of R57, rule 4. -/
def owcOhms (ch : Chan) (code cur : Nat) : Rat :=
  (meanVolts ch.owcSrc.sum ch.owcSrc.n code - meanVolts ch.owcSnk.sum ch.owcSnk.n code) / (2 * owcCurrent cur)

/-- The verdict of R57 on one included channel. A window without a CIC output leaves it INDETERMINATE. -/
def owcVerdict (s : State) (cur c : Nat) (ch : Chan) : Chan :=
  if ch.owcTouched ∨ ch.owcSrc.n = 0 ∨ ch.owcSnk.n = 0 then { ch with owResult := 3 }
  else if ch.owcSrc.railed && ch.owcSnk.railed then { ch with owResult := 2 }
  else if ch.owcSrc.anyOvr || ch.owcSnk.anyOvr then { ch with owResult := 3 }
  else
    let r := owcOhms ch (gainNow s c) cur
    let verdict := if decF32 (cfgAt s 0x2F41 2) ≤ r then 2 else if r < 0 then 3 else 1
    { ch with owRes := encF32 r, owResult := verdict }

/-- Closes the check samples of a group's channels before the edge e (R56). -/
def owcClose (g e : Nat) (s : State) : State :=
  onChans (fun c ch => if c / 32 = g ∧ ch.owcIn then
    { ch with owcIn := false, checks := ch.checks.map fun p => if p.2 = 2 ^ 64 then (p.1, e - 1) else p } else ch) s

/-- The completion record of a check that ends (R253): outcome 5 with the tick T0 at which it fired, or 4 with the tick
that began the frame in which the module ends it. -/
def owcRecord (s : State) (o : Owc) (outcome : Nat) : Completion :=
  { handle := o.handle, op := 5, direct := o.direct, outcome := outcome, refusal := 0, named := o.named,
    fired := if outcome = 4 then s.time.frameTw else o.t0, tag := o.tag
    epoch := if outcome = 4 then frameEpoch s else o.epoch }

/-- Another group runs the same check. -/
def owcShared (s : State) (g : Nat) : Bool :=
  let o := (groupAt s g).owc
  (List.range 4).any fun q => decide (q ≠ g) && decide ((groupAt s q).owc.state = 2) &&
    decide ((groupAt s q).owc.t0 = o.t0) && decide ((groupAt s q).owc.mask = o.mask) &&
    decide ((groupAt s q).owc.epoch = o.epoch)

/-- OWC_COMPLETE (R57, Table 2.5, step 7), after the conversions since the last feed. -/
def owcComplete (g : Nat) (feed : List Feed) (s : State) : State :=
  let o := (groupAt s g).owc
  if o.state = 2 ∧ o.phase = 5 ∧ o.due then
    let s' := forList feed feedChan s
    let s' := onChans (fun c ch => if c / 32 = g ∧ ch.owcIn then owcVerdict s o.cur c ch else ch) s'
    let s' := owcClose g (edgeNow s) s'
    let s' := onGroup g (fun gr => { gr with owc := { gr.owc with state := 0, due := false } }) s'
    if owcShared s g then s' else completeNow (owcRecord s o 5) s'
  else s

def execOwcComplete (g : Fin 4) (feed : List Feed) (s : State) : Result :=
  if live s then done (owcComplete g.val feed s) else .next s

/-- The module ends a running check on entry into SAFE: its record carries outcome 4. -/
def owcAbort (g : Nat) (s : State) : State :=
  let o := (groupAt s g).owc
  if o.state = 2 then
    let s' := onGroup g (fun gr => { gr with owc := { gr.owc with state := 0, due := false, pull := 0 } }) s
    let s' := owcClose g (edgeNow s) (owcPulls g s')
    if owcShared s g then s' else oweCompletion (owcRecord s o 4) s'
  else s

/-- A hoist that changes the gain, the pull or the inclusion of a channel under check marks it (R57), one at the end tick
too (notes/assumptions/82.md). -/
def owcTouch (content : KV) (s : State) : State :=
  onChans (fun c ch =>
    if (groupAt s (c / 32)).owc.state = 2 ∧ (changes s content (chanKey 1 c) || changes s content (chanKey 3 c)
        || changes s content (chanKey 9 c)) then { ch with owcTouched := true } else ch) s

end Sys2Proof.Machine
end

