-- ==== Sys2Proof/Machine/Rotation.lean ====
section
/-! DEFINITION. Spare slices (chapter 04): duties (R89), visits (R93 to R99), the pair update (R100), health checks and
retirement (R101 to R105), takeovers (R103), orphans (R104) and held spares (R462). -/

namespace Sys2Proof.Machine

/-- A rational rounded to the nearest whole number, ties away from zero (R61). -/
def roundRat (q : Rat) : Int := roundDiv q.num q.den

/-- A slice takes part in duties: a spare that is not held (R89, R462). -/
def Slice.duty (k : Slice) : Bool := decide (k.role = .spare) && !k.held

/-- The rotating spare of a die. -/
def rotatingSpare (d : Die) : Option Nat := d.slices.findIdx? fun k => k.duty && !k.reserve

/-- The reserve spare of a die. -/
def reserveSpare (d : Die) : Option Nat := d.slices.findIdx? fun k => k.duty && k.reserve

/-- The held spare of a die (R462). -/
def heldSpare (d : Die) : Option Nat := d.slices.findIdx? fun k => decide (k.role = .spare) && k.held

/-- Changes slice k of a die. -/
def Die.upd (k : Nat) (f : Slice → Slice) (d : Die) : Die := { d with slices := updAt f k d.slices }

/-- The reserve spare takes the rotating duty when no spare holds it (R89). -/
def dutyFix (d : Die) : Die :=
  match rotatingSpare d, reserveSpare d with
  | none, some k => d.upd k fun x => { x with reserve := false }
  | _, _ => d

/-- Duties assigned afresh (R89): the lower-numbered spare rotates. -/
def dutyFresh (d : Die) : Die :=
  let first := d.slices.findIdx? fun k => decide (k.role = .spare)
  { d with slices := d.slices.mapIdx fun i k =>
      if k.role = .spare then { k with held := false, reserve := decide (first ≠ some i) } else { k with held := false, reserve := false } }

/-- A slice that becomes a spare with a duty takes the reserve duty beside a rotating spare (R89). -/
def joinDuty (k : Nat) (d : Die) : Die :=
  let taken := (rotatingSpare d).isSome
  d.upd k fun x => { x with held := false, reserve := taken }

/-- Channel number of a position of die g. -/
def chanOf (g p : Nat) : Nat := 32 * g + p

/-- Puts new live pairs of channel c into effect for CIC outputs whose last input lies at or after edge e. -/
def setPairs (c e : Nat) (new : List (Int × Int)) (s : State) : State :=
  onChan c (fun ch => { ch with pairs := new, pairLog := logPush ch.pairs new e ch.pairLog }) s

/-- A swap sample of channel c (R97). -/
def markSwap (c e : Nat) (s : State) : State := onChan c (fun ch => { ch with swaps := (e :: ch.swaps).take 64 }) s

/-- Stops rotation for want of a spare, or reads idle (R107). -/
def phaseIdle (d : Die) : Die := { d with rotPhase := if sparesLeft d = 0 then 4 else 0 }

/-- A slice set idle. -/
def Slice.idle (k : Slice) : Slice := { k with activity := 0, onChan := 0 }

/-- The home slice of a visit back in service with its weights and trim from before the visit. -/
def Slice.restored (v : Visit) (k : Slice) : Slice :=
  { k with weights := v.oldWeights, trimA := v.oldA, trimB := v.oldB, activity := 2, onChan := 0 }

/-- The reserve spare's calibration inside a visit follows the steps of that visit (R99), so it ends with the visit. -/
def Die.calOver (d : Die) : Die :=
  { d with slices := d.slices.map fun k => if k.role = .spare ∧ k.activity = 3 then k.idle else k }

/-- Abandons the visit or ladder slot of a die without a mark on the channel (R79, Table 4.3). -/
def abandonVisit (d : Die) : Die :=
  let d := match d.visit with
    | some v =>
      let d := Die.calOver (d.upd v.spare Slice.idle)
      if v.handed then d.upd v.home (Slice.restored v) else d
    | none => d
  let d := match d.ladder with
    | some l => d.upd l.1 Slice.idle
    | none => d
  phaseIdle { d with visit := none, ladder := none }

/-- The visit counter moves on (R94). Where it returns to 0, a rotating and a reserve spare are to exchange their duties, and the
only spare of a die is to take the next slot for its own calibration. A reserve that takes the rotating duty because its holder
has left it (R89) has no one to exchange with. -/
def advanceVisit (d : Die) : Die :=
  let n := (d.rotNext + 1) % 32
  let d := { d with rotNext := n }
  if n ≠ 0 then d
  else if (rotatingSpare d).isSome && (reserveSpare d).isSome then { d with exchange := true }
  else { d with ladderDue := decide (sparesLeft d = 1) }

/-- Ends a visit: the die idles between visits. -/
def endVisit (done : Bool) (d : Die) : Die :=
  let d := if done then advanceVisit d else d
  phaseIdle { d with visit := none }

/-- Unmatched takeover of position p of die g by slice x at sample h, tainted from sample `from_` (R103). -/
def takeOver (g p x h from_ : Nat) (s : State) : State :=
  let c := chanOf g p
  let ch := chanAt s c
  let s := onSlice g x (fun k => { k with role := .working, home := p, reserve := false, held := false, activity := 2, onChan := 0,
                                          trimA := k.oX - ch.oBase, trimB := 0 }) s
  let s := setPairs c h ch.base s
  failFormed c from_ false (onChan c (addTaint from_ (h + 17)) (markSwap c h s))

/-- The spare that takes a failed slice's channel, in the order of R102; a held spare when the die has no other. -/
def chooseSpare (d : Die) : Option Nat :=
  match reserveSpare d, rotatingSpare d with
  | some k, _ => some k
  | none, some k => some k
  | none, none => heldSpare d

/-- The channel at position p has no slice left (R104). -/
def orphanChannel (g p e : Nat) (s : State) : State :=
  failFormed (chanOf g p) e true <| onChan (chanOf g p) (fun ch => { ch with orphanFrom := some e })
    (onDie g (fun d => { d with orphan := d.orphan ||| 2 ^ p }) s)

/-- Leaves the visit of a die before its spare takes another channel (R102, case 2): a channel that the spare serves
goes back to its home slice at sample h, which is a swap sample. -/
def leaveVisit (g h : Nat) (s : State) : State :=
  match (dieAt s g).visit with
  | some v =>
    let s := onDie g abandonVisit s
    if v.handed then markSwap (chanOf g v.chan) h s else s
  | none => onDie g abandonVisit s

/-- A working slice that serves its channel has failed (R102, case 2; R104). `run` samples before h belong to the
failed run. -/
def serveFailed (g p run h : Nat) (s : State) : State :=
  match chooseSpare (dieAt s g) with
  | none => orphanChannel g p (h - run) s
  | some x =>
    let d := dieAt s g
    let busy := match d.visit with
      | some v => decide (v.spare = x) || decide (v.chan = p)
      | none => match d.ladder with | some l => decide (l.1 = x) | none => false
    let s := if busy then leaveVisit g h s else s
    takeOver g p x h (h - run) s

/-- What follows every retirement: duties, the record, the pennant, and the stop of rotation without a spare
(R89, R101, R107). Without a spare a pair update that waits is dropped: the channels keep their pairs. -/
def afterRetire (g : Nat) (s : State) : State :=
  imageSave (raisePn 1 (onDie g (fun d =>
    let d := dutyFix d
    if sparesLeft d = 0 then { d with rotPhase := 4, pairDue := none } else d) s))

/-- Slice k of die g becomes retired; a spare has no home position. -/
def markRetired (g k : Nat) (s : State) : State :=
  onSlice g k (fun x => { x with role := .retired, reserve := false, held := false, activity := 0, onChan := 0,
                                 home := if x.role = .working then x.home else 0 }) s

/-- Retires slice k of die g (R101, R102); `run` samples of a failed run precede the next sample. A visit
that ends with its home slice counts as completed, one that ends with its spare does not (notes/assumptions/48.md). In case 3 of
R102 W keeps its trim from before the visit, and the live pairs return to the base pairs (notes/assumptions/98.md). -/
def retireSlice (g k run : Nat) (s : State) : State :=
  let d := dieAt s g
  let sl := d.slice k
  let h := edgeNow s
  if sl.role = .retired then s
  else
    let s1 := markRetired g k s
    let s2 := match d.visit with
      | some v =>
        if k = v.home then
          if v.handed then
            onDie g (endVisit true) (onSlice g v.spare (fun x =>
              { x with role := .working, home := v.chan, reserve := false, activity := 2, onChan := 0 }) s1)
          else serveFailed g v.chan run h s1
        else if k = v.spare then
          if v.handed then
            let c := chanOf g v.chan
            let s1 := onSlice g v.home (Slice.restored v) s1
            let s1 := setPairs c h (chanAt s1 c).base s1
            failFormed c (h - run) false (onDie g (endVisit false) (onChan c (addTaint (h - run) (h + 17)) (markSwap c h s1)))
          else onDie g (endVisit false) s1
        else if sl.role = .working then serveFailed g sl.home run h s1 else s1
      | none => if sl.role = .working then serveFailed g sl.home run h s1 else s1
    let s3 := onDie g (fun d => match d.ladder with
      | some l => if l.1 = k then phaseIdle { d with ladder := none } else d
      | none => d) s2
    logServe h s (afterRetire g s3)

/-- A slice that fails at a sample: a visit that ends with it ends the reserve spare's calibration too (R99). -/
def sampleFailed (g k run : Nat) (s : State) : State :=
  let t := retireSlice g k run s
  if (dieAt s g).visit.isSome ∧ (dieAt t g).visit.isNone then onDie g Die.calOver t else t

/-- STUCK_OUTPUT of one slice (R101): not while the die's buffer is disabled. -/
def stuck (g k : Nat) (s : State) : State := if (dieAt s g).refEnable then sampleFailed g k 64 s else s

/-- The comparator latch of the channel that slice k of die g serves or shadows has read set on one of the 16 samples
before h (R46). -/
def latched (s : State) (g k h : Nat) : Bool :=
  let x := sliceAt s g k
  let c := chanOf g (if x.role = .working then x.home else x.onChan)
  (chanAt s c).ovrRuns.any fun p => meetsSpan (h - 16) (h - 1) (p.1, p.2.1)

/-- ARRAY_SATURATION of one slice (R101): only while the slice serves or shadows a channel whose comparator latch reads
clear. -/
def saturated (g k : Nat) (s : State) : State :=
  let a := (sliceAt s g k).activity
  if (dieAt s g).refEnable ∧ (a = 1 ∨ a = 2) ∧ !latched s g k (edgeNow s) then sampleFailed g k 16 s else s

/-- The slice of die g whose failure a command reports, with the failure's effect. -/
def failureOf (g : Nat) : Instr → Option (Nat × (State → State))
  | .stuckOutput p k => if p.val = g then some (k.val, stuck g k.val) else none
  | .arraySaturation p k => if p.val = g then some (k.val, saturated g k.val) else none
  | _ => none

/-- A command reports a failed sample. -/
def isFailure : Instr → Bool
  | .stuckOutput _ _ | .arraySaturation _ _ => true
  | _ => false

/-- The failure of slice k at a sample, after those of lower-numbered slices of the die that wait behind it for the same
sample: no time passes while commands wait (R105). -/
def failSample (g k : Nat) (f : State → State) (s : State) : State :=
  let same := (s.pending.takeWhile isFailure).filterMap (failureOf g)
  f (forNat k (fun i s => match same.find? fun p => decide (p.1 = i) with
    | some p => p.2 s
    | none => s) s)

def execStuckOutput (g : Fin 4) (slice : Fin 34) (s : State) : Result :=
  if live s then done (failSample g.val slice.val (stuck g.val slice.val) s) else .next s

def execArraySaturation (g : Fin 4) (slice : Fin 34) (s : State) : Result :=
  if live s then done (failSample g.val slice.val (saturated g.val slice.val) s) else .next s

/-- 250 ms in units (R93). -/
def visitPeriod : Nat := 64000000000

/-- A visit tick's conditions on die g (R93), as they stand at FRAME_TICK, before what ends at the same tick
(notes/assumptions/48.md). -/
def visitOk (s : State) (g : Nat) : Bool :=
  let d := dieAt s g
  let mode := match s.power.mode with
    | .ready | .run => true
    | .calibrate => !s.cal.mask.testBit g
    | _ => false
  decide (s.time.tw.toNat % visitPeriod = 0) && mode && cfgBool s 0x3010 g && d.refReady && decide (1 ≤ sparesLeft d)
    && d.visit.isNone && d.ladder.isNone && decide ((groupAt s g).owc.state ≠ 2)

/-- A slot spent on a ladder calibration of slice k alone (R99). -/
def startLadder (g k : Nat) (s : State) : State :=
  let v0 := edgeNow s
  onDie g (fun d => { d.upd k (fun x => { x with activity := 3 }) with ladder := some (k, v0), rotPhase := 2 }) s

/-- Starts the visit of the position at ROT_NEXT by spare k (R95, step 1). -/
def startVisit (g k : Nat) (s : State) : State :=
  let v0 := edgeNow s
  onDie g (fun d =>
    let p := d.rotNext
    match homeSlice d p with
    | some w =>
      let x := d.slice w
      { d.upd k (fun y => { y with activity := 1, onChan := p }) with
        rotPhase := 1
        visit := some { chan := p, home := w, spare := k, v0 := v0, phase := 1, swapped := false, fwdDone := false, fwdSkip := false,
                        ladderDone := false, reconnected := false, revDone := false, revKind := 0, fitA := 0, fitB := 0,
                        oldA := x.trimA, oldB := x.trimB, oldWeights := x.weights, newWeights := x.weights, oNew := x.oX,
                        oOld := x.oX, dNew := 1, dOld := 1, refHit := false } }
    | none => advanceVisit d) s

/-- Duties exchange at V0 of a visit (R94). -/
def exchangeDuties (d : Die) : Die :=
  if d.exchange then
    { d with exchange := false, slices := d.slices.map fun k => if k.duty then { k with reserve := !k.reserve } else k }
  else d

/-- ROT_VISIT_START of one die at a tick (R93, R94, R462). The owed calibration of an only spare is the slot that R94 asks for. -/
def visitStart (g : Nat) (s : State) : State :=
  if visitOk s g then
    match heldSpare (dieAt s g) with
    | some k => onDie g (fun d => { d with ladderDue := false }) (startLadder g k s)
    | none =>
      if (dieAt s g).ladderDue then
        match rotatingSpare (dieAt s g) with
        | some k => onDie g (fun d => { d with ladderDue := false }) (startLadder g k s)
        | none => s
      else
        let s := onDie g (fun d => if (reserveSpare d).isSome then exchangeDuties d else { d with exchange := false }) s
        match rotatingSpare (dieAt s g) with
        | some k => startVisit g k s
        | none => s
  else s

/-- Sums over the valid blocks of a fit window (R96), of the 64-sample sums 64·p_k and 64·q_k. -/
structure FitSums where
  n  : Nat
  p  : Int
  q  : Int
  pp : Int
  pq : Int
  qq : Int
deriving DecidableEq, Repr

/-- A valid block is taken into the sums. -/
def FitSums.add (f : FitSums) (x : Int × Int) : FitSums :=
  ⟨f.n + 1, f.p + x.1, f.q + x.2, f.pp + x.1 * x.1, f.pq + x.1 * x.2, f.qq + x.2 * x.2⟩

/-- The valid blocks of a window that begins at sample `first`: none of a block's 64 samples belongs to a taint span of the
channel (R96). -/
def validBlocks (taint : List (Nat × Nat)) (first : Nat) (l : List (Int × Int)) : List (Int × Int) :=
  ((l.zipIdx).filter fun x => !taint.any (meetsSpan (first + 64 * x.2) (first + 64 * x.2 + 63))).map (·.1)

/-- The sums of a fit window of `len` blocks of channel c. -/
def fitSums (s : State) (c first len : Nat) (f : FitObs) : FitSums :=
  (validBlocks (chanAt s c).taint first (f.blocks.take len)).foldl FitSums.add ⟨0, 0, 0, 0, 0, 0⟩

/-- 1 + b·2^−30. -/
def trimFactor (b : Int) : Rat := ((2 ^ 30 + b : Int) : Rat) / 2 ^ 30

/-- a = round(P̄ − Q̄ / (1 + b·2^−30)) (R96). -/
def fitOffset (f : FitSums) (b : Int) : Int :=
  roundRat ((f.p : Rat) / (64 * f.n) - (f.q : Rat) / (64 * f.n) / trimFactor b)

/-- The mean square of q_k − (p_k − a)(1 + b·2^−30) over the valid blocks (R96). -/
def fitResidual (f : FitSums) (a b : Int) : Rat :=
  let c := trimFactor b
  let n : Rat := f.n
  let p : Rat := (f.p : Rat) / 64
  let q : Rat := (f.q : Rat) / 64
  ((f.qq : Rat) / 4096 - 2 * c * ((f.pq : Rat) / 4096) + c * c * ((f.pp : Rat) / 4096)
    + 2 * a * c * q - 2 * a * c * c * p + n * a * a * c * c) / n

/-- The variance of p_k over the valid blocks, and its covariance with q_k, in output LSB squared. -/
def fitVar (f : FitSums) : Rat := ((f.pp : Rat) / f.n - (f.p : Rat) / f.n * ((f.p : Rat) / f.n)) / 4096
/-- The covariance of p_k and q_k over the valid blocks. -/
def fitCov (f : FitSums) : Rat := ((f.pq : Rat) / f.n - (f.p : Rat) / f.n * ((f.q : Rat) / f.n)) / 4096

/-- The standard deviation of p_k is at least 2^24 and the least-squares slope of q_k on p_k is off by more than 2 ppm
(R96). -/
def slopeBad (f : FitSums) (b : Int) : Bool :=
  decide ((2 : Rat) ^ 48 ≤ fitVar f) && decide (2 / 1000000 < |fitCov f / fitVar f - trimFactor b|)

/-- A fit fails (R91, R96). -/
def fitBad (f : FitSums) (a b : Int) : Bool :=
  decide ((8192 : Rat) ^ 2 < fitResidual f a b) || slopeBad f b || decide (2 ^ 26 < a.natAbs) || decide (107374 < b.natAbs)

/-- Changes the visit of die g. -/
def onVisit (g : Nat) (f : Visit → Visit) (s : State) : State := onDie g (fun d => { d with visit := d.visit.map f }) s

/-- ROT_FORWARD_FIT (R96, R98): 3,056 blocks. -/
def forwardFit (g : Nat) (f : FitObs) (s : State) : State :=
  match (dieAt s g).visit with
  | none => s
  | some v =>
    let f := fitSums s (chanOf g v.chan) (v.v0 + 8192) 3056 f
    if v.phase ≠ 1 ∨ v.fwdDone then s
    else if 2 * f.n < 3056 then onVisit g (fun v => { v with fwdDone := true, fwdSkip := true }) s
    else
      let b := ((dieAt s g).slice v.home).trimB
      let a := fitOffset f b
      if fitBad f a b then
        onDie g (fun d => { d with fitFail := satInc d.fitFail })
          (onVisit g (fun v => { v with fwdDone := true, swapped := true }) s)
      else
        onSlice g v.spare (fun k => { k with trimA := a, trimB := b })
          (onVisit g (fun v => { v with fwdDone := true, fitA := a, fitB := b }) s)

def execRotForwardFit (g : Fin 4) (fit : FitObs) (s : State) : Result :=
  if live s then done (forwardFit g.val fit s) else .next s

/-- The reserve spare begins the ladder calibration that it runs in every visit slot (R89, step 5 of Table 4.1). -/
def reserveLadder (d : Die) : Die :=
  match reserveSpare d with
  | some r => d.upd r fun k => { k with activity := 3 }
  | none => d

/-- ROT_HANDOVER at h1 (R95, step 4; R98). -/
def handover (g : Nat) (s : State) : State :=
  match (dieAt s g).visit with
  | none => s
  | some v =>
    if v.phase ≠ 1 ∨ !v.fwdDone then s
    else if v.fwdSkip then
      onDie g (fun d => reserveLadder (endVisit true { d.upd v.spare Slice.idle with skipped := satInc d.skipped })) s
    else
      let t := onDie g (fun d =>
        let d := reserveLadder d
        let d := if v.swapped then d.upd v.spare (fun k => { k with activity := 3, onChan := 0 })
          else (d.upd v.spare fun k => { k with activity := 2 }).upd v.home fun k => { k with activity := 3 }
        { d with rotPhase := 2, visit := some { v with phase := 2 } }) s
      if v.swapped then t else logServe (v.v0 + 204800) s (markSwap (chanOf g v.chan) (v.v0 + 204800) t)

def execRotHandover (g : Fin 4) (s : State) : Result :=
  if live s then done (handover g.val s) else .next s

/-- A measured weight lies outside the limit of R80: 3 %, or 5 % for W_D. -/
def weightBad (fac w : Nat) (limit : Nat) : Bool :=
  decide (limit * fac < 100 * ((w : Int) - fac).natAbs)

/-- Some weight of slice k of die g fails R80. -/
def weightsBad (g k : Nat) (ws : List Nat) : Bool :=
  (List.range 19).any fun i => weightBad (factoryWeight g k i) (ws.getD i 0) (if i = 18 then 5 else 3)

/-- Some verification level is in error by more than 2 ppm of full scale, 2^31 output LSB (R80). -/
def levelsBad (errors : List Int) : Bool := errors.any fun e => decide (2 * 2 ^ 31 < 1000000 * e.natAbs)

/-- The checks of Table 4.2 at the end of a ladder calibration. -/
def ladderBad (s : State) (g k : Nat) (o : LadderObs) : Bool :=
  let sl := sliceAt s g k
  let recent := match sl.oXAt with
    | some t => decide (s.time.pt - t ≤ 60 * 256000000000)
    | none => false
  weightsBad g k o.weights || levelsBad o.errors || (recent && decide (4096 < (o.oNew - sl.oX).natAbs))

/-- A slice loads the weights and the offset of a ladder calibration. -/
def loadLadder (now : Nat) (o : LadderObs) (k : Slice) : Slice :=
  { k with weights := o.weights.take 19, oX := o.oNew, oXAt := some now }

/-- End of the ladder calibration of the slice that a visit released, or of the spare in its place (R98, R99). A visit whose spare
fails in that place counts as completed (notes/assumptions/98.md). -/
def visitLadder (g k : Nat) (v : Visit) (o : LadderObs) (s : State) : State :=
  if v.refHit then
    let oX := (sliceAt s g k).oX
    onVisit g (fun v => { v with ladderDone := true, oNew := oX, oOld := oX, dNew := 1, dOld := 1 }) s
  else if ladderBad s g k o then
    let t := retireSlice g k 0 s
    if v.swapped then onDie g advanceVisit t else t
  else
    let now := s.time.pt
    onSlice g k (fun x => { x with oX := o.oNew, oXAt := some now })
      (onVisit g (fun v => { v with ladderDone := true, newWeights := o.weights.take 19, oNew := o.oNew, oOld := o.oOld, dNew := o.dNew,
                                    dOld := o.dOld }) s)

/-- The change to the spare reference lies at or after sample e, the beginning of a ladder calibration (Table 4.3). -/
def refHitSince (e : Nat) (s : State) : Bool := decide (s.ref.inUse = 1) && decide (e ≤ s.ref.edge)

/-- ROT_LADDER_CAL_END (R99, R101, R462). What a change of reference does to a slot of its own and to the reserve spare's calibration
is the model's choice (notes/assumptions/98.md). -/
def ladderEnd (g k : Nat) (o : LadderObs) (s : State) : State :=
  let d := dieAt s g
  let now := s.time.pt
  let mine := match d.visit with
    | some v => decide (v.phase = 2) && !v.ladderDone && decide (k = if v.swapped then v.spare else v.home)
    | none => false
  if mine then match d.visit with | some v => visitLadder g k v o s | none => s
  else if (match d.ladder with | some l => decide (l.1 = k) | none => false) then
    let hit := match d.ladder with | some l => refHitSince l.2 s | none => false
    if hit then onDie g (fun d => phaseIdle { d.upd k Slice.idle with ladder := none }) s
    else if ladderBad s g k o then retireSlice g k 0 s
    else onDie g (fun d =>
      let d := d.upd k fun x => Slice.idle (loadLadder now o x)
      let d := if (d.slice k).held then joinDuty k d else d
      phaseIdle { d with ladder := none }) s
  else if (d.slice k).role = .spare ∧ (d.slice k).activity = 3 then
    let hit := match d.visit with | some v => v.refHit | none => refHitSince (edgeNow s - 614400) s
    if ladderBad s g k o then retireSlice g k 0 s
    else if hit then onSlice g k Slice.idle s
    else onSlice g k (fun x => Slice.idle (loadLadder now o x)) s
  else s

def execRotLadderCalEnd (g : Fin 4) (slice : Fin 34) (obs : LadderObs) (s : State) : Result :=
  if live s then done (ladderEnd g.val slice.val obs s) else .next s

/-- A slice that left its channel becomes a held spare (R462). -/
def Slice.toHeld (k : Slice) : Slice :=
  { k with role := .spare, held := true, reserve := false, home := 0, activity := 0, onChan := 0 }

/-- A change of slice roles in a visit: duties and the record (R82, R89, R354). -/
def roleChange (g : Nat) (s : State) : State := imageSave (onDie g dutyFix s)

/-- ROT_RECONNECT at sample 819,200 (R95, step 9; R98). After a change of reference a spare that ran steps 5 to 8 in place of W takes
no channel (notes/assumptions/98.md). -/
def reconnect (g : Nat) (s : State) : State :=
  match (dieAt s g).visit with
  | none => s
  | some v =>
    if v.phase ≠ 2 ∨ !v.ladderDone then s
    else if v.swapped ∧ v.refHit then onDie g (fun d => endVisit true (d.upd v.spare Slice.idle)) s
    else if v.swapped then
      let h := v.v0 + 819200
      let t := onSlice g v.spare (fun k => { k with weights := v.newWeights }) s
      let t := onSlice g v.home Slice.toHeld (takeOver g v.chan v.spare h h t)
      logServe h s (roleChange g (onDie g (endVisit true) t))
    else
      onDie g (fun d => { d.upd v.home (fun k => { k with weights := if v.refHit then k.weights else v.newWeights, activity := 1 }) with
                          rotPhase := 3, visit := some { v with phase := 3, reconnected := true } }) s

def execRotReconnect (g : Fin 4) (s : State) : Result :=
  if live s then done (reconnect g.val s) else .next s

/-- b from 1 + b·2^−30 = r·(1 + b0·2^−30), r = dOld / dNew (R96, R98). -/
def scaledGain (dOld dNew b0 : Int) : Int := roundRat ((dOld : Rat) / dNew * (2 ^ 30 + b0) - 2 ^ 30)

/-- Step 11 of Table 4.1: the new trim of W is loaded, of a fit (kind 0) or predicted (kind 1, R98). -/
def loadTrim (g w kind : Nat) (a b : Int) (s : State) : State :=
  onSlice g w (fun k => { k with trimA := a, trimB := b })
    (onVisit g (fun v => { v with revDone := true, revKind := kind, fitA := a, fitB := b }) s)

/-- ROT_REVERSE_FIT (R96, R98): 3,008 blocks. -/
def reverseFit (g : Nat) (f : FitObs) (s : State) : State :=
  match (dieAt s g).visit with
  | none => s
  | some v =>
    let f := fitSums s (chanOf g v.chan) (v.v0 + 827392) 3008 f
    if v.phase ≠ 3 ∨ v.revDone then s
    else if 2 * f.n < 3008 then
      loadTrim g v.home 1 (v.oldA + (v.oNew - v.oOld)) (scaledGain v.dOld v.dNew v.oldB) s
    else
      let b := scaledGain v.dOld v.dNew ((dieAt s g).slice v.spare).trimB
      let a := fitOffset f b
      if fitBad f a b then
        onDie g (fun d => { d with fitFail := satInc d.fitFail })
          (onVisit g (fun v => { v with revDone := true, revKind := 2 }) s)
      else loadTrim g v.home 0 a b s

def execRotReverseFit (g : Fin 4) (fit : FitObs) (s : State) : Result :=
  if live s then done (reverseFit g.val fit s) else .next s

/-- ROT_HAND_BACK at h2 (R95, step 12; R98). -/
def handBack (g : Nat) (s : State) : State :=
  match (dieAt s g).visit with
  | none => s
  | some v =>
    let h := v.v0 + 1020928
    let c := chanOf g v.chan
    if v.phase ≠ 3 ∨ !v.revDone then s
    else if v.revKind = 2 then
      logServe h s (roleChange g (onDie g (fun d => endVisit true
        ((d.upd v.spare fun k => { k with role := .working, home := v.chan, reserve := false, activity := 2, onChan := 0 }).upd v.home
          Slice.toHeld)) s))
    else
      let at_ := twAt s (edgePt s h)
      let t := onDie g (fun d =>
        let d := (d.upd v.home fun k => { k with trimA := v.fitA, trimB := v.fitB, activity := 2 }).upd v.spare Slice.idle
        endVisit true { d with
          pairDue := if v.revKind = 0 ∧ !v.refHit then some ⟨v.chan, v.home, v.fitA, v.fitB⟩ else d.pairDue }) s
      logServe h s (onChan c (fun ch => { ch with lastVisit := at_ }) (markSwap c h t))

def execRotHandBack (g : Fin 4) (s : State) : Result :=
  if live s then done (handBack g.val s) else .next s

/-- Target pair of R100 from a base pair, δ and b. -/
def pairTarget (delta b : Int) (p : Int × Int) : Int × Int :=
  (roundDiv ((p.1 - delta) * (2 ^ 30 + b)) (2 ^ 30), roundRat (2 ^ 30 * ((p.2 - b : Int) : Rat) / (2 ^ 30 + b)))

/-- The ranges of CAL_OFFSET and CAL_GAIN (R72). -/
def pairInRange (p : Int × Int) : Bool :=
  decide (-(2 ^ 31) ≤ p.1) && decide (p.1 < 2 ^ 31) && decide (-(2 ^ 23) ≤ p.2) && decide (p.2 < 2 ^ 23)

/-- A change cut to a limit. -/
def limitBy (n : Int) (d : Int) : Int := max (-n) (min n d)

/-- One pair moved towards its target (R100). -/
def pairMove (live_ target : Int × Int) : Int × Int :=
  (live_.1 + limitBy 32 (target.1 - live_.1), live_.2 + limitBy 16 (target.2 - live_.2))

/-- ROT_PAIR_UPDATE (R100). A slice that fails it has no failed run, and the taint of its takeover begins at the takeover
(notes/assumptions/98.md). -/
def pairUpdate (g : Nat) (s : State) : State :=
  match (dieAt s g).pairDue with
  | none => s
  | some d =>
    let s := onDie g (fun x => { x with pairDue := none }) s
    let sl := sliceAt s g d.slice
    if sl.role ≠ .working ∨ sl.home ≠ d.chan then s
    else
      let c := chanOf g d.chan
      let ch := chanAt s c
      let delta := d.a - (sl.oX - ch.oBase)
      let targets := ch.base.map (pairTarget delta d.b)
      if targets.all pairInRange then
        let new := List.zipWith pairMove ch.pairs targets
        let s := setPairs c (edgeNow s) new s
        if new = targets then s else onDie g (fun x => { x with limited := satInc x.limited }) s
      else retireSlice g d.slice 0 s

def execRotPairUpdate (g : Fin 4) (s : State) : Result :=
  if live s then done (pairUpdate g.val s) else .next s

/-- SLICE_ROLE (Table 4.6). -/
def sliceRoleWord (k : Slice) : Nat :=
  match k.role with
  | .working => k.activity * 2 ^ 11 + k.home
  | .spare => 2 ^ 14 + (if k.reserve then 2 ^ 13 else 0) + k.activity * 2 ^ 11 + k.onChan
  | .retired => 2 ^ 15 + k.home

end Sys2Proof.Machine
end

