-- ==== Sys2Proof/Machine/Safe.lean ====
section
/-! DEFINITION. Entry into SAFE: what each unit of the module does with its work in progress (Tables 11.11, 8.8, 5.6
and 6.6, R79, R106, R255, R344). -/

namespace Sys2Proof.Machine

/-- A stream leaves service after its FINAL block (R269). -/
def Stream.stopped (t : Stream) : Stream := { t with running := false, segs := [], avg := .init, parts := [], firstDue := false }

/-- Closes the open block of every running stream at once with FINAL, and stops the streams (Table 11.11). -/
def stopAll (ens : Nat) (s : State) : State :=
  let l := (List.range 16).filter fun st => (streamAt s st).running
  forList l (fun st => onStream st Stream.stopped) (closeBlocks s.conf.cfg ens (l.map fun st => (st, true)) s)

/-- Operations of a direct write that leave a completion record (R253, R343, Table 5.6). -/
def leavesRecord : Op → Bool
  | .hoist | .owc _ | .xfade _ => true
  | .startStreams _ | .stopStreams _ | .trg _ | .stepTime _ => false

/-- A hoist that ends without effect gives its content back to the shadow (R343, R344). -/
def hoistReturn (s : State) : State :=
  { s with conf.shadow := shadowReturn s.conf.shadow (hoistContent s), conf.hoist := none }

/-- Removes every waiting operation, with outcome 4 (R255). -/
def cancelAll (s : State) : State :=
  let l := s.act.sched.filter fun e => e.slot.isSome || leavesRecord e.op
  hoistReturn { forList l (fun e s => oweCompletion (cancelRecord s e 4) s) s with act.sched := [] }

/-- Ends a start-up self-calibration without a result (Table 16.8). -/
def calStop (s : State) : State :=
  let failed := decide (s.cal.state = 2)
  let m := s.cal.mask
  { s with
    dies := s.dies.mapIdx fun g d => if failed && m.testBit g then { Die.serving d with calResult := 3 } else d
    chans := s.chans.map fun c => { c with newPairs := none }
    cal := { s.cal with state := 0, restart := none, fromWarm := false } }

/-- The power state in SAFE, entered at a local time. -/
def Power.toSafe (p : Power) (pt : Nat) : Power :=
  { p with mode := .safe, safeDue := false, warmEnd := if p.mode = .warm then some pt else p.warmEnd }

/-- Entry into SAFE in the present engine cycle, but for the completion and continuation frames, which the cycle forms after
its others (R296). -/
def toSafe (s : State) : State :=
  if s.power.mode = .safe then { s with power.safeDue := false }
  else
    let s := decideOffers s
    let s := stopAll (ensign s) s
    let s := forNat 8 disarmUnit s
    let s := forNat 4 fadeAbort s
    let s := forNat 4 owcAbort s
    let s := calStop (cancelAll s)
    let s := logServe (edgeNow s) s { s with dies := s.dies.map abandonVisit }
    outsLow { s with power := s.power.toSafe s.time.pt }

/-- Entry into SAFE between ticks. -/
def enterSafe (s : State) : State := sendLate (sendCompletions (toSafe s))

end Sys2Proof.Machine
end

