-- ==== Sys2Proof/Machine/Actions.lean ====
section
/-! DEFINITION. Commands that schedule for a tick: timed actions (R245 to R249, R254), stream starts and stops (R268),
trigger arms (R189), hoists (R341, R342), and the discarding of staged entries (R340). -/

namespace Sys2Proof.Machine

/-- OP of a descriptor (Table 10.2). -/
def descOp (d : BitVec 256) : Nat := d.toNat / 2 ^ 248
/-- INSTANT of a descriptor. -/
def descInstant (d : BitVec 256) : TW := BitVec.ofNat 64 (d.toNat / 2 ^ 128)
/-- ARGUMENT of a descriptor. -/
def descArg (d : BitVec 256) : Nat := d.toNat % 2 ^ 128
/-- The reserved fields of a descriptor are 0. -/
def descReserved (d : BitVec 256) : Bool := decide (d.toNat / 2 ^ 240 % 256 = 0) && decide (d.toNat / 2 ^ 192 % 2 ^ 32 = 0)

/-- Argument of TRG_ARM is legal (Table 8.2). -/
def trgArgOk (v : BitVec 16) : Bool := decide (bits v.toNat 15 9 = 0) && decide (bits v.toNat 7 0 ≠ 0)

/-- The operation of a descriptor with its argument in range (Table 10.3). -/
def descDecode (d : BitVec 256) : Option Op :=
  let a := descArg d
  if !descReserved d then none
  else match descOp d with
    | 1 => if a ≠ 0 ∧ a < 2 ^ 16 then some (.startStreams (BitVec.ofNat 16 a)) else none
    | 2 => if a ≠ 0 ∧ a < 2 ^ 16 then some (.stopStreams (BitVec.ofNat 16 a)) else none
    | 3 => if a < 2 ^ 16 ∧ trgArgOk (BitVec.ofNat 16 a) then some (.trg (BitVec.ofNat 16 a)) else none
    | 4 => some .hoist
    | 5 => if a < 2 ^ 32 ∧ owcArgOk (BitVec.ofNat 32 a) then some (.owc (BitVec.ofNat 32 a)) else none
    | 6 => if a < 2 ^ 64 then some (.stepTime (BitVec.ofNat 64 a)) else none
    | 7 => if a < 2 ^ 32 ∧ fadeArgOk (BitVec.ofNat 32 a) then some (.xfade (BitVec.ofNat 32 a)) else none
    | _ => none

/-- Role that an OP code needs (Table 10.3). -/
def descRole (d : BitVec 256) : Role := if descOp d = 6 then .custodian else .operator

/-- The fire tick of a named instant (R247, R24). -/
def fireTick (s : State) (i : TW) : TW :=
  let n := tf s
  if i.toNat < n ∧ 2 * (2 ^ 64 % n) < n then BitVec.ofNat 64 (2 ^ 64 - 2 ^ 64 % n)
  else BitVec.ofNat 64 (i.toNat / n * n)

/-- Lowest free slot of the action table (R249). -/
def freeSlot (s : State) : Option Nat :=
  (List.range 256).find? fun k => s.act.sched.all fun e => decide (e.slot ≠ some k)

/-- Test 7 of Table 10.4: a step is already due at F. -/
def stepDue (s : State) (F : TW) : Bool :=
  s.act.sched.any fun e => decide (e.fire = F) && (match e.op with | .stepTime _ => true | _ => false)

/-- Test 8 of Table 10.4 (R33, R34): the tick at F with the operation. A hoist is the only one of its tick, and the tick is
then of the kind that its content, which is the shadow, makes it. -/
def actionFits (s : State) (op : Op) (F : TW) : Bool :=
  if op = .hoist then
    let a := opsAt s F
    let c := cfgApply s.conf.cfg s.conf.shadow
    let p := tickLoad c true (levelNow s) ((chosenLevel c (levelNow s) a (laterOps s F)).getD 3) a
    !hoistAt s F && decide (a ≤ 32) && decide (p.1 ≤ p.2)
  else tickFits s F 1

/-- Role of a hoist: Custodian while the slot memory names another module (R364). -/
def hoistRole (s : State) : Role := if s.store.slotState = 4 ∨ s.store.slotState = 6 then .custodian else .operator

/-- Tests 2 to 7 of R342 for the tick F, whose time word is w, with the traces of a refusal; 0 when the hoist is
accepted. -/
def hoistJudge (k : BitVec 128) (F w : TW) (s : State) : Nat × State :=
  if s.conf.hoist.isSome then (0x0304, s)
  else
    let x := hoistTests s s.conf.shadow k w (aroundTick s F)
    (x.2, if x.2 = 0 then s else hoistTrace x.1 x.2 s)

/-- Test 9 of Table 10.4: an operation's own conditions. -/
def actionCond (s : State) (op : Op) (F : TW) : Nat :=
  match op with
  | .startStreams m => startCond s (priorTo s F 3) F m
  | .stopStreams m => stopCond s (priorTo s F 2) m
  | .trg a => trgCond s (priorTo s F 4) a
  | .owc a => owcCond s F a
  | .xfade a => fadeCond s (priorTo s F 5) F a (schedFades s (fadeGroup a))
  | .stepTime _ => if s.time.quality = 0 then 0x0301 else 0
  | .hoist => 0

/-- What the acceptance of an operation does at once: a check clears its results, a hoist takes the shadow. -/
def onAccept (op : Op) (k : BitVec 128) (r : Role) (s : State) : State :=
  match op with
  | .owc a => owcClear a s
  | .hoist => hoistTake k r s
  | _ => s

/-- An accepted action takes a slot and a handle (R249). -/
def takeSlot (slot : Nat) (r : Role) (op : Op) (F : TW) (d : BitVec 256) (s : State) : Ans :=
  let q := s.act.lastQ.getD slot 0
  let q := if q = 255 then 1 else q + 1
  let h := q * 256 + slot
  let e : Sched := ⟨some slot, h, d, r, op, F, 0, 0, s.time.tw⟩
  let s := { s with act := { s.act with sched := s.act.sched ++ [e], lastQ := s.act.lastQ.set slot q } }
  ⟨0, octetsOf 2 h ++ octetsOf 8 F.toNat, onAccept op (BitVec.ofNat 128 (descArg d)) r s⟩

/-- Tests 6 to 9 of Table 10.4. -/
def taSchedule (r : Role) (op : Op) (F : TW) (d : BitVec 256) (s : State) : Ans :=
  match freeSlot s with
  | none => refuse 0x040A s
  | some slot =>
    if opCode op = 6 ∧ stepDue s F then refuse 0x0301 s
    else if !actionFits s op F then refuse 0x0406 s
    else
      let j := if op = .hoist then hoistJudge (BitVec.ofNat 128 (descArg d)) F (namedCourse s F) s else (actionCond s op F, s)
      if j.1 ≠ 0 then refuse j.1 j.2 else takeSlot slot r op F d j.2

/-- Write of TA_SUBMIT (R245 to R249). -/
def taSubmit (r : Role) (d : BitVec 256) (s : State) : Ans :=
  if !roleOk r (descRole d) then refuse 0x0105 s
  else if descOp d = 4 ∧ !roleOk r (hoistRole s) then refuse 0x0105 s
  else match descDecode d with
    | none => refuse 0x0201 s
    | some op =>
      let i := descInstant d
      let F := fireTick s i
      if !readyFor s F ∨ calBars s F ∨ s.time.quality = 0 then refuse 0x0301 s
      else if !TW.inWindow s.time.cycTw i then refuse 0x0503 s
      else if TW.diff s.time.cycTw F < 2 * tf s then refuse 0x0501 { s with act.refusedLate := satInc s.act.refusedLate }
      else taSchedule r op F d s

def execTaSubmitStartStreams (r : Role) (desc : BitVec 256) (s : State) : Result := served s (taSubmit r desc)
def execTaSubmitStopStreams (r : Role) (desc : BitVec 256) (s : State) : Result := served s (taSubmit r desc)
def execTaSubmitTrgArm (r : Role) (desc : BitVec 256) (s : State) : Result := served s (taSubmit r desc)
def execTaSubmitHoist (r : Role) (desc : BitVec 256) (s : State) : Result := served s (taSubmit r desc)
def execTaSubmitOwc (r : Role) (desc : BitVec 256) (s : State) : Result := served s (taSubmit r desc)
def execTaSubmitStepTime (r : Role) (desc : BitVec 256) (s : State) : Result := served s (taSubmit r desc)
def execTaSubmitXfade (r : Role) (desc : BitVec 256) (s : State) : Result := served s (taSubmit r desc)

/-- Write of TA_CANCEL (R254, R344). The results that a check cleared at its acceptance stay cleared
(notes/assumptions/82.md). -/
def taCancel (r : Role) (h : BitVec 16) (s : State) : Ans :=
  let e? := s.act.sched.find? fun e => e.slot.isSome && decide (e.handle = h.toNat)
  let need : Role := match e? with | some e => opRole e.op | none => .operator
  if !roleOk r need then refuse 0x0105 s
  else if !([Mode.calibrate, .ready, .run].contains s.power.mode) then refuse 0x0301 s
  else match e? with
    | none => refuse 0x0301 s
    | some e =>
      if TW.diff s.time.cycTw e.fire < tf s then refuse 0x0501 s
      else
        let s := { s with act.sched := s.act.sched.filter fun x => decide (x.slot ≠ e.slot) }
        let s := if e.op = .hoist then hoistReturn s else s
        accept (completeNow (cancelRecord s e 3) s)

def execTaCancel (r : Role) (handle : BitVec 16) (s : State) : Result := served s (taCancel r handle)

/-- Write of STREAM_START (R10, R268, R312). -/
def streamStartWrite (r : Role) (m : BitVec 16) (s : State) : Ans :=
  if !roleOk r .operator then refuse 0x0105 s
  else if m = 0 then refuse 0x0201 s
  else if s.store.slotState = 4 then refuse 0x0604 s
  else if !([Mode.calibrate, .ready, .run].contains s.power.mode) then refuse 0x0301 s
  else
    let F := directTick s
    acceptDirect (.startStreams m) r (startCond s (priorTo s F 3) F m) F s

def execStreamStart (r : Role) (mask : BitVec 16) (s : State) : Result := served s (streamStartWrite r mask)

/-- Write of STREAM_STOP (R268). -/
def streamStopWrite (r : Role) (m : BitVec 16) (s : State) : Ans :=
  gate r .operator (decide (m ≠ 0)) [.ready, .run] s fun s =>
    let F := directTick s
    acceptDirect (.stopStreams m) r (stopCond s (priorTo s F 2) m) F s

def execStreamStop (r : Role) (mask : BitVec 16) (s : State) : Result := served s (streamStopWrite r mask)

/-- Write of TRG_ARM (R189): arms or disarms by its bit 8. -/
def trgArmWrite (r : Role) (v : BitVec 16) (s : State) : Ans :=
  gate r .operator (trgArgOk v) [.calibrate, .ready, .run] s fun s =>
    let F := directTick s
    acceptDirect (.trg v) r (if readyFor s F then trgCond s (priorTo s F 4) v else 0x0301) F s

def execTrgArm (r : Role) (v : BitVec 16) (s : State) : Result := served s (trgArmWrite r v)

def execTrgDisarm (r : Role) (v : BitVec 16) (s : State) : Result := served s (trgArmWrite r v)

/-- Clears the miss counts of unit u (R202). -/
def missClear (u : Nat) (s : State) : State :=
  onUnit u (fun x => { x with missTotal := 0, missBy := List.replicate 8 0, log := [] }) s

/-- Write of TRG_MISS_TOTAL (R202). -/
def missWrite (r : Role) (u : Nat) (v : Nat) (s : State) : Ans :=
  gate r .operator (decide (v = 0)) servedModes s fun s => accept (missClear u s)

def execTrgMissClear (r : Role) (u : Fin 8) (v : BitVec 32) (s : State) : Result := served s (missWrite r u.val v.toNat)

/-- Write of HOIST (R341, R342, R364). -/
def hoistWrite (r : Role) (k : BitVec 128) (s : State) : Ans :=
  gate r (hoistRole s) true [.calibrate, .ready, .run] s fun s =>
    let F := directTick s
    if !readyFor s F ∨ calBars s F then refuse 0x0301 s
    else
      let j := hoistJudge k F (directCourse s) s
      if j.1 ≠ 0 then refuse j.1 j.2
      else ⟨0, octetsOf 8 F.toNat, schedDirect .hoist r F (hoistTake k r j.2)⟩

def execHoist (r : Role) (check : BitVec 128) (s : State) : Result := served s (hoistWrite r check)

/-- Write role of an entry. -/
def writeRole (k : Nat) : Role := match lookup (keyIdx k) (keySub k) with | some row => row.role | none => .operator

/-- Write of SHADOW_DISCARD (R340). -/
def discardWrite (r : Role) (v : BitVec 32) (s : State) : Ans :=
  let sel (k : Nat) : Bool := decide (v = 0xFFFFFFFF) || decide (k = v.toNat)
  if !roleOk r .operator then refuse 0x0105 s
  else if v ≠ 0xFFFFFFFF ∧ bits v.toNat 31 24 ≠ 0 then refuse 0x0201 s
  else if !servedModes.contains s.power.mode then refuse 0x0301 s
  else if (decide (v ≠ 0xFFFFFFFF) && !roleOk r (writeRole v.toNat))
      || s.conf.shadow.any (fun p => sel p.1 && !roleOk r (writeRole p.1)) then refuse 0x0105 s
  else accept { s with conf.shadow := s.conf.shadow.filter fun p => !sel p.1 }

def execShadowDiscard (r : Role) (v : BitVec 32) (s : State) : Result := served s (discardWrite r v)

end Sys2Proof.Machine
end

