-- ==== Sys2Proof/Machine/Memory.lean ====
section
/-! DEFINITION. Memory integrity: failing words of frames (R304 to R307), the DRAM patrol and page retirement (R397,
R398), and the SRAM scrub and row remapping (R399). -/

namespace Sys2Proof.Machine

/-- Words of the common header, which are framing words (R305). -/
def headerWords : Nat := 6

/-- Word w of a frame is a sample word (R305). -/
def Frame.isSample (f : Frame) (w : Nat) : Bool :=
  decide (24 + f.sampleAt ≤ 4 * w) && decide (4 * w < 24 + f.sampleAt + 4 * f.samples)

/-- Word w of a frame takes the value v. -/
def Frame.put (f : Frame) (w v : Nat) : Frame :=
  if w < headerWords then { f with header := (w, v) :: f.header.filter fun p => decide (p.1 ≠ w) }
  else { f with octets := setWord f.octets (w - headerWords) v }

/-- Sample index and channel of a sample word (R306). -/
def Frame.sampleWord (f : Frame) (w : Nat) : Nat × Nat :=
  let i := w - headerWords - f.sampleAt / 4
  (f.firstOut + i / f.chans.length, f.chans.getD (i % f.chans.length) 0)

/-- The word w rewritten as 0x8000_0000 and recorded as poisoned (R306). -/
def Frame.poisoned (f : Frame) (w : Nat) : Frame :=
  let p := f.sampleWord w
  { f.put w 0x80000000 with poison := if f.poison.contains p then f.poison else f.poison ++ [p] }

/-- Word w of a frame as its shadow copy holds it (R307). -/
def Frame.restored (f : Frame) (w : Nat) : Frame :=
  if w < headerWords then
    { f with header := f.shadowHead.filter (fun p => decide (p.1 = w)) ++ f.header.filter fun p => decide (p.1 ≠ w) }
  else { f with octets := setWord f.octets (w - headerWords) (natOf ((f.shadow.drop (4 * (w - headerWords))).take 4)) }

/-- One word of a frame with bit errors (R304, R306, R307), its SRAM row apart. One that passes its check is sent as read
(R316). -/
def wordFault (x : Frame × State) (w : WordFault) : Frame × State :=
  let (f, s) := x
  if f.octetLen < 4 * w.word + 4 then (f, s)
  else match w.unseen with
  | some v => (f.put w.word v.toNat, s)
  | none =>
    let s := { s with buf.parityErrors := satInc s.buf.parityErrors }
    if f.isSample w.word then (f.poisoned w.word, raisePn 9 { s with buf.poisoned := satInc s.buf.poisoned })
    else if w.shadowBad then
      let (v, s) := fresh s
      (f.put w.word (v % 2 ^ 32), raisePn 9 { s with buf.unrecovered := satInc s.buf.unrecovered })
    else (f.restored w.word, { s with buf.shadowReads := satInc s.buf.shadowReads })

/-- The lowest spare part from `base`, `n` of them, that a map neither uses nor has retired. -/
def freeSpare (base n : Nat) (m : List (Nat × Nat)) : Option Nat :=
  ((List.range n).map (base + ·)).find? fun k => m.all fun p => decide (p.1 ≠ k) && decide (p.2 ≠ k)

/-- A map after part k is retired to spare x: what k served goes over to the spare. -/
def remap (k x : Nat) (m : List (Nat × Nat)) : List (Nat × Nat) :=
  (k, x) :: m.map fun p => if p.2 = k then (p.1, x) else p

/-- A failing spare part that serves nothing is retired alone. -/
def retireTo (base : Nat) (k : Nat) (free : Option Nat) (m : List (Nat × Nat)) : Option Nat :=
  if base ≤ k ∧ m.all (fun p => decide (p.2 ≠ k)) then some k else free

/-- Retires a DRAM page (R398, R401); without a spare it stays in service. A word that could not be corrected is copied
with a failing check code. -/
def retirePage (k : Nat) (word : Option Nat) (s : State) : State :=
  let m := s.health.spare.dramMap
  if m.any (fun p => decide (p.1 = k)) then s
  else match retireTo dramSpareBase k (freeSpare dramSpareBase 2048 m) m with
    | some x =>
      let bad := (word.map fun w => (x, w)).toList ++ s.health.dram.bad
      keepSave (raisePn 1 { s with health := { s.health with
        spare := { s.health.spare with dramMap := remap k x m }, dram := { s.health.dram with bad := bad } } })
    | none => s

/-- One DRAM error, met by the patrol or by another read (R397, R398). A word that was copied with a failing check code
fails at its next read. -/
def dramError (e : MemError) (s : State) : State :=
  let d := s.health.dram
  if e.uncorrectable || d.bad.contains (e.unit, e.word) then
    let d := { d with uncorrected := satInc d.uncorrected, bad := d.bad.filter (· ≠ (e.unit, e.word)) }
    retirePage e.unit (some e.word) (raisePn 9 { s with health.dram := d })
  else
    let earlier := d.seen.any fun x => decide (x.1 = e.unit) && decide (x.2.1 = e.word) && decide (x.2.2 ≠ d.pass)
    let seen := (e.unit, e.word, d.pass) :: d.seen.filter fun x => !(decide (x.1 = e.unit) && decide (x.2.1 = e.word))
    let many := 4 ≤ seen.countP fun x => decide (x.1 = e.unit) && decide (x.2.2 = d.pass)
    let s := { s with health.dram := { d with corrected := satInc d.corrected, seen := seen } }
    if earlier ∨ many then retirePage e.unit none s else s

/-- What SECDED makes of a word's errors: it passes none of them (R316), and the word lies in no SRAM row. -/
def WordFault.secded (w : WordFault) : WordFault := { w with unseen := none, row := none }

/-- Row groups of the DRAM (R397). -/
def dramGroups : Nat := 16896
/-- Slices of one SRAM pass (R399). -/
def sramSlices : Nat := 512

/-- One slice of a patrol or scrub with passes of n slices. -/
def patrolStep (n : Nat) (t : TW) (p : Patrol) : Patrol :=
  if n ≤ p.pos + 1 then { p with pos := 0, passLast := t, pass := p.pass + 1 } else { p with pos := p.pos + 1 }

/-- A page of the row group that the slice takes, and not retired (R397). -/
def patrolled (s : State) (e : MemError) : Bool :=
  decide (e.unit / 4 = s.health.dram.pos) && s.health.spare.dramMap.all fun p => decide (p.1 ≠ e.unit)

/-- The DRAM patrol of one slice, with the errors of the row group taken (R397). -/
def patrolTick (l : List MemError) (s : State) : State :=
  let s := forList (l.filter (patrolled s)) dramError s
  { s with health.dram := patrolStep dramGroups s.time.tw s.health.dram }

/-- Remaps an SRAM row (R399, R401). -/
def remapRow (k : Nat) (s : State) : State :=
  let m := s.health.spare.sramMap
  if m.any (fun p => decide (p.1 = k)) then s
  else match retireTo sramSpareBase k (freeSpare sramSpareBase 48 m) m with
    | some x => keepSave (raisePn 1 { s with health.spare := { s.health.spare with sramMap := remap k x m } })
    | none => s

/-- 24 hours of tw. -/
def dayUnits : Int := 22118400000000000

/-- A failing word of an SRAM row, and the remapping of the row (R399). -/
def rowFault (row word : Nat) (bad : Bool) (s : State) : State :=
  let d := s.health.sram
  let t := s.time.tw
  let again := d.seen.any fun x => decide (x.1 = row) && decide (TW.diff (BitVec.ofNat 64 x.2.2) t ≤ dayUnits)
  let s := { s with health.sram := { d with seen := (row, word, t.toNat) :: d.seen.filter fun x => decide (x.1 ≠ row) } }
  if bad ∨ again then remapRow row s else s

/-- The scrub's counts of one failing SRAM word, and its row (R399). -/
def sramCount (e : MemError) (bad : Bool) (s : State) : State :=
  let d := s.health.sram
  let d := if bad then { d with uncorrected := satInc d.uncorrected } else { d with corrected := satInc d.corrected }
  rowFault e.unit e.word bad { s with health.sram := d }

/-- A failing word of a frame cannot be corrected: a sample word, or a framing word whose copy fails too. -/
def beyondShadow (f : Frame) (w : WordFault) : Bool := w.unseen.isNone && (f.isSample w.word || w.shadowBad)

/-- A word of a frame that a read meets with bit errors: the word, and its row when the check fails (R304, R399). -/
def readWord (x : Frame × State) (w : WordFault) : Frame × State :=
  let r := wordFault x w
  match w.row, w.unseen with
  | some k, none => (r.1, rowFault k w.word (beyondShadow x.1 w) r.2)
  | _, _ => r

/-- What a read of a frame meets (R304 to R307, R397). -/
def readFrame (o : ReadObs) (f : Frame) (s : State) : Frame × State :=
  o.words.foldl readWord (f, forList o.dram dramError s)

/-- The marker that stands in for the record at a position: that of the frame of the record that follows (R399). -/
def markerFor (r : Ring) (pos : Nat) (free : Nat) : Nat :=
  let own := ((((r.recs.take (pos + 1)).reverse).find? isMarker).or r.base).getD free
  match r.recs[pos + 1]? with
  | some w => if isMarker w then w else own
  | none => own

/-- An uncorrectable word of a ring (R399). -/
def ringLose (pos free : Nat) (r : Ring) : Ring :=
  if pos < r.recs.length then { r with lost := satInc r.lost, recs := r.recs.set pos (markerFor r pos free) } else r

/-- Changes the frame at a position of a list of frames under a fault. -/
def faultAt (pos : Nat) (w : WordFault) (l : List Frame) (s : State) : List Frame × State :=
  match l[pos]? with
  | some f => let x := readWord (f, s) w; (l.set pos x.1, x.2)
  | none => (l, s)

/-- The check of the words of frames that have moved to the reserve region since the latest tick (R304). -/
def spillCheck (l : List (Fin 3 × Nat × WordFault)) (s : State) : State :=
  let s := forList l (fun p s =>
    let q := s.buf.res.getD p.1.val []
    if (q[p.2.1]?.map Frame.moved).getD false then
      let r := faultAt p.2.1 p.2.2 q s
      { r.2 with buf.res := r.2.buf.res.set p.1.val r.1 }
    else s) s
  { s with buf.res := s.buf.res.map (·.map fun f => { f with moved := false }) }

/-- A failing word of the stream buffer or the assembly area that lies in no frame (R399). -/
def emptyWord (e : MemError) (s : State) : State :=
  if e.uncorrectable then raisePn 9 (sramCount e true s) else sramCount e false s

/-- One failing word that the scrub finds (R399). -/
def sramError (a : SramArea) (e : MemError) (s : State) : State :=
  match a with
  | .entered pos w =>
    match s.buf.sbuf[pos]? with
    | some x =>
      let r := wordFault (x.frame, s) w
      sramCount e (beyondShadow x.frame w) { r.2 with buf.sbuf := r.2.buf.sbuf.set pos { x with frame := r.1 } }
    | none => emptyWord e s
  | .assembly q pos w =>
    let l := s.buf.asm.getD q.val []
    match l[pos]? with
    | some f =>
      let r := wordFault (f, s) w
      sramCount e (beyondShadow f w) { r.2 with buf.asm := r.2.buf.asm.set q.val (l.set pos r.1) }
    | none => emptyWord e s
  | .auxRing pos =>
    if e.uncorrectable then
      let (v, s) := fresh s
      raisePn 9 (sramCount e true { s with aux.ring := ringLose pos (3 * 2 ^ 62 + v % 2 ^ 62) s.aux.ring })
    else sramCount e false s
  | .evRing pos =>
    if e.uncorrectable then
      let (v, s) := fresh s
      raisePn 9 (sramCount e true { s with ev.ring := ringLose pos (3 * 2 ^ 62 + v % 2 ^ 62) s.ev.ring })
    else sramCount e false s
  | .tables =>
    if e.uncorrectable then enterSafe (raisePn 9 (sramCount e true s)) else sramCount e false s
  | .unused => emptyWord e s

/-- The SRAM scrub of one slice, with the failing words of the words taken (R399). -/
def scrubTick (l : List (SramArea × MemError)) (s : State) : State :=
  let s := forList l (fun p => sramError p.1 p.2) s
  { s with health.sram := patrolStep sramSlices s.time.tw s.health.sram }

end Sys2Proof.Machine
end

