-- ==== Sys2Proof/Machine/Buffers.lean ====
section
/-! DEFINITION. The way of a sequenced frame through the stores: entry (R297), transmission and credit (R266, R275 to
R277, R300), retransmission (R278, R301), acknowledgement and release (R276, R299, R302), and refill (R309). -/

namespace Sys2Proof.Machine

/-- Octets that a frame takes on the line, with preamble and gap (R290). -/
def wireLen (s : State) (len : Nat) : Nat :=
  20 + max 64 (14 + (if cfgAt s 0x4A00 1 = 0 then 0 else 4) + 24 + len + 4)

/-- Declared share of port p in octets per frame (R313). -/
def shareOctets (s : State) (p : Nat) : Nat := cfgAt s 0x4902 p * cTfUs s.conf.cfg / 8

/-- Control allowance per frame (R288). -/
def ctlAllowance : Nat := 2048

/-- MODULE_MAC. -/
def moduleMac : BitVec 48 := BitVec.ofNat 48 (factoryNat 0x7002 0 6)

/-- An Axind payload in its Ethernet frame (R262), up to the frame check sequence and padded to the minimum size of IEEE
802.3. -/
def etherFrame (s : State) (payload : List Nat) : List Nat :=
  let vlan := cfgAt s 0x4A00 1
  let f := octetsOf 6 (cfgAt s 0x4A00 3) ++ octetsOf 6 moduleMac.toNat
    ++ (if vlan = 0 then [] else [0x81, 0x00] ++ octetsOf 2 (cfgAt s 0x4A00 2 * 2 ^ 13 + vlan))
    ++ octetsOf 2 (cfgAt s 0x4A00 0) ++ payload
  f ++ List.replicate (60 - f.length) 0

/-- An answer of n octets fits what is left of an allowance; one larger than the whole of it takes an untouched one
(notes/assumptions/79.md). -/
def fitsIn (left full n : Nat) : Bool := decide (n ≤ left) || (decide (full < n) && decide (left = full))

/-- Entries of the poisoned words of a segment, and of the flags that its outputs have taken since it was formed, as R274
lays them down (R306). -/
def addedEntries (f : Frame) : List Nat :=
  let flags := (List.range (f.samples / f.chans.length)).map fun j => f.chans.map fun c =>
    f.marks.foldl (fun x m => if m.1 = f.firstOut + j ∧ m.2.1 = c then x ||| m.2.2 else x)
      (if f.poison.contains (f.firstOut + j, c) then 4 else 0)
  (exceptions f.chans flags).map fun e => e + f.firstOut * 2 ^ 32

/-- The payload that a transmission carries: with the entries added since it was formed, beyond the allowance. -/
def Frame.sentOctets (f : Frame) : List Nat :=
  if f.poison.isEmpty && f.marks.isEmpty then f.octets
  else
    let l := addedEntries f
    f.octets.take 66 ++ octetsOf 2 (natOf ((f.octets.drop 66).take 2) + l.length) ++ f.octets.drop 68
      ++ l.flatMap (octetsOf 8)

/-- A sequenced frame as it is sent with an SSN: words of the common header that could not be restored go as read
(R300, R307). -/
def sequenced (s : State) (f : Frame) (ssn : BitVec 32) : List Nat :=
  f.header.foldl (fun l p => setWord l p.1 p.2) (commonHeader s f.typ 0 0 ssn.toNat f.sentOctets.length) ++ f.sentOctets

/-- Credit units of a frame (R275). -/
def Frame.units (f : Frame) : Nat := ceilDiv (24 + f.sentOctets.length) 512

/-- SEG_IN_FLIGHT (R275). -/
def segInFlight (s : State) : Nat := s.buf.sbuf.countP fun e => e.sent && !e.acked

/-- Every entered frame has begun its first transmission. -/
def noneWaiting (s : State) : Bool := s.buf.sbuf.all fun e => e.sent

/-- Class queue q holds nothing. -/
def queueEmpty (s : State) (q : Nat) : Bool := (s.buf.asm.getD q []).isEmpty && (s.buf.res.getD q []).isEmpty

/-- Class queue whose head is to be entered (R297): the highest class, class 5 within its allowance. -/
def enterQueue (s : State) : Option Nat :=
  (List.range 3).find? fun q => !queueEmpty s q && (decide (q ≠ 1) ||
    (match (s.buf.asm.getD 1 []).head? with
     | some f => decide (wireLen s f.octets.length ≤ s.link.ctlLeft)
     | none => true))

/-- A frame enters the stream buffer (R297): the entry logic presents its lines from this engine cycle on, one in each
(R299). -/
def enterFrame (f : Frame) (s : State) : State :=
  let lines := ceilDiv (24 + f.octets.length) 64
  let e : Entered :=
    { frame := f, line := s.buf.write, lines := lines, unwritten := lines, freed := 0, ssn := 0, credit := 0,
      sent := false, acked := false, sentAt := 0, sentOn := 0 }
  { s with buf := { s.buf with sbuf := s.buf.sbuf ++ [e] } }

/-- SBUF_ENTER (R297, R304). -/
def sbufEnter (o : ReadObs) (s : State) : State :=
  if !noneWaiting s ∨ 192 ≤ segInFlight s then s
  else match enterQueue s with
    | none => s
    | some q =>
      match s.buf.asm.getD q [] with
      | [] => s
      | f :: l =>
        let s := { s with buf.asm := s.buf.asm.set q l }
        let s := if q = 1 then { s with link.ctlLeft := s.link.ctlLeft - wireLen s f.octets.length } else s
        let r := readFrame o f s
        enterFrame r.1 r.2

def execSbufEnter (obs : ReadObs) (s : State) : Result := if live s then done (sbufEnter obs s) else .next s

/-- The entered frame that waits for its first transmission, once it is written. -/
def waiting (s : State) : Option Entered :=
  match s.buf.sbuf.getLast? with
  | some e => if !e.sent && decide (e.unwritten = 0) then some e else none
  | none => none

/-- Cumulative credit of every SSN given so far. -/
def givenCredit (s : State) : BitVec 32 :=
  match (s.buf.sbuf.filter fun e => e.sent).getLast? with
  | some e => e.credit
  | none => s.link.ackCredit

/-- The waiting frame has the credit, beyond the units of every SSN given, and the share for its first transmission (R275,
R277, R313). -/
def mayStart (s : State) (p : Nat) (e : Entered) : Bool :=
  serialLe (givenCredit s + BitVec.ofNat 32 e.frame.units) s.link.creditLimit &&
  decide (wireLen s e.frame.sentOctets.length ≤ (portAt s p).shareLeft)

/-- Changes the entered frame with this SSN, or the waiting frame. -/
def onEntered (which : Entered → Bool) (f : Entered → Entered) (s : State) : State :=
  { s with buf.sbuf := s.buf.sbuf.map fun e => if which e then f e else e }

/-- A part that misses its bound is counted (R289). One octet takes 0.8 ns; the frame ends at the MAC before the gap of 12
octets, and reaches J2 0.051 µs later (Table 11.9). -/
def lateCheck (f : Frame) (n : Nat) (s : State) : State :=
  match f.deadline with
  | some (st, d) =>
    if 5 * d < 5 * (s.time.pt + 13056) + (n - 12) * 1024 then raisePn 7 (onStream st (fun t => { t with late := satInc t.late }) s) else s
  | none => s

/-- First transmission of the waiting frame on port p, as read (R275, R300). -/
def firstSend (p : Nat) (e : Entered) (s : State) : State :=
  let n := wireLen s e.frame.sentOctets.length
  let credit := givenCredit s + BitVec.ofNat 32 e.frame.units
  let ssn := s.link.ssnNext
  let pt := s.time.pt
  let s := emit (.tx p (etherFrame s (sequenced s e.frame ssn))) s
  let s := onEntered (fun x => !x.sent) (fun x => { x with sent := true, ssn := ssn, credit := credit, sentAt := pt, sentOn := p }) s
  let s := { s with link := { s.link with ssnNext := ssn + 1, creditUsed := credit } }
  lateCheck e.frame n (onPort p (fun q => { q with shareLeft := q.shareLeft - n }) s)

/-- The waiting frame is read, and sent when it still has credit as read (R300). -/
def sendWaiting (p : Nat) (o : ReadObs) (e : Entered) (s : State) : State :=
  let r := readFrame o e.frame s
  let s := onEntered (fun x => !x.sent) (fun x => { x with frame := r.1 }) r.2
  let e := { e with frame := r.1 }
  if mayStart s p e then firstSend p e s else s

/-- A frame of class 5 that is not sequenced fits its allowances (R288, R313). -/
def mayControl (s : State) (p len : Nat) : Bool :=
  let n := wireLen s len
  fitsIn s.link.ctlLeft ctlAllowance n && fitsIn (portAt s p).shareLeft (shareOctets s p) n

/-- Charges a frame of class 5 that is not sequenced. -/
def charge (p len : Nat) (s : State) : State :=
  let n := wireLen s len
  onPort p (fun q => { q with shareLeft := q.shareLeft - n }) { s with link.ctlLeft := s.link.ctlLeft - n }

/-- A broadcast frame of the module (R265). -/
def broadcast (s : State) (typ : Nat) (body : List Nat) : List Nat :=
  commonHeader s typ 0xFFFFF (cfgAt s 0x4A00 4) 0 body.length ++ body

/-- Retransmits the next frame from RETX on (R278, R301). -/
def retransmit (p : Nat) (o : ReadObs) (s : State) : State :=
  match s.buf.retx with
  | none => s
  | some r =>
    match s.buf.sbuf.find? fun e => e.sent && decide (e.ssn = r) with
    | none => { s with buf.retx := none }
    | some e =>
      let x := readFrame o e.frame s
      let s := x.2
      let pt := s.time.pt
      let s := onEntered (fun y => y.sent && decide (y.ssn = r)) (fun y => { y with frame := x.1, sentAt := pt, sentOn := p }) s
      let s := emit (.tx p (etherFrame s (sequenced s x.1 r))) s
      let s := onPort p (fun q => { q with retx := satInc q.retx }) s
      let more := s.buf.sbuf.any fun y => y.sent && decide (y.ssn = r + 1)
      { s with buf.retx := if more then some (r + 1) else none,
               link.creditUsed := if serialLt s.link.creditUsed e.credit then e.credit else s.link.creditUsed }

/-- A trigger message of the module leaves port p. -/
def sendMsg (p : Nat) (b : List Nat) (l : List (List Nat)) (s : State) : State :=
  charge p b.length (emit (.tx p (etherFrame s (broadcast s 0x13 b))) (onPort p (fun q => { q with msgs := l }) s))

/-- Octets of an answer's payload: a tag has 32 (R326). -/
def Answer.len (a : Answer) : Nat := a.body.length + (if a.key.isSome then 32 else 0)

/-- The frame of an answer sent now: the tag covers the common header, its HOPS 0, and the body (R326, R332). -/
def answerFrame (s : State) (a : Answer) : List Nat :=
  let m := commonHeader s 0x11 0 0 0 a.len ++ a.body
  m ++ (match a.key with | some k => hmac k m | none => [])

/-- The frame that an answer leaves in: one that has been sent before is sent again unchanged (R328). -/
def answerOctets (s : State) (a : Answer) : List Nat :=
  let kept := s.dict.answers.find? fun x => a.tag16.isSome && decide (x.tag16 = a.tag16)
  match kept.bind Answer.frame with
  | some f => f
  | none => answerFrame s a

/-- A dictionary answer leaves the up port, and its request is no longer in flight (R337). -/
def sendAnswer (p : Nat) (a : Answer) (l : List Answer) (s : State) : State :=
  let f := answerOctets s a
  let keep (x : Answer) : Answer := if a.tag16.isSome ∧ x.tag16 = a.tag16 then { x with frame := some f } else x
  charge p a.len (emit (.tx p (etherFrame s f)) { s with link.own := l, dict.answers := s.dict.answers.map keep })

/-- Classes 4 to 7 of R266 on the up port. -/
def ownTransmit (p : Nat) (o : ReadObs) (s : State) : State :=
  let seq (cls : Nat) : Option Entered := match waiting s with
    | some e => if e.frame.cls = cls ∧ mayStart s p e then some e else none
    | none => none
  match seq 4, seq 5, (portAt s p).msgs, s.link.own, seq 6 with
  | some e, _, _, _, _ => sendWaiting p o e s
  | none, some e, _, _, _ => sendWaiting p o e s
  | none, none, m :: ms, own, six =>
    if mayControl s p m.length then sendMsg p m ms s
    else match own, six with
      | a :: l, some e => if mayControl s p a.len then sendAnswer p a l s else sendWaiting p o e s
      | a :: l, none => if mayControl s p a.len then sendAnswer p a l s else retransmit p o s
      | [], some e => sendWaiting p o e s
      | [], none => retransmit p o s
  | none, none, [], a :: l, six =>
    if mayControl s p a.len then sendAnswer p a l s
    else match six with
      | some e => sendWaiting p o e s
      | none => retransmit p o s
  | none, none, [], [], some e => sendWaiting p o e s
  | none, none, [], [], none => retransmit p o s

/-- The module's own broadcasts on the alternate port. -/
def altTransmit (p : Nat) (s : State) : State :=
  match (portAt s p).msgs with
  | m :: l => if mayControl s p m.length then sendMsg p m l s else s
  | [] => s

/-- FRAME_TRANSMIT (R266): port p is free and takes the next frame. -/
def frameTransmit (p : Nat) (o : ReadObs) (s : State) : State :=
  let q := portAt s p
  if !q.status ∨ (q.role ≠ 1 ∧ q.role ≠ 2) then s
  else match q.breaks, q.fwd with
    | b :: l, _ => emit (.tx p (etherFrame s (broadcast s 0x21 b))) (onPort p (fun x => { x with breaks := l }) s)
    | [], f :: l => emit (.forward p f) (onPort p (fun x => { x with fwd := l }) s)
    | [], [] => if q.role = 1 then ownTransmit p o s else altTransmit p s

def execFrameTransmit (p : Fin 4) (obs : ReadObs) (s : State) : Result :=
  if live s then done (frameTransmit p.val obs s) else .next s

/-- The oldest unacknowledged frame. -/
def oldestUnacked (s : State) : Option Entered := s.buf.sbuf.find? fun e => e.sent && !e.acked

/-- The rewind to ACK_NEXT (R278, R301). -/
def rewind (s : State) : State :=
  match oldestUnacked s with
  | some e => { s with buf.retx := some e.ssn, link.creditUsed := s.link.ackCredit }
  | none => { s with buf.retx := none }

/-- RETX_TIMEOUT (R278): an acknowledgement in the same engine cycle goes before it (R256). -/
def retxTimeout (s : State) : State := if s.link.ackAt = some s.time.cyc then s else rewind s

def execRetxTimeout (s : State) : Result := if live s then done (retxTimeout s) else .next s

/-- An accepted ACK_NEXT (R276, R299, R301). -/
def ackTo (a : BitVec 32) (s : State) : State :=
  let hit (e : Entered) : Bool := e.sent && !e.acked && serialLt e.ssn a
  let l := s.buf.sbuf.filter hit
  let s := onEntered hit (fun e => { e with acked := true }) s
  let credit := (l.getLast?.map fun e => Entered.credit e).getD s.link.ackCredit
  let s := { s with link := { s.link with
    ackNext := a, ackCredit := credit, creditUsed := if serialLt s.link.creditUsed credit then credit else s.link.creditUsed
    ackAt := if a = s.link.ackNext then s.link.ackAt else some s.time.cyc } }
  let s := match s.buf.retx with
    | some r => if serialLt r a then { s with buf.retx := (oldestUnacked s).map Entered.ssn } else s
    | none => s
  forList (l.filterMap fun e => e.frame.frees) (fun f => capRelease f.1 f.2) s

/-- CREDIT_ACK_RECEIVE (R276, R278). -/
def creditAck (a lim : BitVec 32) (nak : Bool) (s : State) : State :=
  let s := if serialLe s.link.ackNext a && serialLe a s.link.ssnNext then ackTo a s else s
  let s := if serialLe s.link.creditLimit lim then { s with link.creditLimit := lim } else s
  if nak then rewind s else s

def execCreditAckReceive (ackNext creditLimit : BitVec 32) (nak : Bool) (s : State) : Result :=
  if live s then done (creditAck ackNext creditLimit nak s) else .next s

/-- SBUF_LINE_RELEASE (R299, R302): one line of the oldest acknowledged frame is freed at MARK, once in an engine cycle. The
line that the entry logic presents in the cycle lands with it (Table 12.1). -/
def lineRelease (s : State) : State :=
  match s.buf.sbuf with
  | e :: l =>
    if e.acked ∧ s.buf.portsAt ≠ some s.time.cyc then
      let rest := if e.lines ≤ e.freed + 1 then l else { e with freed := e.freed + 1 } :: l
      let s := { s with buf := { s.buf with sbuf := rest, mark := (s.buf.mark + 1) % sbufLines, depth := s.buf.depth - 1,
                                            portsAt := some s.time.cyc } }
      landLines (min 1 (unwritten s)) s
    else s
  | [] => s

def execSbufLineRelease (s : State) : Result := if live s then done (lineRelease s) else .next s

/-- The class queue whose oldest reserved frame fits the assembly area (R309). -/
def refillQueue (s : State) : Option Nat :=
  (List.range 3).find? fun q => match s.buf.res.getD q [] with
    | f :: _ => decide (assemblyFill s + f.octetLen ≤ assemblySize)
    | [] => false

/-- RESERVE_REFILL (R309, R304): the frame's framing words are copied again (R307). -/
def refill (o : ReadObs) (s : State) : State :=
  match refillQueue s with
  | some q =>
    match s.buf.res.getD q [] with
    | f :: l =>
      let r := (if f.moved then o.spill else []).foldl readWord (f, { s with buf.res := s.buf.res.set q l })
      let r := readFrame { o with words := o.words.map WordFault.secded } { r.1 with moved := false } r.2
      { r.2 with buf.asm := updAt (· ++ [r.1.copied]) q r.2.buf.asm }
    | [] => s
  | none => s

def execReserveRefill (obs : ReadObs) (s : State) : Result := if live s then done (refill obs s) else .next s

/-- Line of an SSN's frame (R298). -/
def lineOf (s : State) (r : BitVec 32) : Nat :=
  match s.buf.sbuf.find? fun e => e.sent && decide (e.ssn = r) with
  | some e => e.line
  | none => 0xFFFF

/-- SBUF_SEND (R298). -/
def sbufSend (s : State) : Nat :=
  match s.buf.sbuf.getLast? with
  | some e => if e.sent then s.buf.write else e.line
  | none => s.buf.write

/-- QUEUE_OCTETS of class 4 + q (R308). -/
def queueOctets (s : State) (q : Nat) : Nat :=
  ((s.buf.asm.getD q []).map Frame.octetLen).sum + ((s.buf.res.getD q []).map Frame.octetLen).sum

/-- BACKLOG_OLDEST (R309). -/
def backlogOldest (s : State) : TW :=
  match (s.buf.asm.getD 0 [] ++ s.buf.res.getD 0 []).find? fun f => decide (f.typ = 1) with
  | some f => f.blockTw
  | none => 0

end Sys2Proof.Machine
end

