-- ==== Sys2Proof/Machine/ClockSrc.lean ====
section
/-! DEFINITION. The clock sources and the switching of the system reference (R374 to R379), the gating of idle
blocks (R382), and the end of a level change (R384). -/

namespace Sys2Proof.Machine

/-- OCXO_TUNE_NOMINAL (R377). -/
def tuneNominal : Rat := decF32 (factoryNat 0x7040 2 4)

/-- What the source monitor knows of a source (R374). -/
def srcAt (s : State) : Source → SrcState
  | .ocxo => s.clocks.ocxo
  | .refclk10 => s.clocks.refclk
  | .recovered p => s.clocks.recovered.getD p.val ⟨false, false, 0⟩

/-- Changes what is known of a source. -/
def onSrc (src : Source) (f : SrcState → SrcState) (s : State) : State :=
  match src with
  | .ocxo => { s with clocks.ocxo := f s.clocks.ocxo }
  | .refclk10 => { s with clocks.refclk := f s.clocks.refclk }
  | .recovered p => { s with clocks.recovered := updAt f p.val s.clocks.recovered }

/-- The recovered clock of the timing port, while it is running. -/
def linkSource (s : State) : Option Source :=
  match s.ptp.timingPort with
  | some t => if h : t < 4 then (if (srcAt s (.recovered ⟨t, h⟩)).running then some (.recovered ⟨t, h⟩) else none) else none
  | none => none

/-- PORT_STATUS of the timing port reads 1. -/
def timingUp (s : State) : Bool := match s.ptp.timingPort with | some t => (portAt s t).status | none => false

/-- The source that the rule of Table 15.1 gives, without a source that has stopped (R376, R389). -/
def chooseSource (s : State) : Source :=
  let q := s.time.quality
  match cfgAt s 0x5800 0 with
  | 0 =>
    match if (q = 1 ∨ q = 2) ∧ s.ptp.cause = 0 then linkSource s else none with
    | some x => x
    | none => if s.clocks.refclk.qualified ∧ q = 0 then .refclk10 else .ocxo
  | 2 => if s.clocks.refclk.qualified then .refclk10 else .ocxo
  | 3 => if timingUp s then (linkSource s).getD .ocxo else .ocxo
  | _ => .ocxo

/-- The OCXO has stopped and is in use, or R376 falls to it: the module enters SAFE at the next tick, from CALIBRATE, READY
or RUN, and stays in WARM, whose end is then still to come (R379, R380). -/
def ocxoLost (s : State) : State :=
  match s.power.mode with
  | .calibrate | .ready | .run => { s with power.safeDue := true }
  | .warm => { s with cal.fromWarm := false }
  | _ => s

/-- Begins a switch to a source (R378). -/
def switchBegin (dest : Source) (s : State) : State :=
  { s with clocks.switching := some ⟨dest, !(srcAt s s.clocks.inUse).running, s.ptp.timingPort⟩ }

/-- Evaluates R376: a switch begins where the result differs from the source in use. Under rule 1 the tuning voltage
of the OCXO is at its factory value (R377). -/
def refEval (s : State) : State :=
  let s := if cfgAt s 0x5800 0 = 1 then { s with clocks := { s.clocks with tuneHeld := false, tune := tuneNominal } } else s
  let d := chooseSource s
  if s.clocks.switching.isSome ∨ d = s.clocks.inUse then s
  else if d = .ocxo ∧ !s.clocks.ocxo.running then ocxoLost s
  else switchBegin d s

/-- A link source follows a change of the timing port at once (R376); a switch under way completes first (R389). -/
def linkFollow (s : State) : State :=
  match s.clocks.inUse with
  | .recovered p => if s.ptp.timingPort = some p.val then s else refEval s
  | _ => s

/-- Leaves a stopped source, or a stopped destination: R376 is evaluated again, and the switch goes as one from a
stopped source (R378, R389). -/
def refRestart (s : State) : State :=
  let d := chooseSource s
  if d = .ocxo ∧ !s.clocks.ocxo.running then ocxoLost { s with clocks.switching := none }
  else if d = s.clocks.inUse then { s with clocks.switching := none }
  else { s with clocks.switching := some ⟨d, true, s.ptp.timingPort⟩ }

/-- What a stop of the OCXO leaves until BOOT: SAFE is left only through BOOT (R379), and WARM counts no time without it
(R380). -/
def ocxoStopped (s : State) : State :=
  let from_ := if s.power.mode = .warm then some s.time.pt else s.power.ocxoFrom
  { s with clocks.ocxoDown := true, power := { s.power with bootOnly := true, ocxoFrom := from_ } }

/-- The OCXO runs: WARM counts on. -/
def ocxoRuns (s : State) : State :=
  let s := { s with clocks.ocxoDown := false }
  match s.power.ocxoFrom with
  | some t => if s.power.mode = .warm then
      { s with power := { s.power with ocxoFrom := none, ocxoOff := s.power.ocxoOff + (s.time.pt - t) } } else s
  | none => s

/-- A source is declared stopped (R374, R378, R379, R389). -/
def sourceStop (src : Source) (s : State) : State :=
  if !(srcAt s src).running then s
  else
    let s := raisePn 3 { onSrc src (fun _ => ⟨false, false, 0⟩) s with clocks.stops := satInc s.clocks.stops }
    let s := if src = .ocxo then ocxoStopped s else s
    let s := if src = .ocxo ∧ s.clocks.inUse = .ocxo then ocxoLost s else s
    match s.clocks.switching with
    | some w =>
      if w.dest = src then refRestart s
      else if s.clocks.inUse = src then { s with clocks.switching := some { w with fromStopped := true } } else s
    | none => if s.clocks.inUse = src then refRestart s else s

def execSourceStop (src : Source) (s : State) : Result :=
  if s.power.mode.clocked then done (sourceStop src s) else .next s

/-- SOURCE_RUNNING (R374): 1 ms of edges without a gap. -/
def sourceRun (src : Source) (s : State) : State :=
  let s := if src = .ocxo then ocxoRuns s else s
  onSrc src (fun x => { x with running := true }) s

def execSourceRunning (src : Source) (s : State) : Result :=
  if s.power.mode.clocked then done (sourceRun src s) else .next s

/-- REFCLK10_MEASURE (R375): one 1 s measurement against the OCXO. -/
def refclkMeasure (ppb : Int) (s : State) : State :=
  if s.clocks.refclk.running ∧ s.clocks.ocxo.running then
    let inside := decide (-2000 ≤ ppb ∧ ppb ≤ 2000)
    let n := if inside then min (s.clocks.refclk.good + 1) 10 else 0
    { s with clocks.refclk := ⟨true, decide (10 ≤ n), n⟩, clocks.refOffset := some ppb }
  else s

def execRefclk10Measure (ppb : Int) (s : State) : Result :=
  if s.power.mode.clocked then done (refclkMeasure ppb s) else .next s

/-- Mean of the OCXO's tuning voltage over the last 100 s, taken at the frame ticks (R377, notes/assumptions/95.md). -/
def tuneMean (s : State) : Rat :=
  let l := s.clocks.tuneLog
  if l.isEmpty then s.clocks.tune else (l.map (·.2)).sum / l.length

/-- The tuning voltage after a switch to a source (R377): held at its mean in a switch to the OCXO, but at its factory value
under rule 1. -/
def tuneAfter (dest : Source) (s : State) : Bool × Rat :=
  if cfgAt s 0x5800 0 = 1 then (false, tuneNominal)
  else if dest = .ocxo then (true, tuneMean s)
  else (false, s.clocks.tune)

/-- The tuning voltage at a frame tick (R377): what the discipline loop has reached, while a source other than the OCXO is
in use. -/
def tickTune (v : Rat) (s : State) : State :=
  let led := decide (s.clocks.inUse ≠ .ocxo) && decide (cfgAt s 0x5800 0 ≠ 1)
  let tune := if led then v else s.clocks.tune
  let old := s.clocks.tuneLog.takeWhile fun x => decide (s.time.pt < x.1 + 25600000000000)
  { s with clocks := { s.clocks with tune := tune, tuneLog := (s.time.pt, tune) :: old } }

/-- SOURCE_SWITCH_COMPLETE (R377, R378). A change of the timing port during the switch is a second switch directly
after it (R389). -/
def switchComplete (s : State) : State :=
  match s.clocks.switching with
  | none => s
  | some w =>
    let v := tuneAfter w.dest s
    let t := { s with
      clocks.inUse := w.dest
      clocks.switching := none
      clocks.switches := satInc s.clocks.switches
      clocks.lastSwitch := s.time.tw
      clocks.tuneHeld := v.1
      clocks.tune := v.2 }
    if w.port = s.ptp.timingPort then t else refEval t

def execSourceSwitchComplete (s : State) : Result :=
  if s.power.mode.clocked then done (switchComplete s) else .next s

/-- REF_SOURCE (R376). -/
def refSourceCode : Source → Nat
  | .ocxo => 1
  | .refclk10 => 2
  | .recovered _ => 3

/-- SRC_STATE (Table 15.9). -/
def srcStateCode (x : SrcState) : Nat := if x.qualified then 2 else if x.running then 1 else 0

/-- PERF_LEVEL_CHANGE_DONE (R384): the core resumes at the new level. -/
def levelDone (windowNs : Nat) (s : State) : State :=
  match s.clocks.perfTarget with
  | some l => { s with clocks.perfNow := l, clocks.perfTarget := none, clocks.perfLast := some windowNs }
  | none => s

def execPerfLevelChangeDone (windowNs : Nat) (s : State) : Result :=
  if live s then done (levelDone windowNs s) else .next s

/-- GATE_STATE of domain d. -/
def gateOf (s : State) (d : Nat) : Nat := s.clocks.gateState.getD d 0

/-- Sets GATE_STATE of domain d. -/
def gatePut (d v : Nat) (s : State) : State := { s with clocks.gateState := s.clocks.gateState.set d v }

/-- GATE_IDLE_SIGNAL (R382): the clock of a domain with a request pending is gated. -/
def gateIdle (d : Nat) (s : State) : State := if gateOf s d = 1 then gatePut d 2 s else s

def execGateIdleSignal (d : Fin 11) (s : State) : Result :=
  if live s then done (gateIdle d.val s) else .next s

/-- GATE_TIMEOUT (R382): the request fails after 1,024 core cycles. -/
def gateTimeout (d : Nat) (s : State) : State :=
  if gateOf s d = 1 then
    let s := gatePut d 0 s
    raisePn 3 { s with clocks.gateFails := updAt satInc d s.clocks.gateFails }
  else s

def execGateTimeout (d : Fin 11) (s : State) : Result :=
  if live s then done (gateTimeout d.val s) else .next s

/-- Condition of Table 15.3 for domain d under a configuration; domains 8 to 10 hold lanes, units and converters that
are gated each on its own, and one of them is enough. -/
def gateCond (s : State) (c : KV) (d : Nat) : Bool :=
  if d < 4 then !(dieAt s d).refEnable
  else if d < 8 then decide (cv c 0x4901 (d - 4) = 0) || decide (cv c 0x4900 (d - 4) = 0)
  else if d = 8 then (List.range 16).any fun st => !streamDefined c st
  else if d = 9 then (List.range 8).any fun u => decide (cv c 0x3C00 u = 0)
  else (List.range 8).any fun x => decide (cv c 0x5200 x = 0)

/-- The part k of domain d is used under a configuration. -/
def gateUsed (c : KV) (d k : Nat) : Bool :=
  if d < 4 then false
  else if d < 8 then decide (k = 0) && decide (cv c 0x4901 (d - 4) ≠ 0) && decide (cv c 0x4900 (d - 4) ≠ 0)
  else if d = 8 then streamDefined c k
  else if d = 9 then decide (k < 8) && decide (cv c 0x3C00 k ≠ 0)
  else decide (k < 8) && decide (cv c 0x5200 k ≠ 0)

/-- A hoist is due at the next tick, one that an earlier tick has deferred included (R27). -/
def hoistNext (s : State) : Bool :=
  s.act.sched.any fun e => decide (e.op = .hoist) && (decide (e.due ≠ 0) || TW.atOrBefore e.fire s.time.nextTick)

/-- The hoist of the next tick needs a part of domain d that is gated now (R382). -/
def gateNeeded (s : State) (d : Nat) : Bool :=
  hoistNext s &&
    (let c := cfgApply s.conf.cfg (hoistContent s)
     (List.range 16).any fun k => gateUsed c d k && !gateUsed s.conf.cfg d k)

/-- Gating of domain d at a tick: requests are raised, raised again, and withdrawn (R382). -/
def gateTick (d : Nat) (s : State) : State :=
  if !gateCond s s.conf.cfg d || gateNeeded s d then gatePut d 0 s
  else if gateOf s d = 0 then gatePut d 1 s else s

end Sys2Proof.Machine
end

