-- ==== Sys2Proof/Machine/Calibration.lean ====
section
/-! DEFINITION. The voltage references and the start-up self-calibration (chapter 03): buffers (R67 to R69), supervision
and the change to the spare reference (R395, R70, R92), and the calibration (R76 to R85). -/

namespace Sys2Proof.Machine

/-- The first tick at or after t on the grid to come (R24). -/
def firstTickFrom (s : State) (t : TW) : TW :=
  let n := tf s
  let m := ceilDiv t.toNat n * n
  let zero : TW := if n ≤ 2 * (2 ^ 64 % n) then 0 else BitVec.ofNat 64 n
  if m = 0 ∨ 2 ^ 64 ≤ m then zero else BitVec.ofNat 64 m

/-- Channels of die g belong to a running stream. -/
def dieStreams (s : State) (g : Nat) : Bool :=
  (List.range 16).any fun st => (streamAt s st).running && (maskGroups (streamMask s.conf.cfg st)).contains g

/-- REF_READY_SET (R67, R69). -/
def refReadySet (g : Nat) (s : State) : State :=
  let d := dieAt s g
  if d.refEnable ∧ !d.bufOut ∧ s.power.refOven then onDie g (fun d => { d with refReady := true }) s else s

def execRefReadySet (g : Fin 4) (s : State) : Result :=
  if live s then done (refReadySet g.val s) else .next s

/-- Write of REFBUF_ENABLE (R67, R68, R78). -/
def refbufWrite (r : Role) (g : Nat) (v : Nat) (s : State) : Ans :=
  gate r .operator (decide (v ≤ 1)) servedModes s fun s =>
    let d := dieAt s g
    if v = 1 then
      if d.refEnable ∨ s.cal.state ≠ 0 then refuse 0x0301 s
      else accept (gatePut g 0 <| setConv true g <|
        onDie g (fun d => { d with refEnable := true, bufOut := false, enabledAt := s.time.pt, bufOkFrom := s.time.pt }) s)
    else if !d.refEnable then accept s
    else if s.cal.state ≠ 0 ∨ dieStreams s g then refuse 0x0301 s
    else accept (logServe (edgeNow s) s <| gatePut g 1 <| setConv false g <|
      onDie g (fun d => { abandonVisit d with refEnable := false, refReady := false, bufOut := false }) s)

def execRefbufEnableWrite (r : Role) (g : Fin 4) (v : BitVec 8) (s : State) : Result :=
  served s (refbufWrite r g.val v.toNat)

/-- Source of REFDEV of die g (Table 7.1). -/
def refdevSource (g : Nat) : Nat := 0x10 + 10 * g

/-- 5.12 V (R395). -/
def fullScale : Rat := 512 / 100

/-- Factory value of the reference in use: ZENER_PRIMARY_FACTORY or ZENER_SPARE_FACTORY (R66, R450). -/
def zenerFactory (inUse : Nat) : Rat := decF64 (factoryNat 0x7042 inUse 8)

/-- A REFDEV reading at G = 8 lies within ±50 ppm of the factory value of the reference in use (R67), which the system
reference delivers (notes/assumptions/49.md). -/
def bufInside (inUse g : Nat) (code : Int) : Bool :=
  let q := auxValue (refdevSource g) 3 code / zenerFactory inUse
  decide (-(50 / 1000000) ≤ q) && decide (q ≤ 50 / 1000000)

/-- Takes the newest readings of a buffer (R69). -/
def bufReadings (inUse g : Nat) (arrived : List (Nat × Int × Bool)) (now : Nat) (d : Die) : Die :=
  if d.refEnable then
    (arrived.filter fun a => decide (a.1 = refdevSource g)).foldl (fun d a =>
      if bufInside inUse g a.2.1 && !a.2.2 then (if d.bufOut then { d with bufOut := false, bufOkFrom := now } else d)
      else { d with bufOut := true }) d
  else d

/-- The buffer check of one die (R69). -/
def bufCheck (g : Nat) (s : State) : State :=
  let d := dieAt s g
  if d.refReady && d.bufOut then
    let s := raisePn 2 s
    if dieStreams s g then enterSafe s else onDie g (fun d => { d with refReady := false }) s
  else s

/-- V_spare / V_primary from one ZENERDIFF reading at G = 8 (R395). -/
def zenerRatio (code : Int) : Rat := 1 + auxValue 0x38 3 code / fullScale

/-- REF_RATIO_FACTORY. -/
def ratioFactory : Rat := decF64 (factoryNat 0x7041 0 8)

/-- The departure of a reading (R395). -/
def departure (code : Int) : Rat := zenerRatio code / ratioFactory - 1

/-- Mean ratio of readings (R395). -/
def meanRatio (codes : List Int) : Rat := (codes.map zenerRatio).sum / codes.length

/-- The magnitude of q exceeds n ppm. -/
def beyondPpm (q : Rat) (n : Nat) : Bool := decide ((n : Rat) / 1000000 < |q|)

/-- Edge e lies inside steps 5 to 8 of a visit (Table 4.1). -/
def inSteps5to8 (v : Visit) (e : Nat) : Bool := decide (v.v0 + 204800 ≤ e) && decide (e < v.v0 + 819200)

/-- A visit's values after the change to the spare reference at edge e (R92, Table 4.3). -/
def scaleVisit (k : Int) (e : Nat) (v : Visit) : Visit :=
  { v with oldA := scaleK k v.oldA, fitA := scaleK k v.fitA, oNew := scaleK k v.oNew, oOld := scaleK k v.oOld,
           refHit := v.refHit || inSteps5to8 v e }

/-- A die's trims and offsets after the change at edge e (R92). -/
def scaleDie (k : Int) (e : Nat) (d : Die) : Die :=
  { d with slices := d.slices.map fun x => { x with trimA := scaleK k x.trimA, oX := scaleK k x.oX }
           visit := d.visit.map (scaleVisit k e)
           pairDue := d.pairDue.map fun p => { p with a := scaleK k p.a } }

/-- Length of a calibration with n extensions, in units (R77). -/
def calSpan (n : Nat) : Nat := 614400000000 + n * 389120000000

/-- The end tick of a calibration that begins at t, with n extensions (R77, R80). -/
def calEndTick (s : State) (t : TW) (n : Nat) : TW := firstTickFrom s (t + BitVec.ofNat 64 (calSpan n))

/-- The calibration of a selected die starts again after a change of reference before step 6 (R83). -/
def calAgain (s : State) : State :=
  if s.cal.state = 2 ∧ !s.cal.written then
    let t := firstTickFrom s (s.time.tw + BitVec.ofNat 64 (2 * tf s))
    { s with cal.restart := some t, cal.endTick := calEndTick s t 0 }
  else s

/-- The change to the spare reference with factor k (R70, R92). -/
def refChange (k : Int) (s : State) : State :=
  let e := edgeFrom s (s.time.pt + 1)
  let spared (c : Nat) : Bool := decide (s.cal.state = 2) && !s.cal.written && s.cal.mask.testBit (c / 32)
  let t := onChans (fun c ch =>
    let ch := { ch with oBase := scaleK k ch.oBase }
    if spared c then ch else addTaint e (e + 17) ch) s
  let t := { t with dies := t.dies.map (scaleDie k e), ref := { t.ref with inUse := 1, k := k, edge := e } }
  keepSave (calAgain (logSwitch e s (logServe e s t)))

/-- The primary reference is retired (R395). -/
def retirePrimary (codes : List Int) (s : State) : State :=
  let q := meanRatio codes
  let s := { s with ref := { s.ref with ratio := some q, departures := [] }, health.spare := { s.health.spare with primaryRetired := true } }
  refChange (roundRat ((q - 1) * 2 ^ 30)) (raisePn 1 (raisePn 2 s))

/-- Judges one ZENERDIFF reading (R395). -/
def judgeZener (code : Int) (clip : Bool) (s : State) : State :=
  if s.ref.inUse ≠ 0 then s
  else
    let d := departure code
    let zs := (code :: s.ref.zs).take 64
    let s := { s with ref := { s.ref with zs := zs, ratio := some (meanRatio zs) } }
    let l := if beyondPpm d (cfgAt s 0x5C60 0) then (code :: s.ref.departures).take 8 else []
    let s := { s with ref := { s.ref with departures := l } }
    if clip || beyondPpm d 1000 then
      raisePn 2 { s with power := { s.power with safeDue := s.power.safeDue || decide (s.power.mode ≠ .safe), bootOnly := true } }
    else if 8 ≤ l.length then retirePrimary l s
    else s

/-- Task 3 of the background slice: reference supervision and buffer checks (R395, R396, R69). -/
def supervise (arrived : List (Nat × Int × Bool)) (s : State) : State :=
  let s := forList (arrived.filter fun a => decide (a.1 = 0x38)) (fun a => judgeZener a.2.1 a.2.2) s
  let now := s.time.pt
  let s := { s with dies := s.dies.mapIdx fun g d => bufReadings s.ref.inUse g arrived now d }
  forNat 4 bufCheck s

/-- A die mask of CAL_START is legal (R76). -/
def calMaskOk (v : BitVec 8) : Bool := decide (v ≠ 0) && decide (v.toNat < 16)

/-- Write of CAL_START (R76, R77, Table 5.6). -/
def calStartWrite (r : Role) (v : BitVec 8) (s : State) : Ans :=
  gate r .operator (calMaskOk v) [.ready] s fun s =>
    let t := directTick s
    let e := calEndTick s t 0
    let sel (g : Nat) : Bool := v.toNat.testBit g
    if s.cal.state ≠ 0 then refuse 0x0301 s
    else if (List.range 4).any fun g => (sel g && (!(dieAt s g).refReady || decide (fadeState s g ≠ 0))) || decide (owcState s g ≠ 0)
      then refuse 0x0301 s
    else if s.act.sched.any fun x => TW.atOrBefore x.fire e then refuse 0x0301 s
    else
      let cal := { s.cal with state := 1, mask := v.toNat, c0 := t, endTick := e, extensions := 0, restart := none, written := false }
      ⟨0, octetsOf 8 t.toNat, { s with cal := cal }⟩

def execCalStart (r : Role) (mask : BitVec 8) (s : State) : Result := served s (calStartWrite r mask)

/-- Every slice of a die that is not retired calibrates against the ladder (Table 4.6). -/
def Die.onLadder (d : Die) : Die :=
  { d with slices := d.slices.map fun k => if k.role = .retired then k else { k with activity := 3, onChan := 0 } }

/-- A selected die at C0: its visit is abandoned and all its slices calibrate (R79). -/
def calDie (d : Die) : Die :=
  let d := { abandonVisit d with pairDue := none }
  let rot := (rotatingSpare d).isSome
  Die.onLadder { d with slices := d.slices.map fun k => if k.held then { k with held := false, reserve := rot } else k }

/-- Step 1 of Table 3.1 on the dies of a mask, at the present tick. -/
def calBegin (mask : Nat) (s : State) : State :=
  let t := s.time.frameTw
  let x := auxAtC0 t mask { s with dies := s.dies.mapIdx fun g d => if mask.testBit g then calDie d else d }
  let x := forList ((List.range 4).filter mask.testBit) (setConv false) (logServe (edgeNow s) s x)
  { x with
    chans := x.chans.mapIdx fun c ch => if mask.testBit (c / 32) then { ch with newPairs := none } else ch
    cal := { s.cal with state := 2, mask := mask, c0 := t, lastStart := t, endTick := calEndTick s t 0, extensions := 0,
                        restart := none, fromWarm := false, loaded := false, judged := 0, written := false, pairs := []
                        offsets := [] } }

/-- Dies whose buffer is enabled, as a mask (R77). -/
def enabledMask (s : State) : Nat := ((List.range 4).map fun g => if (dieAt s g).refEnable then 2 ^ g else 0).sum

/-- CAL_C0 (R77, R79). -/
def calC0 (s : State) : State :=
  let fresh_ (s : State) : State :=
    outsLow { s with power.mode := .calibrate, cal := { s.cal with retiredOn := 0, failedOn := 0 } }
  if s.cal.fromWarm ∧ s.power.mode = .warm then calBegin (enabledMask s) (fresh_ { s with power.warmEnd := some s.time.pt })
  else if s.cal.state = 1 ∧ s.power.mode = .ready then calBegin s.cal.mask (fresh_ s)
  else s

/-- CAL_RESTART (R83): the restart tick is C0 of the restarted calibration. -/
def calRestart (s : State) : State :=
  if s.power.mode = .calibrate ∧ s.cal.restart.isSome then calBegin s.cal.mask s else s

def execCalRestart (s : State) : Result := if live s then done (calRestart s) else .next s

/-- Time since C0 in units. A first setting of tw leaves C0 and the end tick at their time words (notes/assumptions/50.md). -/
def calAge (s : State) : Int := TW.diff s.cal.c0 s.time.tw

/-- The instant `at_` units after C0 has come for the calibration that runs. -/
def calReached (s : State) (at_ : Nat) : Bool :=
  decide (s.cal.state = 2) && s.cal.restart.isNone && decide ((at_ : Int) ≤ calAge s)

/-- Retires a slice in a calibration (R80): the measurements of a channel that another slice takes are discarded, and the
slices of the die stay on the ladder. -/
def calRetire (g k : Nat) (s : State) : State :=
  let alone := (chooseSpare (dieAt s g)).isNone
  let work := decide ((sliceAt s g k).role = .working)
  let c := chanOf g (sliceAt s g k).home
  let s := { s with cal := { s.cal with
    retiredOn := s.cal.retiredOn ||| 2 ^ g
    failedOn := if work && alone then s.cal.failedOn ||| 2 ^ g else s.cal.failedOn
    pairs := if work then s.cal.pairs.filter fun m => decide (m.ch.val ≠ c) else s.cal.pairs } }
  onDie g Die.onLadder (retireSlice g k 0 s)

/-- Slices of a role on the calibrated dies, by ascending die and number (R105). -/
def calSlices (s : State) (r : SliceRole) : List (Nat × Nat) :=
  ((List.range 4).filter s.cal.mask.testBit).flatMap fun g =>
    ((List.range 34).filter fun k => decide ((sliceAt s g k).role = r)).map fun k => (g, k)

/-- Retires the slices that fail (R80): spares first, so that only healthy ones take over. The second part tells whether
a channel was taken over. -/
def calFail (bad : Nat → Nat → Bool) (s : State) : State × Bool :=
  let s := forList ((calSlices s .spare).filter fun p => bad p.1 p.2) (fun p => calRetire p.1 p.2) s
  let working := (calSlices s .working).filter fun p => bad p.1 p.2
  (forList working (fun p => calRetire p.1 p.2) s, working.any fun p => (chooseSpare (dieAt s p.1)).isSome)

/-- New weights of a slice, from what step 3 has measured. -/
def newWeights (l : List SliceMeas) (g k : Nat) (old : List Nat) : List Nat :=
  match l.find? fun m => decide (m.die.val = g) && decide (m.slice.val = k) with
  | some m => m.weights.take 19
  | none => old

/-- End of step 3 of Table 3.1: the new weights are loaded, and slices whose weights fail are retired (R80). -/
def calStep3 (l : List SliceMeas) (s : State) : State :=
  if s.cal.loaded ∨ !calReached s 215040000000 then s
  else
    let t := { s with dies := s.dies.mapIdx fun g d =>
      if s.cal.mask.testBit g then
        { d with slices := d.slices.mapIdx fun k x => if x.role = .retired then x else { x with weights := newWeights l g k x.weights } }
      else d }
    let t := (calFail (fun g k => weightsBad g k (sliceAt t g k).weights) (logServe (edgeNow s) s t)).1
    { t with cal := { t.cal with loaded := true } }

/-- The pair of R85: offset, and gain from E = α_c · 2^31. -/
def calPair (alpha : Rat) (m : PairMeas) : Int × Int :=
  (roundRat ((m.mPlus + m.mMinus) / 2), roundRat ((2 * (alpha * 2 ^ 31) / (m.mPlus - m.mMinus) - 1) * 2 ^ 30))

/-- α of die g at gain code c. -/
def calAlpha (g c : Nat) : Rat := decF64 (factoryNat (0x7050 + g) c 8)

/-- The measurement of channel c at a gain code. -/
def pairMeas (l : List PairMeas) (c code : Nat) : Option PairMeas :=
  l.find? fun m => decide (m.ch.val = c) && decide (m.code.val = code)

/-- A measured pair fails (R80, R85): out of range, or m0 more than 50 ppm of the range, 2^31 output LSB, away from O_s. -/
def pairBad (m : PairMeas) : Bool :=
  let q := calPair (calAlpha (m.ch.val / 32) m.code.val) m
  !pairInRange q || decide (50 * 2 ^ 31 / 1000000 < |m.mZero - q.1|)

/-- Slice k of die g fails at the end of step 5: by a verification level, or by a pair of its channel (R80). -/
def calBad (s : State) (levels : List LevelMeas) (g k : Nat) : Bool :=
  (levels.any fun m => decide (m.die.val = g) && decide (m.slice.val = k) && levelsBad m.errors)
    || (decide ((sliceAt s g k).role = .working) &&
        s.cal.pairs.any fun m => decide (m.ch.val = chanOf g (sliceAt s g k).home) && pairBad m)

/-- End of step 5 of Table 3.1, and of its repetition in an extension (R80): the slices are judged on their verification
levels and pairs. A channel taken over begins an extension. -/
def calStep5 (pairs : List PairMeas) (levels : List LevelMeas) (s : State) : State :=
  if s.cal.written ∨ s.cal.extensions < s.cal.judged ∨ !calReached s (604160000000 + s.cal.extensions * 389120000000) then s
  else
    let s := { s with cal := { s.cal with judged := s.cal.judged + 1, pairs := pairs ++ s.cal.pairs, offsets := levels ++ s.cal.offsets } }
    let (t, taken) := calFail (calBad s levels) s
    if taken ∧ s.cal.extensions < 2 then
      { t with cal := { t.cal with extensions := s.cal.extensions + 1, endTick := calEndTick s s.cal.c0 (s.cal.extensions + 1) } }
    else t

/-- New pairs of channel c from the measurements; a gain code without one keeps its pair. -/
def calPairs (c : Nat) (meas : List PairMeas) (old : List (Int × Int)) : List (Int × Int) :=
  old.mapIdx fun code p =>
    match pairMeas meas c code with
    | some m => calPair (calAlpha (c / 32) code) m
    | none => p

/-- A slice takes the 0 V offset that the verification measured (R91). -/
def calOffset (now : Nat) (l : List LevelMeas) (g k : Nat) (x : Slice) : Slice :=
  match l.find? fun m => decide (m.die.val = g) && decide (m.slice.val = k) with
  | some m => if x.role = .retired then x else { x with oX := m.offset, oXAt := some now }
  | none => x

/-- Step 6 of Table 3.1: the pairs are computed (R85), the record is written (R82), and k of R70 becomes 0. -/
def calStep6 (s : State) : State :=
  if s.cal.written ∨ s.cal.judged ≤ s.cal.extensions ∨ s.cal.state ≠ 2 then s
  else
    let m := s.cal.mask
    let t := { s with
      dies := s.dies.mapIdx fun g d =>
        if m.testBit g then { d with slices := d.slices.mapIdx fun k x => calOffset s.time.pt s.cal.offsets g k x } else d
      chans := s.chans.mapIdx fun c ch =>
        if m.testBit (c / 32) then { ch with newPairs := some (calPairs c s.cal.pairs ch.pairs) } else ch
      ref.k := 0
      cal := { s.cal with written := true } }
    let t := imageSave (logSwitch (edgeNow s) s t)
    if s.ref.k = 0 then t else keepSave t

/-- A die at the end tick: every slice takes a = b = 0, and duties are assigned afresh (R79, R89, R91, R94). -/
def calDieEnd (d : Die) : Die :=
  let d := { d with slices := d.slices.map fun k => { k with trimA := 0, trimB := 0 } }
  phaseIdle { dutyFresh (Die.serving d) with rotNext := 0, exchange := false, ladderDue := false, pairDue := none }

/-- A channel at the end tick: new pairs for CIC outputs whose first input lies at or after it, and the base of rotation
(R85, R91). -/
def calChan (c e : Nat) (s : State) : State :=
  let new := (chanAt s c).newPairs.getD (chanAt s c).pairs
  let oX := match homeSlice (dieAt s (c / 32)) (c % 32) with
    | some k => (sliceAt s (c / 32) k).oX
    | none => (chanAt s c).oBase
  let s := setPairs c (e + cicN s.conf.cfg (c / 32) * (cicR s.conf.cfg (c / 32) - 1)) new s
  onChan c (fun ch => { ch with base := new, oBase := oX, newPairs := none }) s

/-- Result of die g (R81). A die with an orphaned channel fails (R104). -/
def calVerdict (s : State) (g : Nat) : Nat :=
  if s.cal.failedOn.testBit g ∨ (dieAt s g).orphan ≠ 0 then 3 else if s.cal.retiredOn.testBit g then 2 else 1

/-- CAL_END (R77, R79 to R82, R85, R125). -/
def calEnd (s : State) : State :=
  if s.power.mode ≠ .calibrate ∨ s.cal.state ≠ 2 ∨ s.cal.restart.isSome then s
  else
    let m := s.cal.mask
    let e := edgeNow s
    let sel := (List.range 4).filter m.testBit
    let x := { s with dies := s.dies.mapIdx fun g d => if m.testBit g then calDieEnd d else d }
    let x := logServe e s (forList sel (setConv true) x)
    let x := forNat 128 (fun c x => if m.testBit (c / 32) then calChan c e x else x) x
    let x := forList sel restartChain x
    let bad := sel.any fun g => decide (calVerdict x g = 3)
    let verdicts := x.dies.mapIdx fun g d => if m.testBit g then { d with calResult := calVerdict x g } else d
    let x := { x with dies := verdicts, power.mode := .ready, cal := { x.cal with state := 0, pairs := [], offsets := [] } }
    if bad then enterSafe x else x

/-- CAL_END names its calibration by C0 and end tick: an end that an extension or a restart has moved does not come
(notes/assumptions/14.md). -/
def execCalEnd (c0 endTick : TW) (s : State) : Result :=
  if live s then done (if c0 = s.cal.c0 ∧ endTick = s.cal.endTick then calEnd s else s) else .next s

end Sys2Proof.Machine
end

