-- ==== Sys2Proof/Machine/Events.lean ====
section
/-! DEFINITION. Event inputs, the event ring and trigger messages (chapter 10: R239 to R244, R257, R258). -/

namespace Sys2Proof.Machine

/-- Slots of the event ring (R243). -/
def evRingSize : Nat := 4096

/-- An event input that has seen nothing. -/
def EvInput.init : EvInput := ⟨0, 0, none, false, 0, false⟩

/-- Changes event input x. -/
def onEv (x : Nat) (f : EvInput → EvInput) (s : State) : State := { s with ev.inputs := updAt f x s.ev.inputs }

/-- EV_SKEW of an input and direction (R241). -/
def evSkew (x : Nat) (rising : Bool) : Int :=
  signedOf 32 (factoryNat 0x7210 (2 * x + (if rising then 1 else 0)) 4)

/-- The stamp of an edge in bin b of the engine cycle in progress, on the present course of the time word (R241). -/
def evStamp (s : State) (x b : Nat) (rising : Bool) : TW :=
  BitVec.ofInt 64 ((s.time.cycTw.toNat : Int) + roundDiv ((2 * b + 1) * s.time.cycInc : Nat) (64 * 2 ^ 40) - evSkew x rising)

/-- Local instant of bin b of the engine cycle in progress: 32 units a bin. -/
def evLocal (s : State) (b : Nat) : Nat := s.time.cyc + 32 * b

/-- 8 ns in units. -/
def evDead : Nat := 2048

/-- An edge record without its OFFSET (Table 10.1). -/
def evRecord (x : Nat) (rising glitch tsp : Bool) : Nat :=
  x * 2 ^ 59 + (if rising then 2 ^ 58 else 0) + (if glitch then 2 ^ 57 else 0) + (if tsp then 2 ^ 56 else 0)

/-- A record that the event ring holds, with the marker that precedes it. -/
structure EvSlot where
  word : Nat
  mark : Option Nat
deriving DecidableEq, Repr

/-- The records with the markers that precede them. -/
def evSlots (m : Option Nat) : List Nat → List EvSlot
  | [] => []
  | w :: l => if isMarker w then ⟨w, some w⟩ :: evSlots (some w) l else ⟨w, m⟩ :: evSlots m l

/-- Stamp of a record under a marker. -/
def slotStamp (mark word : Nat) : TW := BitVec.ofNat 64 (mark % 2 ^ 56 * 256 + word % 2 ^ 32)

/-- EPOCH of a marker. -/
def markEpoch (mark : Nat) : Nat := mark / 2 ^ 56 % 64

/-- Number of the engine cycle of a stamp, counted from the one in progress. -/
def cycleOf (s : State) (t : TW) : Int := (TW.diff s.time.cycTw t * 2 ^ 40) / s.time.cycInc

/-- The record goes after one of a stamp, an epoch and an input: a later epoch, a later engine cycle, or the same cycle and
a higher input (R243). A marker goes where its records go. -/
def slotAfter (s : State) (e : EvSlot) (mark : Nat) (t : TW) (x : Nat) : Bool :=
  isMarker e.word ||
  match e.mark with
  | none => false
  | some m =>
    let d := (markEpoch m + 64 - markEpoch mark) % 64
    let c := cycleOf s (slotStamp m e.word)
    if d ≠ 0 then decide (d < 32)
    else decide (cycleOf s t < c) || (decide (cycleOf s t = c) && decide (x < e.word / 2 ^ 59 % 8))

/-- The records at the end of the ring that go after a new one, oldest first; those that a write of TIME_EPOCH has fixed stay
before it. -/
def evLater (s : State) (mark : Nat) (t : TW) (x : Nat) (l : List EvSlot) : List EvSlot :=
  ((l.drop s.ev.fixed).reverse.takeWhile fun e => slotAfter s e mark t x).reverse

/-- Writes a record of input x at its place in the order of R243. -/
def evInsert (s : State) (mark : Nat) (t : TW) (x full : Nat) (r : Ring) : Ring :=
  let l := evSlots r.base r.recs
  let late := evLater s mark t x l
  if evRingSize ≤ r.recs.length ∨ late.all (fun e => isMarker e.word) then ringUnder evRingSize mark full r
  else
    let keep := l.take (l.length - late.length)
    let r := { r with recs := keep.map (·.word), marker := (keep.getLast?.bind (·.mark)) }
    (late.filter fun e => !isMarker e.word).foldl (fun r e => ringUnder evRingSize (e.mark.getD mark) e.word r)
      (ringUnder evRingSize mark full r)

/-- Writes a stamped edge of input x into the event ring, and notes it for telemetry (R243, R244). -/
def evWrite (tick : TW) (epoch : BitVec 16) (t : TW) (x word : Nat) (s : State) : State :=
  let old := s.ev.ring.recs
  let r := evInsert s (markerRecord tick epoch) t x (withOffset tick t word) s.ev.ring
  let same := ((old.zip r.recs).takeWhile fun p => decide (p.1 = p.2)).length
  { s with ev.ring := r,
           ev.unsent := if cfgBool s 0x5210 5 then s.ev.unsent.take (s.ev.unsent.length - (old.length - same)) ++ r.recs.drop same
                        else s.ev.unsent }

/-- Offers an event-input edge to the units that watch the input in its direction (R185, R186). -/
def evOffer (x : Nat) (rising : Bool) (ev : TrgEvent) (s : State) : State :=
  forNat 8 (fun u s =>
    let edge := cfgAt s 0x3C04 u
    if cfgAt s 0x3C02 u = 4 ∧ cfgAt s 0x3C03 u = x ∧ edge ≠ (if rising then 1 else 0) then trgOffer u ev s else s) s

/-- An edge of input x at local time `now`, with its stamp on the present course of the time word (R240 to R243). -/
def evTake (x : Nat) (rising : Bool) (stamp : TW) (now : Nat) (s : State) : State :=
  let mode := cfgAt s 0x5200 x
  let i := s.ev.inputs.getD x .init
  if mode = 0 then s
  else if (match i.lastPt with | some p => decide (now < p + evDead) | none => false) then
    onEv x (fun i => { i with glitches := satInc i.glitches, dropped := true }) s
  else
    let g := frameOf s stamp
    let t := stampIn s g stamp
    let s := onEv x (fun i => { i with count := wrapInc i.count, last := t, lastPt := some now, dropped := false }) s
    let s := if mode = 2 then evWrite g.tw g.epoch t x (evRecord x rising i.dropped g.suspect) s else s
    evOffer x rising ⟨t, g.epoch, g.shift, none⟩ s

/-- EV_EDGE: an edge whose stamp lies at or after the next tick waits for the frame that the tick begins (R22, R26). -/
def evEdge (x b : Nat) (rising : Bool) (s : State) : State :=
  let s := onEv x (fun i => { i with level := rising }) s
  let t := evStamp s x b rising
  if TW.atOrBefore s.time.nextTick t then
    { s with time.late := s.time.late ++ [.edge x rising t (evLocal s b) s.shift] }
  else evTake x rising t (evLocal s b) s

/-- Takes what has waited for the tick, on the course that the tick begins. -/
def takeLate (l : Late) (s : State) : State :=
  match l with
  | .edge x rising t now shift =>
    let t := t + BitVec.ofInt 64 (s.shift - shift)
    if TW.atOrBefore s.time.nextTick t then { s with time.late := s.time.late ++ [.edge x rising t now s.shift] }
    else evTake x rising t now s
  | .hold => auxHold s
  | .window w => windowEvent w s

/-- What has waited for the tick, after the tick has judged its frame. -/
def lateTick (s : State) : State := forList s.time.late takeLate { s with time.late := [] }

/-- EV_EDGE: before BOOT has ended the receivers are off, and only the level at the input changes (R239, R242). -/
def execEvEdge (x : Fin 8) (bin : Fin 32) (rising : Bool) (s : State) : Result :=
  if live s then done (evEdge x.val bin.val rising s) else .next (onEv x.val (fun i => { i with level := rising }) s)

/-- Write of EV_RING_READ (R177, R244). -/
def evRingReadWrite (r : Role) (v : Nat) (s : State) : Ans :=
  gate r .operator true servedModes s fun s =>
    match ringRelease evRingSize v s.ev.ring with
    | some q => accept { s with ev.ring := q, ev.fixed := s.ev.fixed - (s.ev.ring.recs.length - q.recs.length) }
    | none => refuse 0x0301 s

def execEvRingRead (r : Role) (v : BitVec 16) (s : State) : Result := served s (evRingReadWrite r v.toNat)

/-- AUTH of a received message verifies (R257), during its grace under the previous key too (R325). Without a key set,
none does. -/
def msgAuthOk (s : State) (m : TrgMessage) : Bool :=
  (s.dict.keyOp.accepted s.time.pt).any fun k =>
    decide (trgAuth k (trgBody m.code.toNat m.scope.toNat m.sender.toNat m.sequence.toNat m.epoch.toNat
      m.instant.toNat) = octetsOf 8 m.auth.toNat)

/-- One of the module's scopes, or every module (R258, test 2). -/
def msgScopeOk (s : State) (m : TrgMessage) : Bool :=
  decide (m.scope = 0xFFFF) ||
  (List.range 4).any fun i => decide (cfgAt s 0x5280 i ≠ 0) && decide (cfgAt s 0x5280 i = m.scope.toNat)

/-- The messages accepted in the last 1 s of tw. -/
def msgRecent (s : State) : List (BitVec 20 × BitVec 16 × TW) :=
  s.ev.recent.filter fun p => decide (TW.diff p.2.2 s.time.tw < 256000000000) && decide (0 ≤ TW.diff p.2.2 s.time.tw)

/-- The tests of R258: 0 accepted, or the subindex of the discard counter. -/
def msgTest (s : State) (m : TrgMessage) : Nat :=
  if m.sender.toNat = cfgAt s 0x1001 0 then 1
  else if !msgScopeOk s m then 2
  else if !msgAuthOk s m then 3
  else if m.epoch ≠ s.time.epoch ∨ !TW.inWindow s.time.tw m.instant then 4
  else if (msgRecent s).any fun p => decide (p.1 = m.sender) && decide (p.2.1 = m.sequence) then 5
  else if m.code = 0 then 6
  else 0

/-- TRIGGER_MESSAGE_RECEIVE (R258). Two ports can bring two messages in one engine cycle: the units decide at its end (R193). -/
def msgReceive (m : TrgMessage) (s : State) : State :=
  let t := msgTest s m
  if t = 0 then
    let s := { s with ev.accepted := satInc s.ev.accepted, ev.recent := (m.sender, m.sequence, s.time.tw) :: msgRecent s }
    forNat 8 (fun u s =>
      if (unitAt s u).armed ∧ cfgAt s 0x3C02 u = 6 ∧ cfgAt s 0x3C03 u = m.code.toNat then
        trgAwait u ⟨m.instant, m.epoch, s.shift, none⟩ s
      else s) s
  else { s with ev.discards := updAt satInc (t - 1) s.ev.discards }

def execTriggerMessageReceive (m : TrgMessage) (s : State) : Result :=
  if live s then done (msgReceive m s) else .next s

end Sys2Proof.Machine
end

