-- ==== Sys2Proof/Machine/Servo.lean ====
section
/-! DEFINITION. The servo, time quality, the time error bound and holdover (R222 to R231). Offsets and link delays are
in correction units of 2^−16 ns; the servo's rates are in parts of one. -/

namespace Sys2Proof.Machine

/-- Mean of a list of offsets; 0 when there is none (R225). -/
def meanOf (l : List Int) : Rat := if l.isEmpty then 0 else (l.sum : Rat) / l.length

/-- Standard deviation of a list. -/
def deviation (l : List Rat) : Rat :=
  if l.isEmpty then 0
  else
    let m := l.sum / l.length
    sqrtRat ((l.map fun x => (x - m) * (x - m)).sum / l.length)

/-- θ̄ (R222). -/
def thetaBar (s : State) : Rat := meanOf s.ptp.offsets

/-- LOCK_THRESHOLD in correction units. -/
def lockThreshold (s : State) : Rat := (cfgAt s 0x4013 4 : Rat) * 65536 / 1000

/-- The absorbable offset in correction units (R231). -/
def absorbable (s : State) : Rat := (cfgAt s 0x4013 2 * cfgAt s 0x4013 3 * 65536 : Nat)

/-- The lock test (R224). -/
def lockTest (s : State) : Bool := decide (|thetaBar s| ≤ lockThreshold s) && !s.ptp.clamped.any id

/-- The servo's rate takes effect in the time-word increment (R15, R223). -/
def setRate (y : Rat) (s : State) : State :=
  { s with ptp.y := y, time.inc := (roundRat (1024 * (1 + y) * 2 ^ 40)).toNat }

/-- Temperature change in °C of the staff die for a difference of codes (R229). -/
def tempOf (codes : Nat) : Rat := |auxValue 0x3C 0 codes - auxValue 0x3C 0 0|

/-- B(t) − B0 in ns (R229). -/
def boundGrowth (s : State) : Rat :=
  let t : Rat := ((TW.diff s.ptp.holdStart s.time.tw - (s.shift - s.ptp.holdShift) : Int) : Rat) / 256000000000
  let kT := decF32 (factoryNat 0x7040 1 4)
  let a := decF32 (factoryNat 0x7040 0 4)
  ((s.ptp.yu + kT * tempOf s.ptp.tempMax) * t + a * t * t / 2) * 1000000000

/-- E_k in ns (R225); none when unbounded. -/
def errorBound (s : State) : Option Rat :=
  match s.time.quality with
  | 0 => none
  | 3 => s.ptp.b0.map (· + boundGrowth s)
  | _ => if s.ptp.offsets.length < 16 then none
    else some ((|thetaBar s| + 3 * deviation (s.ptp.offsets.map fun (x : Int) => (x : Rat))) / 65536)

/-- Entry into holdover (R227, R229). -/
def enterHoldover (manual : Bool) (s : State) : State :=
  let s := setRate s.ptp.integ s
  { s with
    time.quality := 3
    ptp := { s.ptp with
      holdStart := s.time.cycTw
      holdShift := s.shift
      b0 := if manual then some (cfgAt s 0x4014 2 : Rat) else s.ptp.bound
      yu := max (decF32 (cfgAt s 0x4014 1)) (3 * deviation s.ptp.integs)
      temp0 := s.aux.staff
      tempMax := 0 } }

/-- The module is in holdover, or waits for 16 offsets after a resolved re-route. -/
def held (s : State) : Bool := decide (s.ptp.cause ≠ 0) || s.ptp.resume

/-- Sets holdover cause i (Table 9.4, R228). While UNSET no bit is set. -/
def setCause (i : Nat) (s : State) : State :=
  if s.time.quality = 0 ∨ s.ptp.cause.testBit i then s
  else
    let s := if held s then s else enterHoldover (decide (i = 6)) s
    let s := raisePn 4 { s with ptp.cause := s.ptp.cause + 2 ^ i, ptp.since := s.ptp.since.set i 0 }
    let s := if i = 4 then { s with ptp.pending := roundRat (thetaBar s) } else s
    if i = 4 ∨ i = 5 then raisePn 5 s else s

/-- R231: an offset that cannot be absorbed sets JUMP. -/
def jumpTest (s : State) : State := if absorbable s < |thetaBar s| then setCause 4 s else s

/-- Leaves holdover when nothing holds it (R227, R228). -/
def leaveHoldover (s : State) : State :=
  if held s ∨ s.time.quality = 0 then s else { s with time.quality := if lockTest s then 2 else 1 }

/-- Clears holdover cause i, after the test of R231. -/
def clearCause (i : Nat) (s : State) : State :=
  if s.ptp.cause.testBit i then
    let s := if i = 4 then s else jumpTest s
    leaveHoldover { s with ptp.cause := s.ptp.cause - 2 ^ i }
  else s

/-- Count of valid offsets since cause i was set. -/
def sinceCause (s : State) (i : Nat) : Nat := s.ptp.since.getD i 0

/-- TIMING_PORT_CHANGE after 16 offsets through the new port (Table 9.4): cleared, or taken over by REROUTE on that port. -/
def portChangeEnd (s : State) : State :=
  if |thetaBar s| / 65536 ≤ (cfgAt s 0x4015 0 : Rat) / 1000 + boundGrowth s then clearCause 3 s
  else
    let bit := match s.ptp.timingPort with | some p => 2 ^ p | none => 0
    let s := setCause 5 { s with ptp.reroute := s.ptp.reroute ||| bit }
    { s with ptp.cause := s.ptp.cause - 2 ^ 3 }

/-- Cause i is set and has its n offsets. -/
def causeRipe (s : State) (i n : Nat) : Bool := s.ptp.cause.testBit i && decide (n ≤ sinceCause s i)

/-- One valid offset in holdover (Table 9.4, R235). -/
def holdoverOffset (s : State) : State :=
  let counted := s.ptp.since.mapIdx fun i n => if s.ptp.cause.testBit i || (decide (i = 5) && s.ptp.resume) then n + 1 else n
  let s := { s with ptp.since := counted }
  let s := if causeRipe s 4 16 && decide (|thetaBar s| ≤ absorbable s) then clearCause 4 s else s
  let s := if causeRipe s 0 16 then clearCause 0 s else s
  let s := if causeRipe s 1 16 then clearCause 1 s else s
  let s := if causeRipe s 2 (cfgAt s 0x4013 5) then clearCause 2 s else s
  let s := if causeRipe s 3 16 then portChangeEnd s else s
  let s := if causeRipe s 6 16 then clearCause 6 s else s
  if s.ptp.resume ∧ 16 ≤ sinceCause s 5 then leaveHoldover { jumpTest s with ptp.resume := false } else s

/-- τ of a logMessageInterval, in seconds. -/
def tauOf (log : Int) : Rat := (2 : Rat) ^ log

/-- The Sync interval in force: that of the latest Sync, and LOG_SYNC_INTERVAL until the first (R223, Table 9.8). -/
def syncInterval (s : State) : Int := s.ptp.logSync.getD (cfgInt s 8 0x4012 1)

/-- 2π, cut to 40 decimals. -/
def twoPi : Rat := 62831853071795864769252867665590057683943 / 10 ^ 40

/-- Servo update on an offset (R223, R224, R231). -/
def servoUpdate (theta : Int) (s : State) : State :=
  let tau := tauOf (syncInterval s)
  let w := twoPi * decF32 (cfgAt s 0x4013 0) * tau
  let x : Rat := (theta : Rat) / 65536000000000 / tau
  let i := s.ptp.integ + w * w * x
  let y := -(2 * decF32 (cfgAt s 0x4013 1) * w * x + i)
  let lim : Rat := (cfgAt s 0x4013 2 : Rat) / 1000000000
  let cl := decide (lim < |y|)
  let i := if cl then s.ptp.integ else i
  let s := setRate (max (-lim) (min lim y)) s
  let s := { s with ptp := { s.ptp with
    integ := i
    integs := (i :: s.ptp.integs).take 64
    clamped := (cl :: s.ptp.clamped).take 16
    followed := s.ptp.best.map fun b => (b.gm, b.parent) } }
  let locked := if s.time.quality = 1 then lockTest s else !(decide (4 * lockThreshold s < |thetaBar s|) || cl)
  let s := { s with time.quality := if locked then 2 else 1 }
  if locked then s else jumpTest s

/-- R230: the offset is gated. -/
def gatedBy (s : State) (theta : Int) : Bool :=
  decide (s.time.quality = 2) && !s.ptp.offsets.isEmpty && decide (16 * lockThreshold s < |(theta : Rat) - thetaBar s|)

/-- A gated offset (R230): y holds I; sixteen in succession become the offsets that R231 judges. -/
def gateOffset (theta : Int) (s : State) : State :=
  let l := theta :: s.ptp.gated
  let s := setRate s.ptp.integ { s with ptp.gated := l }
  if l.length < 16 then s
  else
    let s := jumpTest { s with ptp.offsets := l.take 16, ptp.gated := [] }
    if s.time.quality = 2 ∧ 4 * lockThreshold s < |thetaBar s| then { s with time.quality := 1 } else s

/-- A valid offset of the timing port (R220, R222). -/
def takeOffset (theta : Int) (s : State) : State :=
  let n := s.ptp.consec + 1
  let slave := decide (s.ptp.state = 8) && decide (16 ≤ n)
  let s := { s with ptp.consec := n, ptp.silent := false, ptp.state := if slave then 9 else s.ptp.state,
                    ptp.setDue := s.ptp.setDue || (slave && decide (s.time.quality = 0)) }
  if gatedBy s theta then gateOffset theta s
  else
    let s := { s with ptp.gated := [], ptp.offsets := (theta :: s.ptp.offsets).take 16 }
    let s := if s.ptp.cause.testBit 4 then { s with ptp.pending := roundRat (thetaBar s) } else s
    match s.time.quality with
    | 0 => s
    | 3 => holdoverOffset s
    | _ => servoUpdate theta s

/-- A Sync whose offset is not valid: runs of consecutive valid offsets start anew. -/
def missOffset (s : State) : State :=
  { s with ptp.consec := 0, ptp.since := (s.ptp.since.set 1 0).set 4 0 }

/-- Shifts what a port holds of the time before a step of tw: the Syncs that await their Follow_Up, and the instants of an
exchange under way. -/
def PtpPort.stepped (f : Int → Int) (p : PtpPort) : PtpPort :=
  { p with
    sync := p.sync.map fun m => { m with ingress := f m.ingress }
    pend := p.pend.map fun x => (x.1, f x.2)
    resp := p.resp.map fun x => (x.1, f x.2.1, f x.2.2.1, x.2.2.2) }

/-- Shifts held and later offsets by a step of tw (Table 9.6, R231). The 16 offsets at which JUMP clears are counted from
the step, as in the example of R231. -/
def shiftOffsets (delta : Int) (s : State) : State :=
  let f (x : Int) : Int := x + delta * 256
  { s with ptp := { s.ptp with
    offsets := s.ptp.offsets.map f
    gated := s.ptp.gated.map f
    pending := if s.ptp.cause.testBit 4 then f s.ptp.pending else s.ptp.pending
    since := s.ptp.since.set 4 0
    ports := s.ptp.ports.map (·.stepped f) } }

/-- The tick's bound and the time-suspect decision (R225, R226). -/
def suspectTick (s : State) : State :=
  let e := errorBound s
  let beyond := match e with
    | some x => decide ((cfgAt s 0x4014 0 : Rat) / 1000 < x)
    | none => true
  let sus := beyond || (decide (s.time.quality ≠ 2) && s.ptp.suspect)
  { s with ptp := { s.ptp with
    bound := e
    suspect := sus
    suspectSince := if sus && !s.ptp.suspect then s.time.tw else s.ptp.suspectSince } }

/-- The conditions of Table 9.4 that stand when tw is first set (R228). -/
def standingCauses (s : State) : State :=
  let s := if s.ptp.best.isNone then setCause 0 s
    else if s.ptp.timingPort.isNone ∨ s.ptp.silent then setCause 1 s else s
  let pends := match s.ptp.timingPort with | some p => s.ptp.reroute.testBit p | none => false
  if pends then setCause 5 s else s

end Sys2Proof.Machine
end

