-- ==== Sys2Proof/Machine/NetTime.lean ====
section
/-! DEFINITION. The PTP messages of the ring ports (R210 to R222): link delays, the transparent clock, the best master
and the timing port, re-routes (R234, R235), and the commands that set time (R29, R30, R232). -/

namespace Sys2Proof.Machine

/-- An active ring port: role 1 or 2, with its link up (R210, R280). -/
def activePort (s : State) (p : Nat) : Bool :=
  let q := portAt s p
  q.status && (decide (q.role = 1) || decide (q.role = 2))

/-- The other active ring port (R218, R265). -/
def otherPort (s : State) (p : Nat) : Option Nat := (List.range 4).find? fun q => decide (q ≠ p) && activePort s q

/-- C_in of port p in correction units (Table 9.2). -/
def fixedIn (p : Nat) : Int := ([837, 847, 865, 875].getD p 0) * 4096
/-- C_out of port p. -/
def fixedOut (p : Nat) : Int := ([762, 772, 790, 800].getD p 0) * 4096

/-- Reference-plane instant of an ingress timestamp (R212). -/
def instantIn (s : State) (p : Nat) (t : Int) : Int := t - (fixedIn p + cfgInt s 64 0x4102 p)
/-- Reference-plane instant of an egress timestamp. -/
def instantOut (s : State) (p : Nat) (t : Int) : Int := t + (fixedOut p + cfgInt s 64 0x4103 p)

/-- Difference b − a of two instants in correction units, across the wrap of the time word (R17). -/
def corrDiff (a b : Int) : Int := (BitVec.ofInt 72 (b - a)).toInt

/-- Mean link delay of port p in correction units; 0 while it has none (R215). -/
def linkDelay (s : State) (p : Nat) : Int := roundRat (meanOf (ptpAt s p).delays)

/-- A_p. -/
def asymmetry (s : State) (p : Nat) : Int := cfgInt s 64 0x4104 p

/-- The time word of a 1588 timestamp, `sub` the part below a nanosecond in units (R14). -/
def timestampTw (sec ns sub : Nat) : TW := BitVec.ofNat 64 ((sec * 10 ^ 9 + ns) * 256 + sub)

/-- The same without the wrap: units since the PTP epoch. -/
def timestampFull (sec ns sub : Nat) : Nat := (sec * 10 ^ 9 + ns) * 256 + sub

/-- The mean link delay that the transparent clock adds: while the link delay is invalid, the last valid one (R216). -/
def transitDelay (s : State) (p : Nat) : Int :=
  if (ptpAt s p).valid then linkDelay s p else (ptpAt s p).kept.getD (linkDelay s p)

/-- A port that holds a ring role (R210, R280). -/
def ringPort (s : State) (p : Nat) : Bool := decide ((portAt s p).role = 1) || decide ((portAt s p).role = 2)

/-- The up port (R280). -/
def upPort (s : State) : Option Nat := (List.range 4).find? fun p => decide ((portAt s p).role = 1)

/-- What a change of X_rx by rx and of X_tx by tx makes of the measured delays of a port: they change with the instants, so
that the next exchanges agree with them and no re-route is declared (Table 9.6). -/
def PtpPort.recable (rx tx : Int) (x : PtpPort) : PtpPort :=
  let f (d : Int) : Int := d - roundDiv (rx + tx) 2
  { x with
    delays := x.delays.map f
    rejected := x.rejected.map f
    rerouted := x.rerouted.map f
    kept := x.kept.map f
    pend := x.pend.map fun y => (y.1, y.2 + tx)
    resp := x.resp.map fun y => (y.1, y.2.1 + tx, y.2.2.1 - rx, y.2.2.2) }

/-- Counts a message discarded by R210. -/
def ptpDiscard (s : State) : State := { s with ptp.discards := satInc s.ptp.discards }

/-- Naturals in lexicographic order. -/
def lexLt : List Nat → List Nat → Bool
  | a :: l, b :: m => decide (a < b) || (decide (a = b) && lexLt l m)
  | _, _ => false

/-- Data set a is better than b (the comparison of IEEE 1588-2019 that R219 runs). -/
def announceBetter (a b : Announce) : Bool :=
  if a.gm = b.gm then lexLt [a.steps, a.parent.toNat] [b.steps, b.parent.toNat]
  else lexLt [a.priority1, a.clockClass, a.accuracy, a.variance, a.priority2, a.gm.toNat]
    [b.priority1, b.clockClass, b.accuracy, b.variance, b.priority2, b.gm.toNat]

/-- Identity of a master as R220 compares it. -/
def masterId (a : Announce) : BitVec 64 × BitVec 80 := (a.gm, a.parent)

/-- The foreign master window of the best master clock algorithm: four announce intervals, in units (R219). -/
def foreignWindow (s : State) : Nat := 128000000000 * 2 ^ (cfgInt s 8 0x4012 2 + 3).toNat

/-- A foreign master counts with two Announces inside the window; the best master stays until its receipt timeout. -/
def Foreign.counts (s : State) (m : Foreign) : Bool :=
  match m.heard with
  | _ :: t :: _ =>
    decide (s.time.cyc ≤ t + foreignWindow s) || (match s.ptp.best with | some b => decide (b.parent = m.data.parent) | none => false)
  | _ => false

/-- Qualified masters of port p (R219). -/
def qualified (s : State) (p : Nat) : List Announce :=
  let acc := cfgAt s 0x4012 6
  if ringPort s p then
    ((ptpAt s p).masters.filter fun m => m.counts s && decide (m.data.steps < 255)
      && (decide (acc = 0) || decide (m.data.gm.toNat = acc))).map (·.data)
  else []

/-- The better of two data sets. -/
def betterOf (a : Option Announce) (b : Announce) : Option Announce :=
  match a with
  | some x => if announceBetter b x then some b else some x
  | none => some b

/-- The best master. -/
def bestMaster (s : State) : Option Announce := ((List.range 4).flatMap (qualified s)).foldl betterOf none

/-- Port p is active and carries a master with a valid link delay. -/
def carries (s : State) (b : Announce) (p : Nat) : Bool :=
  activePort s p && (qualified s p).any (fun m => decide (masterId m = masterId b)) && (ptpAt s p).valid

/-- The timing port for the best master (R219). A pending re-route does not move it (R235). -/
def chooseTiming (s : State) (b : Announce) : Option Nat :=
  let pref := cfgAt s 0x4012 5
  let stays := match s.ptp.timingPort with | some t => s.ptp.reroute.testBit t && carries s b t | none => false
  if stays then s.ptp.timingPort
  else if carries s b pref then some pref
  else (List.range 4).find? (carries s b)

/-- Forgets the offsets of another master or port (R225). -/
def clearOffsets (s : State) : State :=
  let ports := s.ptp.ports.map fun p => { p with sync := [] }
  { s with ptp := { s.ptp with offsets := [], gated := [], consec := 0, ports := ports } }

/-- No master is qualified (Table 9.4, MASTER_LOST). -/
def masterLost (s : State) : State :=
  let s := if s.ptp.best.isSome ∨ s.ptp.timingPort.isSome then
      clearOffsets { s with ptp := { s.ptp with since := (s.ptp.since.set 0 0).set 6 0 } }
    else s
  setCause 0 { s with ptp := { s.ptp with best := none, timingPort := none, state := 4, setDue := false } }

/-- A master qualifies in place of another, or of none (R220). -/
def newMaster (b : Announce) (s : State) : State :=
  let s := clearOffsets { s with ptp := { s.ptp with best := some b, state := 8, setDue := false } }
  match s.ptp.followed with
  | some f => if f = masterId b then s else setCause 2 { s with ptp.since := s.ptp.since.set 2 0 }
  | none => s

/-- Takes the timing port that R219 gives (R228, Table 9.6). -/
def newTiming (same : Bool) (b : Announce) (s : State) : State :=
  let t := chooseTiming s b
  let old := s.ptp.timingPort
  let s := { s with ptp.timingPort := t }
  if t = old then (if t.isNone then setCause 1 s else s)
  else
    let s := clearOffsets s
    match old, t with
    | some _, some _ => if same then setCause 3 { s with ptp.since := s.ptp.since.set 3 0 } else s
    | _, none => setCause 1 s
    | none, some _ => s

/-- The best master clock algorithm and the choice of the timing port (R219, R220). -/
def masterChoice (s : State) : State :=
  match bestMaster s with
  | none => masterLost s
  | some b =>
    let same := match s.ptp.best with | some o => decide (masterId o = masterId b) | none => false
    let s := if same then { s with ptp.best := some b } else newMaster b s
    newTiming same b s

/-- The choice of the timing port, which a link source follows at once (R376). -/
def masterUpdate (s : State) : State :=
  let s' := masterChoice s
  if s'.ptp.timingPort = s.ptp.timingPort then s' else linkFollow s'

/-- Emits a PTP message out of a port. -/
def sendPtp (q kind : Nat) (seq : BitVec 16) (c : Int) (s : State) : State := emit (.ptp q kind seq c) s

/-- The sum that the transparent clock adds for a Sync from port a to port b (R218). -/
def transitSum (s : State) (a b : Nat) (m : PtpEvent) : Int :=
  corrDiff (instantIn s a m.ingress) (instantOut s b m.egress) + transitDelay s a + asymmetry s a

/-- The transparent clock's part of a Sync (R218). -/
def forwardSync (p : Nat) (m : PtpEvent) (s : State) : State :=
  match otherPort s p with
  | none => s
  | some q =>
    let sum := transitSum s p q m
    if m.twoStep then
      onPtp p (fun x => { x with held := (m.id, sum) :: x.held.filter fun h => h.1 ≠ m.id }) (sendPtp q 0x0 m.seq m.correction s)
    else sendPtp q 0x0 m.seq (m.correction + sum) s

/-- The ordinary clock takes part in a message: its domain is the configured one (Table 9.1). -/
def ownDomain (s : State) (h : PtpHead) : Bool := decide (h.domain = cfgAt s 0x4012 0) && decide (h.sdoId = 0)

/-- A message that R210 discards. -/
def ptpBad (h : PtpHead) : Bool := h.unsupported || decide (h.version ≠ 2) || decide (1 < h.minor)

/-- The master's time at a Sync, as era and time word (R14). -/
def masterTime (s : State) (m : PtpEvent) (theta : Int) : Nat × TW :=
  let now : TW := BitVec.ofInt 64 ((s.time.tw.toNat : Int) - roundDiv theta 256)
  let full : Int := timestampFull m.seconds m.nanos 0 + TW.diff (timestampTw m.seconds m.nanos 0) now
  ((full / 2 ^ 64 % 65536).toNat, now)

/-- Records the master's time; TIME_ERA follows it once tw is set (R14). -/
def takeMasterTime (m : PtpEvent) (theta : Int) (s : State) : State :=
  let (era, now) := masterTime s m theta
  let own : Int := era * 2 ^ 64 + now.toNat + TW.diff now s.time.tw
  { s with ptp.master := some (era, now),
           time.era := if s.time.quality = 0 then s.time.era else (own / 2 ^ 64 % 65536).toNat }

/-- A completed Sync of the timing port: `m` gives t2, the interval and t1, c the corrections (R222). -/
def syncOffset (p : Nat) (m : PtpEvent) (c : Int) (s : State) : State :=
  if s.ptp.reroute.testBit p then s
  else
    let s := { s with ptp.logSync := some m.logInt }
    if !(ptpAt s p).valid then missOffset s
    else
      let t1 : Int := (timestampTw m.seconds m.nanos 0).toNat * 256
      let theta := corrDiff t1 (instantIn s p m.ingress) - c - linkDelay s p - asymmetry s p
      takeOffset theta (takeMasterTime m theta s)

/-- The Sync comes from the best master through the timing port. -/
def fromMaster (s : State) (p : Nat) (m : PtpEvent) : Bool :=
  decide (s.ptp.timingPort = some p) && (match s.ptp.best with | some b => decide (b.parent = m.parent) | none => false)

/-- SYNC_RECEIVE (R210, R218, R222). -/
def syncReceive (p : Nat) (m : PtpEvent) (s : State) : State :=
  if !activePort s p then s
  else
    let s := forwardSync p m s
    if !ownDomain s m.head then s
    else if ptpBad m.head ∨ m.logInt < -7 ∨ 0 < m.logInt then ptpDiscard s
    else if !fromMaster s p m then s
    else if m.twoStep then onPtp p (fun x => { x with sync := m :: x.sync.filter fun y => y.id ≠ m.id }) s
    else syncOffset p m m.correction s

def execSyncReceive (p : Fin 4) (m : PtpEvent) (s : State) : Result :=
  if live s then done (syncReceive p.val m s) else .next s

/-- The transparent clock's part of a Follow_Up (R218). -/
def forwardFollowUp (p : Nat) (m : PtpEvent) (s : State) : State :=
  match otherPort s p with
  | none => s
  | some q =>
    match (ptpAt s p).held.find? fun h => h.1 = m.id with
    | some h =>
      onPtp p (fun x => { x with held := x.held.filter fun h => h.1 ≠ m.id }) (sendPtp q 0x8 m.seq (m.correction + h.2) s)
    | none => sendPtp q 0x8 m.seq m.correction s

/-- FOLLOW_UP_RECEIVE (R218, R222). -/
def followUpReceive (p : Nat) (m : PtpEvent) (s : State) : State :=
  if !activePort s p then s
  else
    let s := forwardFollowUp p m s
    if !ownDomain s m.head then s
    else if ptpBad m.head then ptpDiscard s
    else match (ptpAt s p).sync.find? fun y => y.id = m.id with
      | some y =>
        if fromMaster s p y then
          syncOffset p { y with seconds := m.seconds, nanos := m.nanos } (y.correction + m.correction)
            (onPtp p (fun x => { x with sync := x.sync.filter fun y => y.id ≠ m.id }) s)
        else s
      | none => s

def execFollowUpReceive (p : Fin 4) (m : PtpEvent) (s : State) : Result :=
  if live s then done (followUpReceive p.val m s) else .next s

/-- Drops what waits for the Follow_Up of a Sync. -/
def PtpPort.dropSync (i : SyncId) (x : PtpPort) : PtpPort :=
  { x with held := x.held.filter (fun h => h.1 ≠ i), sync := x.sync.filter fun y => y.id ≠ i }

/-- FOLLOW_UP_TIMEOUT (R218): the held sum and the Sync that waited are dropped. -/
def execFollowUpTimeout (w : SyncWait) (s : State) : Result :=
  if live s then done (onPtp w.port.val (·.dropSync w.sync) s) else .next s

/-- Enters an Announce, heard at local time t, among the foreign masters of a port. -/
def hearMaster (a : Announce) (t : Nat) : List Foreign → List Foreign
  | [] => [⟨a, [t]⟩]
  | m :: l => if m.data.parent = a.parent then ⟨a, (t :: m.heard).take 2⟩ :: l else m :: hearMaster a t l

/-- ANNOUNCE_RECEIVE (R218, R219). -/
def announceReceive (p : Nat) (a : Announce) (s : State) : State :=
  if !activePort s p then s
  else
    let s := match otherPort s p with | some q => sendPtp q 0xB a.seq a.correction s | none => s
    if !ownDomain s a.head then s
    else if ptpBad a.head then ptpDiscard s
    else masterUpdate (onPtp p (fun x => { x with masters := hearMaster a s.time.cyc x.masters }) s)

def execAnnounceReceive (p : Fin 4) (a : Announce) (s : State) : Result :=
  if live s then done (announceReceive p.val a s) else .next s

/-- The record is that of the best master. -/
def ofBest (s : State) (m : Foreign) : Bool :=
  match s.ptp.best with | some b => decide (m.data.parent = b.parent) | none => false

/-- The record's latest Announce came in the engine cycle in progress. -/
def heardNow (s : State) (m : Foreign) : Bool := decide (m.heard.head? = some s.time.cyc)

/-- An Announce of the best master came through the port in the engine cycle in progress. -/
def announcedNow (s : State) (p : Nat) : Bool :=
  (ptpAt s p).masters.any fun m => ofBest s m && heardNow s m

/-- ANNOUNCE_RECEIPT_TIMEOUT (R219): the port's record of the best master, or every record of a port without it, goes. An
Announce of the same engine cycle comes first, and the timeout does not act on it (R256). -/
def announceTimeout (p : Nat) (s : State) : State :=
  if announcedNow s p then s
  else masterUpdate (onPtp p (fun x =>
    { x with masters := if x.masters.any (ofBest s) then x.masters.filter (fun m => !ofBest s m)
                        else x.masters.filter (heardNow s) }) s)

def execAnnounceReceiptTimeout (p : Fin 4) (s : State) : Result :=
  if live s then done (announceTimeout p.val s) else .next s

/-- PTP_MESSAGE_FORWARD (R210, R218): Signaling and Management leave unchanged; the ordinary clock discards and counts one
that asks for what it does not support. -/
def ptpForward (p : Nat) (h : PtpHead) (octets : List Nat) (s : State) : State :=
  if activePort s p then
    let s := match otherPort s p with | some q => emit (.forward q octets) s | none => s
    if ownDomain s h ∧ ptpBad h then ptpDiscard s else s
  else s

def execPtpMessageForward (p : Fin 4) (m : PtpOther) (s : State) : Result :=
  if live s then done (ptpForward p.val m.head m.octets s) else .next s

/-- A peer-delay message reaches its handler: on an active ring port, of the module's domain, and not discarded (R210). -/
def peerMessage (p : Nat) (h : PtpHead) (f : State → State) (s : State) : State :=
  if !activePort s p ∨ !ownDomain s h then s else if ptpBad h then ptpDiscard s else f s

/-- Sends a peer-delay message out of a port, framed and headed as Table 9.1 has it; its requestReceiptTimestamp is 0 (R210,
R217). -/
def sendPeer (p kind : Nat) (seq : BitVec 16) (c : Int) (s : State) : State :=
  let vlan := cfgAt s 0x4012 7
  emit (.peer p { dest := 0x0180C200000E, tag := if vlan = 0 then none else some vlan, etherType := 0x88F7, version := 2,
                  minor := 1, domain := cfgAt s 0x4012 0, sdoId := 0, kind, seq, correction := c, receipt := 0 }) s

/-- PDELAY_REQ_SEND (R215). -/
def pdelaySend (p : Nat) (egress : Int) (s : State) : State :=
  if activePort s p then
    let seq := (ptpAt s p).nextSeq
    let t1 := instantOut s p egress
    sendPeer p 0x2 seq 0 (onPtp p (fun x => { x with pend := some (seq, t1), resp := none, nextSeq := seq + 1 }) s)
  else s

def execPdelayReqSend (p : Fin 4) (egress : Int) (s : State) : Result :=
  if live s then done (pdelaySend p.val egress s) else .next s

/-- PDELAY_REQ_RECEIVE (R217): answered with the turnaround. -/
def pdelayAnswer (p : Nat) (h : PtpHead) (seq : BitVec 16) (ingress egress : Int) (s : State) : State :=
  peerMessage p h (fun s => sendPeer p 0x3 seq (corrDiff (instantIn s p ingress) (instantOut s p egress)) s) s

def execPdelayReqReceive (p : Fin 4) (h : PeerHead) (ingress egress : Int) (s : State) : Result :=
  if live s then done (pdelayAnswer p.val h.head h.seq ingress egress s) else .next s

/-- A failed exchange (R216): the third in succession makes the link delay invalid. -/
def pdelayFail (p : Nat) (s : State) : State :=
  let x := ptpAt s p
  let n := min (x.fails + 1) 3
  let s := onPtp p (fun x => { x with pend := none, resp := none, fails := n }) s
  if n = 3 ∧ x.valid then
    masterUpdate (onPtp p (fun x => { x with valid := false, admitted := 0, faults := satInc x.faults,
                                             kept := some (roundRat (meanOf x.delays)) }) s)
  else s

/-- Declares a re-route of port p from its 8 exchanges (R234). -/
def declareReroute (p : Nat) (l : List Int) (s : State) : State :=
  let step := roundRat (meanOf l - meanOf (ptpAt s p).delays)
  let s := onPtp p (fun x => { x with step := step, rerouted := l, delays := l, rejected := [], kept := none }) s
  let s := raisePn 5 { s with ptp.reroute := s.ptp.reroute ||| 2 ^ p }
  if s.ptp.timingPort = some p then setCause 5 s else s

/-- Admits an exchange (R215, R216). -/
def pdelayAdmit (p : Nat) (d : Int) (s : State) : State :=
  let n := (ptpAt s p).admitted + 1
  let was := (ptpAt s p).valid
  let s := onPtp p (fun x =>
    { x with delays := (d :: x.delays).take 16, admitted := min n 16, rejected := [], valid := x.valid || decide (16 ≤ n),
             untested := x.untested - 1 }) s
  if !was && decide (16 ≤ n) then masterUpdate s else s

/-- REROUTE_THRESHOLD in correction units. -/
def rerouteThreshold (s : State) : Rat := (cfgAt s 0x4015 0 : Rat) * 65536 / 1000

/-- A completed exchange (R215, R234). -/
def pdelayComplete (p : Nat) (d : Int) (s : State) : State :=
  let s := onPtp p (fun x => { x with pend := none, resp := none, fails := 0 }) s
  let x := ptpAt s p
  let m := meanOf x.delays
  if 0 < x.untested ∨ |(d : Rat) - m| ≤ rerouteThreshold s then pdelayAdmit p d s
  else
    let above := decide (m < d)
    let run := x.rejected.filter fun r => decide (m < r) == above
    let l := if run.length = x.rejected.length then d :: x.rejected else [d]
    if 8 ≤ l.length then declareReroute p l s else onPtp p (fun x => { x with rejected := l }) s

/-- d = ((t4 − t1) − (t3 − t2)) / 2 (R215). -/
def exchangeDelay (t1 t4 turn : Int) : Int := roundDiv (corrDiff t1 t4 - turn) 2

/-- PDELAY_RESP_RECEIVE (R215, R216). -/
def pdelayResp (p : Nat) (m : PdelayResp) (s : State) : State :=
  peerMessage p m.head (fun s =>
    match (ptpAt s p).pend with
    | none => s
    | some (seq, t1) =>
      if m.seq ≠ seq then pdelayFail p s
      else
        let t4 := instantIn s p m.ingress
        if m.twoStep then onPtp p (fun x => { x with pend := none, resp := some (seq, t1, t4, m.correction, m.receipt) }) s
        else pdelayComplete p (exchangeDelay t1 t4 m.correction) s) s

def execPdelayRespReceive (p : Fin 4) (m : PdelayResp) (s : State) : Result :=
  if live s then done (pdelayResp p.val m s) else .next s

/-- PDELAY_RESP_FOLLOW_UP_RECEIVE (R215). -/
def pdelayFollowUp (p : Nat) (h : PtpHead) (seq : BitVec 16) (origin correction : Int) (s : State) : State :=
  peerMessage p h (fun s =>
    match (ptpAt s p).resp with
    | none => s
    | some (q, t1, t4, c, t2) =>
      if q = seq then pdelayComplete p (exchangeDelay t1 t4 (corrDiff t2 origin + c + correction)) s else s) s

def execPdelayRespFollowUpReceive (p : Fin 4) (h : PeerHead) (origin correction : Int) (s : State) : Result :=
  if live s then done (pdelayFollowUp p.val h.head h.seq origin correction s) else .next s

/-- PDELAY_RESP_TIMEOUT (R216, R256): an exchange without a response has failed. -/
def pdelayTimeout (p : Nat) (s : State) : State := if (ptpAt s p).pend.isSome then pdelayFail p s else s

def execPdelayRespTimeout (p : Fin 4) (s : State) : Result :=
  if live s then done (pdelayTimeout p.val s) else .next s

/-- NO_OFFSET_TIMEOUT (R228): with a master qualified, no valid offset for 4·τ. -/
def noOffset (s : State) : State :=
  if s.ptp.best.isSome then setCause 1 { missOffset s with ptp.silent := true } else s

def execNoOffsetTimeout (s : State) : Result := if live s then done (noOffset s) else .next s

/-- DELAY_REQ_RECEIVE (R210): a Delay_Req or a Delay_Resp is discarded, counted and never forwarded. -/
def execDelayReqReceive (p : Fin 4) (s : State) : Result :=
  if live s ∧ activePort s p.val then done (ptpDiscard s) else .next s

/-- Write of REROUTE_RESOLVE (R235, Table 9.5). -/
def rerouteWrite (r : Role) (v : Nat) (s : State) : Ans :=
  gate r .operator (decide (bits v 7 5 = 0) && decide (bits v 3 2 = 0)) servedModes s fun s =>
    let p := bits v 1 0
    if !s.ptp.reroute.testBit p then refuse 0x0301 s
    else
      let s := if v.testBit 4 then imageSave (cfgPut 0x4104 p (cfgAt s 0x4107 p) s) else s
      let s := onPtp p (fun x =>
        { x with delays := if x.rerouted.isEmpty then x.delays else x.rerouted, rerouted := [], rejected := [] }) s
      let s := { s with ptp.reroute := s.ptp.reroute - 2 ^ p }
      if s.ptp.cause.testBit 5 ∧ (s.ptp.timingPort = some p ∨ s.ptp.reroute = 0) then
        accept (clearOffsets { s with ptp := { s.ptp with cause := s.ptp.cause - 2 ^ 5, resume := true, since := s.ptp.since.set 5 0 } })
      else accept s

def execRerouteConfirm (r : Role) (v : BitVec 8) (s : State) : Result := served s (rerouteWrite r v.toNat)

def execRerouteApplyAsym (r : Role) (v : BitVec 8) (s : State) : Result := served s (rerouteWrite r v.toNat)

/-- Write of TIME_EPOCH (R30). -/
def epochWrite (r : Role) (v : BitVec 16) (s : State) : Ans :=
  gate r .custodian true [.ready] s fun s => accept (keepSave { s with time.epoch := v, ev.fixed := s.ev.ring.recs.length })

def execTimeEpochWrite (r : Role) (v : BitVec 16) (s : State) : Result := served s (epochWrite r v)

/-- Write of TIME_STEP (R29, R78, R232). -/
def stepWrite (r : Role) (d : BitVec 64) (s : State) : Ans :=
  gate r .custodian true [.ready, .run] s fun s =>
    let F := directTick s
    let due := s.act.sched.any fun e => decide (e.fire = F) && (match e.op with | .stepTime _ => true | _ => false)
    acceptDirect (.stepTime d) r (if due then 0x0301 else stepCond s) F s

def execTimeStep (r : Role) (delta : BitVec 64) (s : State) : Result := served s (stepWrite r delta)

/-- Write of TIME_SET (R16, R232). -/
def setWrite (r : Role) (t : TW) (s : State) : Ans :=
  gate r .custodian true [.warm, .ready, .run, .safe] s fun s =>
    if s.time.quality ≠ 0 ∨ s.cal.state ≠ 0 ∨ s.time.setPending.isSome then refuse 0x0301 s
    else
      let F := directTick s
      ⟨0, octetsOf 8 F.toNat, { s with time.setPending := some (t, F) }⟩

def execTimeSet (r : Role) (t : TW) (s : State) : Result := served s (setWrite r t)

end Sys2Proof.Machine
end

