-- ==== Sys2Proof/Machine/Ports.lean ====
section
/-! DEFINITION. The ring ports: roles (R280), local faults and failover (R281 to R283), promotion and reversion (R284),
received frames (R263 to R265), and port self-tests (R400). -/

namespace Sys2Proof.Machine

/-- Role that the ranks give port p (R280): 0 when it is not wired, unused or retired. -/
def rankRole (s : State) (p : Nat) : Nat := if wired s p && !portRetired s p then cfgAt s 0x4901 p else 0

/-- A port takes a role (R280). Without one its PCS is gated and has no block lock, and a port of role 0 or 3 sends
nothing. -/
def Port.withRole (q : Port) (role : Nat) : Port :=
  let q := { q with role := role }
  let q := if role = 0 then { q with status := false, upFrom := none, downFrom := none } else q
  if role = 1 ∨ role = 2 then q else { q with msgs := [], fwd := [], breaks := [] }

/-- Ports as the ranks assign them (R210, R280). -/
def portsFresh (s : State) : State :=
  { s with link.ports := s.link.ports.mapIdx fun p q =>
      (if q.role = 0 then { q with downFrom := some s.time.pt } else q).withRole (rankRole s p) }

/-- Octet n of a payload. -/
def octetAt (l : List Nat) (n : Nat) : Nat := l.getD n 0 % 256

/-- TYPE of the common header. -/
def hdrType (l : List Nat) : Nat := octetAt l 1
/-- SOURCE of the common header. -/
def hdrSource (l : List Nat) : Nat := natOf ((l.drop 2).take 3) / 16
/-- DEST of the common header. -/
def hdrDest (l : List Nat) : Nat := natOf ((l.drop 4).take 3) % 2 ^ 20
/-- HOPS of the common header. -/
def hdrHops (l : List Nat) : Nat := octetAt l 7
/-- LENGTH of the common header. -/
def hdrLength (l : List Nat) : Nat := natOf ((l.drop 12).take 4) / 2 ^ 18

/-- Types that a module takes (Table 11.2). -/
def takenTypes : List Nat := [0x10, 0x12, 0x13, 0x20, 0x21]

/-- Forwards a frame out of the other active ring port (R265). -/
def forwardOut (p : Nat) (l : List Nat) (s : State) : State :=
  match otherPort s p with
  | some q => onPort q (fun x => { x with fwd := x.fwd ++ [l] }) s
  | none => s

/-- A frame that the module takes: one of another type, or of the wrong direction, is discarded (R264). A frame from the
host carries SOURCE 0; the requests of types 0x10 and 0x12 are judged where they are read. -/
def takeFrame (l : List Nat) (s : State) : State :=
  if takenTypes.contains (hdrType l) ∧ ¬(hdrType l = 0x20 ∧ hdrSource l ≠ 0) then s
  else { s with link.discards := satInc s.link.discards }

/-- AXIND_FRAME_RECEIVE (R263 to R265): where a received frame goes. What a taken frame carries is a command of its
own. -/
def axindReceive (p : Nat) (f : RxFrame) (s : State) : State :=
  let l := f.octets
  let me := cfgAt s 0x1001 0
  if !f.fcsOk ∨ !activePort s p ∨ l.length < 24 ∨ octetAt l 0 / 16 ≠ 1 ∨ f.srcMac = moduleMac then s
  else if hdrDest l = me ∧ me ≠ 0 then takeFrame l s
  else if hdrDest l = 0xFFFFF then
    let s := takeFrame l s
    if 1 < hdrHops l then forwardOut p (l.set 7 (hdrHops l - 1)) s else s
  else forwardOut p l s

def execAxindFrameReceive (p : Fin 4) (f : RxFrame) (s : State) : Result :=
  if live s then done (axindReceive p.val f s) else .next s

/-- The ring port beside p: the one that has the other ring role. -/
def ringMate (s : State) (p : Nat) : Option Nat :=
  (List.range 4).find? fun q => decide (q ≠ p) && (decide ((portAt s q).role = 1) || decide ((portAt s q).role = 2))

/-- Payload of a break notice (Table 11.7). -/
def breakNotice (detector : Nat) (clear : Bool) (seq : BitVec 32) : List Nat :=
  octetsOf 8 (detector * 2 ^ 44 + (if clear then 2 ^ 43 else 0) + seq.toNat)

/-- Queues a break notice at a ring port. -/
def sendBreak (q : Nat) (clear : Bool) (s : State) : State :=
  let n := s.link.noticeSeq + 1
  onPort q (fun x => { x with breaks := x.breaks ++ [breakNotice (cfgAt s 0x1001 0) clear n] }) { s with link.noticeSeq := n }

/-- The break notice of a local fault of port p, out of the other ring port (R282). -/
def breakSend (p : Nat) (s : State) : State :=
  match ringMate s p with
  | some q => onPort p (fun x => { x with broke := some q }) (sendBreak q false s)
  | none => s

/-- The notice with CLEAR set when the link of port p returns, out of the port that sent the break notice, or out of the
other ring port once that one has no ring role (R282, notes/assumptions/60.md). -/
def breakClear (p : Nat) (s : State) : State :=
  match (portAt s p).broke with
  | none => s
  | some q =>
    let s := onPort p (fun x => { x with broke := none }) s
    if ringPort s q then sendBreak q true s
    else match ringMate s p with
      | some m => sendBreak m true s
      | none => s

/-- Exchanges the roles of the up port and the alternate port. -/
def exchangeRoles (s : State) : State :=
  { s with link.ports := s.link.ports.map fun q => { q with role := if q.role = 1 then 2 else if q.role = 2 then 1 else q.role } }

/-- The failover (R283). It needs a second ring port (Table 16.7). -/
def failover (s : State) : State :=
  if (List.range 4).any fun p => decide ((portAt s p).role = 2) then rewind (exchangeRoles s) else s

/-- BREAK_NOTICE_RECEIVE (R283): the ring is broken between the module and the host. -/
def breakReceive (p : Nat) (clear : Bool) (s : State) : State :=
  if (portAt s p).role = 1 ∧ !clear then failover s else s

def execBreakNoticeReceive (p : Fin 4) (_detector : BitVec 20) (clear : Bool) (_seq : BitVec 32) (s : State) : Result :=
  if live s then done (breakReceive p.val clear s) else .next s

/-- Port p begins PTP anew (R215, R284). -/
def ptpFresh (p : Nat) (s : State) : State :=
  onPtp p (fun x => { x with pend := none, resp := none, valid := false, delays := [], admitted := 0, rejected := [],
                             rerouted := [], held := [], sync := [], masters := [], untested := 16, kept := none }) s

/-- PORT_LOCAL_FAULT (R281 to R283, R374, Table 9.6). -/
def localFault (p : Nat) (s : State) : State :=
  let q := portAt s p
  if !q.status then s
  else
    let s := onPort p (fun x => { x with status := false, faults := satInc x.faults, downFrom := some s.time.pt, upFrom := none }) s
    let s := { s with health.selfTest := updAt (fun t => { t with tested := false }) p s.health.selfTest }
    let s := if h : p < 4 then sourceStop (.recovered ⟨p, h⟩) s else s
    if q.role = 1 ∨ q.role = 2 then
      let s := breakSend p s
      let s := if q.role = 1 then failover s else s
      masterUpdate (onPtp p (fun x => { x with sync := [] }) s)
    else s

def execPortLocalFault (p : Fin 4) (s : State) : Result :=
  if live s then done (localFault p.val s) else .next s

/-- PORT_LINK_RETURN (R282, R215): the link of a port with a role comes up. -/
def linkReturn (p : Nat) (s : State) : State :=
  let q := portAt s p
  if q.status ∨ q.role = 0 then s
  else
    let s := onPort p (fun x => { x with status := true, downFrom := none, upFrom := some s.time.pt }) s
    let s := breakClear p (ptpFresh p s)
    if q.role = 3 then s else masterUpdate s

def execPortLinkReturn (p : Fin 4) (s : State) : Result :=
  if live s then done (linkReturn p.val s) else .next s

/-- The standby port that R284 chooses. -/
def standby (s : State) : Option Nat :=
  (List.range 4).find? fun q => wired s q && decide (cfgAt s 0x4901 q = 3) && decide ((portAt s q).role = 3) && (portAt s q).status

/-- PORT_PROMOTE (R284, R400): the standby port takes the alternate role. Where the up port is the one replaced, the
other ring port is the up port from then on, and without one the standby port itself. -/
def promote (p : Nat) (s : State) : State :=
  let q := portAt s p
  match standby s with
  | some n =>
    if q.status ∨ (q.role ≠ 1 ∧ q.role ≠ 2) then s
    else
      let s := if q.role = 1 then failover s else s
      let up := (portAt s p).role
      let s := onPort n (·.withRole up) (onPort p (·.withRole 3) s)
      let s := if up = 1 then rewind s else s
      let stop (t : SelfTest) : SelfTest := if t.running ∨ t.retry then { t with running := false, retry := false, last := some s.time.tw } else t
      masterUpdate (ptpFresh n { s with health.selfTest := updAt stop n s.health.selfTest })
  | none => s

def execPortPromote (p : Fin 4) (s : State) : Result :=
  if live s then done (promote p.val s) else .next s

/-- PORT_REVERT (R284): own traffic returns to the port of rank 1, which exchanges its role with the up port. A rank 1 port
that had been replaced begins PTP anew, and the up port becomes standby in its place. -/
def revert (s : State) : State :=
  match (List.range 4).find? fun p => wired s p && decide (cfgAt s 0x4901 p = 1) with
  | some p =>
    let q := portAt s p
    if !cfgBool s 0x4909 0 ∨ !q.status then s
    else if q.role = 2 then exchangeRoles s
    else if q.role = 3 then
      match upPort s with
      | some u => masterUpdate (ptpFresh p (onPort p (·.withRole 1) (onPort u (·.withRole 3) s)))
      | none => s
    else s
  | none => s

def execPortRevert (s : State) : Result := if live s then done (revert s) else .next s

/-- A self-test of port p is due (R400). -/
def selfTestDue (s : State) (p : Nat) : Bool :=
  let q := portAt s p
  let t := s.health.selfTest.getD p ⟨0, false, false, none, false⟩
  wired s p && !portRetired s p && !t.running && !t.retry &&
    (if q.role = 3 then (match t.last with | some x => decide (dayUnits ≤ TW.diff x s.time.tw) | none => true)
     else if q.role = 1 ∨ q.role = 2 then
       !q.status && !t.tested && (match q.downFrom with | some d => decide (d + 256000000000 ≤ s.time.pt) | none => false)
     else false)

/-- Starts a self-test. -/
def selfTestRun (p : Nat) (s : State) : State :=
  let start (t : SelfTest) : SelfTest := { t with running := true, retry := false, last := some s.time.tw, tested := true }
  { s with health.selfTest := updAt start p s.health.selfTest }

/-- Task 6 of the background slice: starts the self-tests that are due (R400). -/
def selfTestTick (s : State) : State := forNat 4 (fun p s => if selfTestDue s p then selfTestRun p s else s) s

/-- A port is retired (R400, R401). -/
def retirePort (p : Nat) (s : State) : State :=
  let s := { s with health.spare := { s.health.spare with portRetired := s.health.spare.portRetired.set p true } }
  let s := onPort p (fun q => { q with status := false, role := 0, upFrom := none, breaks := [], fwd := [], msgs := [] }) s
  masterUpdate (keepSave (raisePn 1 s))

/-- PORT_SELF_TEST_END (R400). -/
def selfTestEnd (p : Nat) (errors : Bool) (s : State) : State :=
  let t := s.health.selfTest.getD p ⟨0, false, false, none, false⟩
  if !t.running then s
  else
    let n := if errors then t.fails + 1 else 0
    let s := { s with health.selfTest := s.health.selfTest.set p { t with running := false, fails := n, retry := errors && decide (n < 3) } }
    if 3 ≤ n then retirePort p s else s

def execPortSelfTestEnd (p : Fin 4) (errors : Bool) (s : State) : Result :=
  if live s then done (selfTestEnd p.val errors s) else .next s

/-- PORT_SELF_TEST_RETRY (R400): a failed test is repeated, whatever the link has done since. -/
def selfTestRetry (p : Nat) (s : State) : State :=
  let t := s.health.selfTest.getD p ⟨0, false, false, none, false⟩
  if t.retry then selfTestRun p s else s

def execPortSelfTestRetry (p : Fin 4) (s : State) : Result :=
  if live s then done (selfTestRetry p.val s) else .next s

end Sys2Proof.Machine
end

