-- ==== Sys2Proof/Machine/Power.lean ====
section
/-! DEFINITION. Supply, contacts and module states: the wake detector and HIBERNATE (R385 to R387), RESET_N and reset
commands (R388, R424), BOOT with its bank selection and slot comparison (R451, R356, R358, R363), WARM (R380), and
boundary scan (R425). -/

namespace Sys2Proof.Machine

/-- The stores after a loss of power or a reset: writes under way are lost, and a keep-region copy being written is not
valid (R353, R354, Table 14.7). The marks of faulty banks last until the next BOOT. -/
def Storage.cut (t : Storage) : Storage :=
  { Storage.init with
    banks := t.banks
    slotBanks := t.slotBanks
    keep := match t.keepWriting with
      | some w => t.keep.set w.1 none
      | none => t.keep }

/-- The keep region once every change has been written. -/
def keepFinish (s : State) : State :=
  if s.store.keepWriting.isSome then
    let s := keepWriteDone true s
    if s.store.keepWriting.isSome then keepWriteDone true s else s
  else s

/-- Everything volatile at its value after power, in a mode; the stores, the contacts, the queue of commands and what
has left the module stay. -/
def cold (m : Mode) (s : State) : State :=
  { State.reset with
    pending := s.pending
    power := { Power.init with mode := m, vmain := s.power.vmain, wake := s.power.wake, resetLow := s.power.resetLow }
    store := s.store.cut
    ev := { State.reset.ev with inputs := s.ev.inputs.map fun i => ⟨0, 0, none, i.level, 0, false⟩ }
    fv := s.fv
    out := s.out }

/-- BOOT begins (Table 19.1, steps 1 and 2); RESET_N low holds it at its first step (R424). -/
def bootStart (cause : Nat) (s : State) : State :=
  let p := s.power
  let (phase, s) := fresh (cold .boot s)
  let s := if p.mode.clocked then { s with power := { s.power with jtag := p.jtag, jtagCells := p.jtagCells } } else s
  { s with
    power := { s.power with bootCause := cause, bootHeld := s.power.resetLow, fellInSafe := p.fellInSafe }
    clocks.tune := tuneNominal
    modPhase := phase }

/-- Time from the qualification of WAKE or RESET_N in HIBERNATE to the begin of BOOT (R386, R388), at the bound of 5 ms
(notes/assumptions/92.md). -/
def hibSpan : Nat := 1280000000

/-- BOOT out of HIBERNATE has not begun yet (R388). -/
def hibSoon (s : State) : Bool :=
  decide (s.power.mode = .boot) && (match s.power.hibUntil with | some u => decide (s.time.pt < u) | none => false)

/-- The way out of HIBERNATE (R386, R388): the cause is what has qualified, and a RESET_N that is still low holds BOOT. -/
def hibExit (s : State) : State :=
  let wake := s.power.hibWake
  let left := match s.power.hibUntil with | some u => u - s.time.pt | none => hibSpan
  let t := bootStart (if wake && !s.power.resetLow then 1 else 2) s
  { t with power := { t.power with hibWake := wake, hibUntil := some left } }

/-- VMAIN_APPLIED (R385): the wake detector starts. -/
def vmainApplied (s : State) : State :=
  if s.power.vmain then s else { s with power := { s.power with vmain := true, wakeWindow := true } }

def execVmainApplied (s : State) : Result := .next (vmainApplied s)

/-- VMAIN_LOST (R385): OFF from any state. -/
def vmainLost (s : State) : State :=
  let s := cold .off s
  { s with power := { s.power with vmain := false, wake := false } }

def execVmainLost (s : State) : Result := .next (vmainLost s)

/-- WAKE_ASSERTED (R385 to R387): WAKE qualifies, or is no longer asserted. -/
def wakeChange (level : Bool) (s : State) : State :=
  if !s.power.vmain then s
  else
    let s := { s with power := { s.power with wake := level, wakeSeen := s.power.hibEntry && (level || s.power.wakeSeen) } }
    if !level then s
    else if s.power.wakeWindow then bootStart 0 s
    else if s.power.mode = .hibernate ∨ (hibSoon s ∧ !s.power.hibWake) then
      hibExit { s with power := { s.power with hibWake := true } }
    else s

def execWakeAsserted (level : Bool) (s : State) : Result := .next (wakeChange level s)

/-- WAKE_WINDOW_EXPIRY (R385): WAKE has not qualified within 5 ms. -/
def wakeExpiry (s : State) : State :=
  if s.power.wakeWindow then { s with power := { s.power with mode := .hibernate, wakeWindow := false } } else s

def execWakeWindowExpiry (s : State) : Result := .next (wakeExpiry s)

/-- RESET_N_ASSERTED (R8, R386, R388, R424). -/
def resetFall (s : State) : State :=
  let inSafe := if s.power.resetLow then s.power.fellInSafe else decide (s.power.mode = .safe)
  let s := { s with power := { s.power with resetLow := true, fellInSafe := inSafe } }
  if s.power.mode = .off then s
  else if s.power.mode = .hibernate ∨ hibSoon s then hibExit s
  else bootStart (if inSafe then 4 else 2) s

def execResetNAsserted (s : State) : Result := .next (resetFall s)

/-- RESET_N_RELEASE (R424, R388): a BOOT held at its first step runs from the start. -/
def resetRise (s : State) : State :=
  if s.power.resetLow then
    let cause := if s.power.fellInSafe then 4 else 2
    let s := { s with power := { s.power with resetLow := false, fellInSafe := false } }
    if !s.power.bootHeld then s else if hibSoon s then hibExit s else bootStart cause s
  else s

def execResetNRelease (s : State) : Result := .next (resetRise s)

/-- The newest valid bank, which BOOT selects (R356). -/
def ownBank (s : State) : Option BankImage := (bankNewest s).bind fun b => s.store.banks.getD b none

/-- COMPAT_LEVEL values that the module can reproduce (R361). -/
def compatSupported (level : Nat) : Bool := (2 : Nat).testBit level

/-- Row of Table 14.3 for what the slot memory holds, with the image of the selected slot bank (R363). -/
def slotRow (r : BootRead) : Nat × Option Image :=
  if (SlotBus.run ⟨false, 0, false⟩ r.transfers).unreadable then (5, none)
  else
    let b0 := readSlotBank r.slot0
    let b1 := readSlotBank r.slot1
    match newestBank (b0.map (·.sequence)) (b1.map (·.sequence)) with
    | none => (2, none)
    | some b =>
      match if b = 0 then b0 else b1 with
      | none => (2, none)
      | some im =>
        if im.serial = moduleSerial then (1, some im)
        else if !compatSupported im.compat then (4, some im)
        else if digestOf (cfgOfRecords im.records) ≠ im.digest then (6, some im)
        else (3, some im)

/-- Slot-owned entries from the slot's records; one without a record stays (R358). -/
def slotOverride (records : KV) (c : KV) : KV :=
  slotOwned.foldl (fun c k => match kvGet records k with | some v => cfgSet c k v | none => c) c

/-- Slot-owned entries at their fallback values (R358). -/
def slotFallback (c : KV) : KV := slotOwned.foldl (fun c k => cfgSet c k (powerUp k)) c

/-- The configuration that the module runs (Table 14.3), as its image and the slot memory spell it. -/
def bootImageCfg (own : KV) (code : Nat) (im : Option Image) : KV :=
  match im with
  | none => slotFallback own
  | some im =>
    let node (c : KV) : KV := cfgSet c (key 0x1001 0) im.nodeId
    if code = 3 then cfgSet (node (cfgOfRecords im.records)) (key 0x5401 0) im.compat
    else if code = 4 then node (slotOverride im.records own)
    else if code = 6 then node (slotFallback own)
    else slotOverride im.records own

/-- The configuration that the module runs. No module takes the address of every module as its identity (R7): one whose
image gives it that is unassigned (notes/assumptions/93.md). -/
def bootCfg (own : KV) (code : Nat) (im : Option Image) : KV :=
  let c := bootImageCfg own code im
  if cfgGet c (key 0x1001 0) < 0xFFFFF then c else cfgSet c (key 0x1001 0) 0

/-- A slice of the calibration record as BOOT takes it over (R82, Table 4.6). -/
def Slice.loaded (k : Slice) : Slice :=
  { k with activity := 0, onChan := 0, held := false, trimA := 0, trimB := 0, oXAt := none }

/-- Die g from a calibration record; duties are assigned afresh (R89). -/
def dieOfRecord (r : CalRecord) (g : Nat) : Die :=
  let d := Die.init g
  phaseIdle (dutyFresh { d with slices := (r.slices.getD g d.slices).map Slice.loaded, orphan := r.orphan.getD g 0 })

/-- Channel c from a calibration record. -/
def chanOfRecord (r : CalRecord) (c : Nat) : Chan :=
  { Chan.init with
    pairs := r.pairs.getD c Chan.init.pairs
    base := r.base.getD c Chan.init.base
    oBase := r.oBase.getD c 0
    orphanFrom := if (r.orphan.getD (c / 32) 0).testBit (c % 32) then some 0 else none }

/-- Loads the calibration record (R82). -/
def loadCal (r : Option CalRecord) (s : State) : State :=
  match r with
  | some r => { s with dies := (List.range 4).map (dieOfRecord r), chans := (List.range 128).map (chanOfRecord r) }
  | none => s

/-- Loads the keep region (R30, R70, R324, R353, R403). -/
def loadKeep (s : State) : State :=
  let k := keepNow s
  { s with
    time.epoch := k.epoch
    ref := { s.ref with inUse := k.refInUse, k := k.refK }
    dict := { s.dict with keyOp := ⟨k.keyOp, k.genOp, none, 0⟩, keyCu := ⟨k.keyCu, k.genCu, none, 0⟩ }
    health.spare := k.spare }

/-- The stores as BOOT reads them: a bank or a copy of the keep region that is not valid counts for nothing (R353). -/
def Storage.read (r : BootRead) (t : Storage) : Storage :=
  { t with
    banks := t.banks.mapIdx fun b x => if r.badBanks.any (·.val = b) then none else x.filter BankImage.valid
    keep := t.keep.mapIdx fun b x => if r.badKeep.any (·.val = b) then none else x
    slotBus := t.slotBus.run r.transfers }

/-- Bank selection and slot comparison (R356, R358, R363). -/
def loadImage (slot : BootRead) (s : State) : State :=
  let own := ownBank s
  let (code, im) := slotRow slot
  let ownRecs := match own with | some b => b.img.records | none => []
  let recs := match im with | some i => if code = 3 then i.records else ownRecs | none => ownRecs
  let (gen, dig) := match im, own with
    | some i, o => if code = 3 then (i.generation, i.digest) else
      (match o with | some b => (b.img.generation, b.img.digest) | none => (0, digestOf []))
    | none, some b => (b.img.generation, b.img.digest)
    | none, none => (0, digestOf [])
  let s := loadCal (own.map (·.cal)) s
  { s with
    conf := { s.conf with cfg := bootCfg (cfgOfRecords ownRecs) code im, generation := gen, digest := dig }
    groups := (List.range 4).map (groupOfRecords recs)
    store := { s.store with
      bootBank := (bankNewest s).getD 2
      slotBanks := if code = 5 then s.store.slotBanks else [readSlotBank slot.slot0, readSlotBank slot.slot1]
      slotState := code
      slotBurgee := match im with | some i => (i.nodeId, i.serial.toNat) | none => (0, 0)
      slotGen := match im with | some i => i.generation | none => 0 } }

/-- The image writes and mirrors at the end of BOOT (Table 14.3). -/
def bootMirror (s : State) : State :=
  let im := slotNewest s
  match s.store.slotState with
  | 3 => imageSave s
  | 2 => mirrorStart (imageNow s 0).img s
  | 1 => match im with
    | some i => if i.generation ≠ s.conf.generation ∨ i.digest ≠ s.conf.digest then mirrorStart (imageNow s 0).img s else s
    | none => s
  | _ => s

/-- The level recorded in the image takes effect at the end of BOOT (R384). The length of that window is a free
value of at most 40 µs. -/
def bootLevel (s : State) : State :=
  let l := (chosenLevel s.conf.cfg 1 0 []).getD 3
  if l = 1 then s
  else
    let (w, s) := fresh s
    { s with clocks := { s.clocks with perfNow := l, perfLast := some (w % 40001) } }

/-- The buffer of a die is enabled at local time pt (R67), and its slices convert from modulator edge e on (R46, R68). -/
def Die.enabled (pt e : Nat) (d : Die) : Die :=
  { d with refEnable := true, refReady := false, enabledAt := pt, bufOkFrom := pt, convLog := logPush false true e d.convLog }

/-- What begins with the end of BOOT, in a mode (R16, R46, R67, R210, R211, R280, R392). -/
def bootOut (m : Mode) (s : State) : State :=
  let pt := s.time.pt
  let s := portsFresh { s with
    power := { s.power with mode := m, warmStart := pt, warmEnd := if m = .warm then none else some pt,
                            ocxoFrom := if s.clocks.ocxo.running then none else some pt }
    dies := s.dies.map fun d => (Die.serving d).enabled pt (edgeNow s)
    ptp.state := 1
    time := { s.time with tw := 0, frac := 0, cycTw := 0, cycFrac := 0, cycInc := s.time.inc, reserveLeft := budget s.conf.cfg s.clocks.perfNow / 5 } }
  let s := openFrame s
  { s with
    frame := ⟨0, 0, s.time.epoch, s.conf.generation, s.conf.digest⟩
    link.ports := s.link.ports.mapIdx fun p q => { q with downFrom := some pt, shareLeft := shareOctets s p } }

/-- BOOT_COMPLETE (R451): BOOT ends in WARM, or in SAFE when its self-test fails. -/
def bootComplete (selfTest : Bool) (slot : BootRead) (s : State) : State :=
  if s.power.mode ≠ .boot ∨ s.power.bootHeld then s
  else
    let s := { s with store := s.store.read slot }
    let s := loadImage slot (loadKeep s)
    let s := bootOut (if selfTest then .warm else .safe) (bootLevel s)
    let s := if s.store.bootBank = 2 ∨ 3 ≤ s.store.slotState then raisePn 10 s else s
    bootMirror s

def execBootComplete (selfTest : Bool) (slot : BootRead) (s : State) : Result := done (bootComplete selfTest slot s)

/-- Local time that WARM has lasted while the OCXO ran (R380). -/
def warmTime (s : State) : Nat :=
  let t := s.power.warmEnd.getD s.time.pt
  t - s.power.warmStart - s.power.ocxoOff - (match s.power.ocxoFrom with | some x => t - x | none => 0)

/-- Open WARM conditions (R380). -/
def warmOpen (s : State) : Nat :=
  let secs (n : Nat) : Bool := decide (warmTime s < n * 256000000000)
  let b (x : Bool) (k : Nat) : Nat := if x then 2 ^ k else 0
  b (secs (cfgAt s 0x5802 0) || !s.power.ocxoOven) 0 + b (secs (cfgAt s 0x5802 1) || !s.power.refOven) 1
    + b (s.dies.any fun d => d.refEnable && !d.refReady) 2 + b (!(srcAt s s.clocks.inUse).running) 3

/-- WARM_ELAPSED (R380). -/
def warmElapsed (s : State) : Nat := warmTime s / 256000000000

/-- WARM_END (R380, R77): C0 is due at the next tick. -/
def warmDone (s : State) : State :=
  if s.power.mode = .warm ∧ warmOpen s = 0 ∧ !s.cal.fromWarm then
    { s with power.warmWait := 0, cal := { s.cal with fromWarm := true } }
  else s

def execWarmEnd (s : State) : Result := if live s then done (warmDone s) else .next s

/-- WARM_OVERTIME (R380): 900 s in WARM with a condition open. -/
def warmOvertime (s : State) : State :=
  if s.power.mode = .warm ∧ 900 * 256000000000 ≤ warmTime s ∧ warmOpen s ≠ 0 ∧ !s.power.warmOver then raisePn 3 { s with power.warmOver := true } else s

def execWarmOvertime (s : State) : Result := if live s then done (warmOvertime s) else .next s

/-- No class queue, nor the stream buffer or the reserve region, holds a frame (R387, R456). -/
def drained (s : State) : Bool :=
  (List.range 3).all (fun q => decide (queueOctets s q = 0)) && decide (s.buf.depth = 0) && decide (reserveFill s = 0)

/-- Nothing is left that HIBERNATE would lose, and SAFE need not end with BOOT (R379, R387, R395, R425). -/
def mayHibernate (s : State) : Bool :=
  !s.power.wake && drained s && !(decide (s.power.mode = .safe) && s.power.bootOnly) && s.store.writing.isNone && !s.store.again && s.store.mirroring.isNone
    && s.store.mirrorNext.isNone && s.conf.hoist.isNone

/-- Write of HIBERNATE (R387). -/
def hibernateWrite (r : Role) (v : BitVec 8) (s : State) : Ans :=
  gate r .custodian (decide (v = 0x5A)) [.ready, .safe] s fun s =>
    if mayHibernate s then accept { s with power.hibEntry := true } else refuse 0x0301 s

def execHibernate (r : Role) (v : BitVec 8) (s : State) : Result := served s (hibernateWrite r v)

/-- ENTRY_INTO_HIBERNATE (R387), out of READY or SAFE (Table 0.5): a WAKE asserted during the entry leads to BOOT as it
completes. HIBERNATE is reached only with every queue empty (R456). -/
def hibernateEntry (s : State) : State :=
  if s.power.hibEntry && [Mode.ready, .safe].contains s.power.mode && drained s then
    let seen := s.power.wakeSeen
    let s := cold .hibernate (keepFinish s)
    if s.power.wake || seen then hibExit { s with power := { s.power with hibWake := true } } else s
  else s

/-- CAL_C0 (R77). After an accepted HIBERNATE the entry has come before C0 (notes/assumptions/77.md). -/
def execCalC0 (s : State) : Result :=
  if s.power.hibEntry && drained s then .next (hibernateEntry s) else if live s then done (calC0 s) else .next s

def execEntryIntoHibernate (s : State) : Result := .next (hibernateEntry s)

/-- Write of MODULE_RESET (R345, R388). -/
def moduleResetWrite (r : Role) (v : BitVec 8) (s : State) : Ans :=
  gate r .custodian (decide (v = 0xA5)) servedModes s fun s =>
    accept { s with power.resetEntry := some (if s.power.mode = .safe then 4 else 3) }

def execModuleReset (r : Role) (v : BitVec 8) (s : State) : Result := served s (moduleResetWrite r v)

/-- RESET_COMMAND_BOOT_ENTRY (R345, R388). -/
def resetEntry (s : State) : State :=
  match s.power.resetEntry with
  | some cause => if live s then bootStart cause s else s
  | none => s

def execResetCommandBootEntry (s : State) : Result := .next (resetEntry s)

/-- The instruction takes over the contacts (R425). -/
def takesContacts : JtagInstr → Bool
  | .extest | .clamp | .highz => true
  | .bypass | .idcode | .samplePreload => false

/-- A level that the module drives at a contact, or none. -/
inductive Contact where
  | high
  | low
  | open_
deriving DecidableEq, Repr

/-- A contact of the boundary-scan register: cell k drives it under EXTEST and CLAMP, nothing under HIGHZ, and the module
under the other instructions (R425). -/
def scanned (s : State) (k : Fin 5) (own : Contact) : Contact :=
  match s.power.jtag with
  | .extest | .clamp =>
    if s.power.jtagCells.drive[k] then (if s.power.jtagCells.level[k] then .high else .low) else .open_
  | .highz => .open_
  | .bypass | .idcode | .samplePreload => own

/-- TRGOUTo (Table 17.8): high-impedance in OFF, HIBERNATE and BOOT. -/
def trgContact (s : State) (o : Fin 2) : Contact :=
  scanned s ⟨o.val, by omega⟩ <| if !live s then .open_ else if (s.outs.getD o ⟨false, [], 0, 0⟩).level then .high else .low

/-- REPLACE_N (Table 17.8): an open drain. -/
def replaceContact (s : State) : Contact := scanned s 4 (if replaceN s then .low else .open_)

/-- SCL (0) and SDA (1) beside the level that the slot memory's bus has (R425, Table 17.8). -/
def slotContact (s : State) (k : Fin 2) (own : Contact) : Contact := scanned s ⟨k.val + 2, by omega⟩ own

/-- PRESENT_N is joined to PGND in every state (R419). -/
def presentContact : Contact := .low

/-- EXTREF+ and EXTREF− are held open in every state (R416). -/
def extrefContact : Contact := .open_

/-- The front ends are powered and the guards driven (R38, R39). -/
def frontEndOn (s : State) : Bool := live s

/-- The receivers of the event inputs are on (Table 17.8). -/
def eventsOn (s : State) : Bool := live s

/-- The transmitter of port p is active, and its receiver with it (R280, Table 17.8). -/
def portOn (s : State) (p : Nat) : Bool := live s && decide ((portAt s p).role ≠ 0)

/-- REFCLK10 is monitored, and the bus and supply of the slot memory and the TAP are powered (Table 17.8). -/
def staffOn (s : State) : Bool := s.power.mode.clocked

/-- WAKE acts (Table 17.8): in HIBERNATE, and while it is judged after VMAIN was applied. -/
def wakeActs (s : State) : Bool := decide (s.power.mode = .hibernate) || s.power.wakeWindow

/-- JTAG_INSTRUCTION_UPDATE (R425). Test-Logic-Reset selects IDCODE (notes/assumptions/94.md) and disturbs nothing. In
BOOT, SAFE is entered with what the keep region holds and the configuration at its power-up values
(notes/assumptions/20.md). -/
def jtagUpdate (j : JtagEvent) (s : State) : State :=
  match j with
  | .testLogicReset => { s with power.jtag := .idcode }
  | .update i cells =>
    let s := { s with power := { s.power with jtag := i, jtagCells := cells } }
    if takesContacts i then
      let s := if s.power.mode = .boot then bootOut .safe (loadKeep s) else enterSafe s
      { s with power.bootOnly := true }
    else s

def execJtagInstructionUpdate (j : JtagEvent) (s : State) : Result :=
  if s.power.mode.clocked then done (jtagUpdate j s) else .next s

end Sys2Proof.Machine
end

