-- ==== Sys2Proof/Machine/Firing.lean ====
section
/-! DEFINITION. What a frame tick fires (steps 2 to 4 of R32): the first setting of tw and time steps (R26, R150,
R232, R233), the hoist and its effects (R343), and the due operations in their order (R250 to R252, R35, R461). -/

namespace Sys2Proof.Machine

/-- A tick with time word `now` has come for a waiting operation. It is due from the first tick on for which F is at or
before the tick's time word (R250), or, written directly, whose count it completes (R29); what is due stays due. -/
def Sched.tick (now : TW) (e : Sched) : Sched :=
  let come := if e.slot.isNone then decide (e.left ≤ 1) else TW.atOrBefore e.fire now
  { e with left := e.left - 1, due := if e.due ≠ 0 then e.due + 1 else if come then 1 else 0 }

/-- The next tick has come for every waiting operation. -/
def countTick (s : State) : State := { s with act.sched := s.act.sched.map (Sched.tick s.time.tw) }

/-- Timed actions that a step at this tick has jumped over, or made due, are due too (R250). -/
def dueAfterStep (s : State) : State :=
  { s with act.sched := s.act.sched.map fun e =>
      if e.due = 0 ∧ e.slot.isSome ∧ TW.atOrBefore e.fire s.time.tw then { e with due := 1 } else e }

/-- The fire ticks of waiting direct writes on the grid that holds now: a step, a setting of tw or a change of TF
moves them (R29, notes/assumptions/29.md). -/
def retick (s : State) : State :=
  { s with act.sched := s.act.sched.map fun e => if e.left = 0 then e else { e with fire := tickAfter s (e.left - 1) } }

/-- Ends the last grid segment of a stream below index `lim` and begins another (R150, R151). -/
def cutSegs (lim : Nat) (new : GridSeg) (l : List GridSeg) : List GridSeg :=
  match l.getLast? with
  | some g => l.dropLast ++ [{ g with limit := some lim }, new]
  | none => []

/-- Begins a further grid segment of every running stream: `lim` and the first new index by output rate. -/
def newSegs (lim start : Nat → Nat) (s : State) : State :=
  let s := { s with segIdent := s.segIdent + 1 }
  let c := s.conf.cfg
  { s with streams := s.streams.mapIdx fun i t =>
      let rate := cv c 0x3600 i
      { t with segs := cutSegs (lim rate) ⟨start rate, none, s.time.epoch, s.shift, s.segIdent, start rate⟩ t.segs } }

/-- tw takes a new value at a tick; held offsets and the span of R174 follow (R26, R150, Table 9.6).
The epoch is set before. C0 and the end tick of a calibration keep their time words (notes/assumptions/50.md). -/
def jumpTo (t : TW) (delta : Int) (s : State) : State :=
  let old := s.time.tw.toNat
  let s := { s with time := { s.time with tw := t, frac := 0, cycTw := s.time.cycTw + BitVec.ofInt 64 delta }
                    shift := s.shift + delta, aux.spanEnd := s.aux.spanEnd.map (· + BitVec.ofInt 64 delta) }
  shiftOffsets delta (newSegs (fun r => gridAt r old) (fun r => gridAt r t.toNat) s)

/-- Era of a time word near the master's time (R14). -/
def eraNear (m : Nat × TW) (t : TW) : Nat :=
  (((m.1 * 2 ^ 64 + m.2.toNat : Nat) + TW.diff m.2 t) / 2 ^ 64 % 65536).toNat

/-- The first setting of tw by a lock (R233). -/
def firstLock (s : State) : State :=
  let delta : Int := -(roundRat (thetaBar s / 256))
  let t := BitVec.ofInt 64 ((s.time.tw.toNat : Int) + delta)
  let era := match s.ptp.master with | some m => eraNear m t | none => s.time.era
  let s := jumpTo t delta s
  standingCauses { s with time := { s.time with quality := 1, setPending := none, era := era }, ptp.setDue := false }

/-- The setting of tw by the host (R232). Without a master's time the era is a free value. -/
def firstSet (t : TW) (s : State) : State :=
  let delta := TW.diff s.time.tw t
  let (v, s) := fresh s
  let era := match s.ptp.master with | some m => eraNear m t | none => v % 65536
  let s := jumpTo t delta s
  let s := { s with time := { s.time with quality := 1, setPending := none, era := era } }
  standingCauses (if s.ptp.best.isNone then setCause 6 s else s)

/-- First settings due at a tick: the lock goes before a TIME_SET, which then has no effect (R232). -/
def setTime (s : State) : State :=
  if s.ptp.setDue ∧ s.time.quality = 0 then firstLock s
  else match s.time.setPending with
    | some (t, F) =>
      if !TW.atOrBefore F s.time.tw then s
      else if s.time.quality = 0 then firstSet t s else { s with time.setPending := none }
    | none => s

/-- Instants T_m of unit u that a step to the time word t jumps over (R188). -/
def jumpedInstants (s : State) (u : Nat) (t : TW) : Nat :=
  let x := unitAt s u
  let d := TW.diff (unitInstant s u x.nextM) t
  let q := cfgAt s 0x3C0A u
  if !x.armed ∨ cfgAt s 0x3C02 u ≠ 5 ∨ d ≤ 0 then 0 else if q = 0 then 1 else ceilDiv d.toNat q

/-- Fires the instants that a step has jumped over; they are counted by unit before the step. -/
def fireJumped (n : List Nat) (s : State) : State := forNat 8 (fun u => forNat (n.getD u 0) fun _ => fireInstant u) s

/-- A time step of Δ (R26, R28, R30, R150). -/
def stepTime (delta : BitVec 64) (s : State) : State :=
  let d := delta.toInt
  let new : Int := (s.time.tw.toNat : Int) + d
  let t := BitVec.ofInt 64 new
  let jumped := (List.range 8).map fun u => jumpedInstants s u t
  let era := (((s.time.era : Int) + new / 2 ^ 64) % 65536).toNat
  let s := { s with time := { s.time with epoch := s.time.epoch + 1, era := era, lastStepTick := t, lastStepDelta := delta } }
  keepSave (fireJumped jumped (jumpTo t d s))

/-- What a tick has fired so far. -/
structure Fired where
  st   : State
  /-- Streams that stop at the tick. -/
  finals : List Nat
  /-- Operations fired. -/
  ops  : Nat
deriving DecidableEq, Repr

/-- Outcome of an operation at the tick (Table 10.6): `old` and the present tw are the tick's time words. -/
def fireOutcome (old : TW) (code : Nat) (e : Sched) (s : State) : Nat :=
  let now := s.time.tw
  if code ≠ 0 then 2 else if e.due ≤ 1 ∧ (e.fire = old ∨ (e.fire = now ∧ TW.later old now)) then 0 else 1

/-- Takes an operation out of the table. -/
def unsched (e : Sched) (s : State) : State := { s with act.sched := s.act.sched.erase e }

/-- Conditions of an operation at its tick (R252, R84). -/
def fireCond (op : Op) (s : State) : Nat :=
  let F := s.time.tw
  if calBars s F then 0x0301
  else match op with
    | .startStreams m => startCond s [] F m
    | .stopStreams m => stopCond s [] m
    | .trg a => trgCond s [] a
    | .owc a => owcCond s F a
    | .xfade a => fadeCond s [] F a []
    | .stepTime _ => if s.time.quality = 0 then 0x0301 else 0
    | .hoist => 0

/-- A stream starts (R152, R269). -/
def Stream.begin_ (rate : Nat) (s : State) (t : Stream) : Stream :=
  let n := gridAt rate s.time.tw.toNat
  { t with running := true, startTw := s.time.tw, segs := [⟨n, none, s.time.epoch, s.shift, s.segIdent, n⟩], avg := .init,
           parts := [], firstDue := true }

/-- Unit u takes up its source stream anew: its averager and the outputs that it watches begin with it (R152, R183). -/
def Unit.anew (x : Unit) : Unit := { x with avg := .init, hist := [] }

/-- Starts stream st at the tick. -/
def startStream (st : Nat) (s : State) : State :=
  forNat 8 (fun u x => if unitStream s u = st then onUnit u Unit.anew x else x) (onStream st (Stream.begin_ (cfgAt s 0x3600 st) s) s)

/-- Stops stream st at the tick; units that watch it disarm (Table 8.8). -/
def stopStream (st : Nat) (s : State) : State :=
  let s := onStream st Stream.stopped s
  forNat 8 (fun u s => if unitStream s u = st then disarmUnit u s else s) s

/-- The effect of an operation at its tick. -/
def fireEffect (e : Sched) (s : State) : State :=
  match e.op with
  | .startStreams m => forList (streamsOf m) startStream s
  | .stopStreams m => forList (streamsOf m) stopStream s
  | .trg a => forNat 8 (fun u s => if a.toNat.testBit u then (if a.toNat.testBit 8 then armUnit u s else disarmUnit u s) else s) s
  | .owc a => owcBegin e a s
  | .xfade a => fadeBegin e a s
  | .stepTime d => stepTime d s
  | .hoist => s

/-- Streams that an operation ends. -/
def endsStreams (op : Op) (code : Nat) : List Nat :=
  match op with
  | .stopStreams m => if code = 0 then streamsOf m else []
  | _ => []

/-- A direct operation leaves a record at its tick only when it is a check or a fade that fails (R253), or a fade that
another one has held back (R135). -/
def recordsNow (e : Sched) (code : Nat) : Bool :=
  e.slot.isSome || (leavesRecord e.op && decide (code ≠ 0)) || (decide (opCode e.op = 7) && decide (1 < e.due))

/-- A scheduled fade waits while another fade of its group runs (R135). -/
def fadeWaits (op : Op) (s : State) : Bool :=
  match op with
  | .xfade a => (groupAt s (fadeGroup a)).fade.isSome
  | _ => false

/-- Fires one due operation. -/
def fireOne (old : TW) (a : Fired) (e : Sched) : Fired :=
  if fadeWaits e.op a.st then a
  else
    let s := unsched e a.st
    let code := fireCond e.op s
    let s := if code = 0 then fireEffect e s else s
    let r := recordsNow e code
    let s := if r then oweCompletion (recordOf s e (fireOutcome old code e s) code s.time.tw) s else s
    ⟨s, a.finals ++ endsStreams e.op code, a.ops + 1⟩

/-- How many of n due operations the tick takes (R34, R35). -/
def tickRoom (c : KV) (hoist : Bool) (now lv n : Nat) : Nat :=
  ((List.range (min n 32 + 1)).filter fun a => let p := tickLoad c hoist now lv a; decide (p.1 ≤ p.2)).foldl max 0

/-- Operations other than the hoist that are due, in the order of R35: those deferred from earlier ticks first. -/
def dueOps (s : State) : List Sched :=
  let l := s.act.sched.filter fun e => decide (e.due ≠ 0) && decide (e.op ≠ .hoist)
  sortSched s (l.filter fun e => decide (1 < e.due)) ++ sortSched s (l.filter fun e => decide (e.due = 1))

/-- The pending hoist, when it is due. -/
def dueHoist (s : State) : Option Sched := s.act.sched.find? fun e => decide (e.due ≠ 0) && decide (e.op = .hoist)

/-- A time step of the table. -/
def isStep (op : Op) : Bool := match op with | .stepTime _ => true | _ => false

/-- The level that a hoist of the present tick takes with the configuration c (R383). -/
def commitLevel (s : State) (c : KV) : Nat :=
  let x := aroundNow s
  (chosenLevel c (levelNow s) x.count x.laterCounts).getD (levelNow s)

/-- The step that the tick applies, if any: among the operations that the tick takes (R35). -/
def dueStep (s : State) : Option Sched :=
  let h := (dueHoist s).isSome
  let c := if h then cfgApply s.conf.cfg (hoistContent s) else s.conf.cfg
  let now := levelNow s
  let lv := if h then commitLevel s c else now
  let l := (dueOps s).filter fun e => !fadeWaits e.op s
  (l.take (tickRoom c h now lv l.length)).find? fun e => isStep e.op

/-- Step 2 of R32. No step is applied at a tick that begins a frame shorter than TF without it (R27). -/
def fireStep (old : TW) (a : Fired) : Fired :=
  if shortAt (tf a.st) old then a
  else match dueStep a.st with
    | some e => fireOne old a e
    | none => a

/-- Effects of a commit on the channels: gain, aperture trim, pull, user layer and open-wire checks (R44, R47, R53, R57,
R74), each from the first modulator edge at or after the tick. The state still holds the configuration before it. -/
def hoistChannels (content : KV) (s : State) : State :=
  let c := cfgApply s.conf.cfg content
  let e := edgeNow s
  let s := owcTouch content s
  onChans (fun i ch =>
    let ch := if changes s content (chanKey 1 i) then
        addTaint e (e + 17) { ch with gainLog := logPush (gainNow s i) (cfgGet c (chanKey 1 i)) e ch.gainLog }
      else ch
    let ch := if changes s content (chanKey 2 i) then
        { ch with trimLog := logPush (signedOf 16 (cfgGet s.conf.cfg (chanKey 2 i))) (signedOf 16 (cfgGet c (chanKey 2 i))) e
                               ch.trimLog }
      else ch
    let ch := if changes s content (chanKey 3 i) && !(ch.owcIn && decide ((groupAt s (i / 32)).owc.pull ≠ 0)) then
        setPull e (cfgGet c (chanKey 3 i)) (cfgGet s.conf.cfg (chanKey 3 i)) ch
      else ch
    if userOf s.conf.cfg i = userOf c i then ch
    else { ch with userLog := logPush (userOf s.conf.cfg i) (userOf c i) e ch.userLog }) s

/-- Chain restarts of a commit (R123, R124); `was` is the state before it. -/
def hoistChains (was : State) (content : KV) (s : State) : State :=
  forNat 4 (fun g s => if restarts was content g then
    restartChain g (if changes was content (key 0x3402 g) then selectBank g (firL s.conf.cfg g) s else s) else s) s

/-- Effects of a commit on the trigger units (R183, R187): one whose source, mask or averaging changes begins its averages
and its watch anew. -/
def hoistUnits (was : State) (content : KV) (s : State) : State :=
  forNat 8 (fun u s =>
    if [0x3C01, 0x3C02, 0x3C03, 0x3C0E, 0x3C15].any fun i => changes was content (key i u) then onUnit u Unit.anew s else s) s

/-- Effects of a commit on the ports (R280) and on network time (Table 9.6). -/
def hoistNet (was : State) (content : KV) (s : State) : State :=
  let any (l : List Nat) : Bool := content.any fun p => l.contains (keyIdx p.1) && changes was content p.1
  let s := if any [0x4900, 0x4901] then
      let s' := portsFresh s
      let s' := forNat 4 (fun p x => if ringPort x p ≠ ringPort s p then ptpFresh p x else x) s'
      if upPort s' = upPort s then s' else rewind s'
    else s
  let s := if changes was content (key 0x4012 0) then
      { s with ptp.ports := s.ptp.ports.map fun p => { p with masters := [] } }
    else s
  let s := if any [0x4102, 0x4103] then
      forNat 4 (fun p s => onPtp p (·.recable (cfgInt s 64 0x4102 p - cfgInt was 64 0x4102 p)
        (cfgInt s 64 0x4103 p - cfgInt was 64 0x4103 p)) s) s
    else s
  let s := if any [0x4012, 0x4013] then { s with ptp.since := s.ptp.since.set 4 0 } else s
  if any [0x4012, 0x4900, 0x4901] then masterUpdate s else s

/-- A hoist over a foreign slot memory claims the slot (R364). -/
def slotClaim (s : State) : State :=
  if s.store.slotState = 4 ∨ s.store.slotState = 6 then { s with store.slotState := 1 } else s

/-- Commits a content (R343, R364, R365, R383). -/
def commit (content : KV) (k : BitVec 128) (s : State) : State :=
  let now := levelNow s
  let c := cfgApply s.conf.cfg content
  let lv := commitLevel s c
  let conf := { s.conf with cfg := c, hoist := none, generation := newGen k, digest := digestOf c, admitCode := 0,
                            margin := budgetMargin c lv, creditNeed := creditNeed c }
  let t := { hoistChannels content s with conf := conf }
  let t := hoistNet s content (hoistUnits s content (hoistChains s content t))
  let t := if lv = now then t else { t with clocks.perfTarget := some lv }
  imageSave (slotClaim t)

/-- Step 3 of R32: the hoist of the tick (R343, R84). -/
def fireHoist (old : TW) (e : Sched) (a : Fired) : Fired :=
  let s := unsched e a.st
  match s.conf.hoist with
  | none => { a with st := s }
  | some h =>
    let x := if calBars s s.time.tw then (none, 0x0301) else hoistTests s h.content h.check s.time.tw (aroundNow s)
    let s := if x.2 = 0 then commit h.content h.check s else hoistTrace x.1 x.2 (hoistReturn s)
    let s := { s with conf := { s.conf with hoistLastTick := s.time.tw, hoistLastResult := x.2 } }
    { a with st := oweCompletion (recordOf s e (fireOutcome old x.2 e s) x.2 s.time.tw) s }

/-- Streams that run. -/
def runningStreams (s : State) : List Nat := (List.range 16).filter fun st => (streamAt s st).running

/-- The reserve stop, ahead of the operations of step 4 (R311). -/
def reserveStop (a : Fired) : Fired :=
  let s := a.st
  let l := runningStreams s
  if 3 * wCfg s.conf.cfg + reserveFill s ≤ cfgAt s 0x4B05 0 * 2 ^ 20 then a
  else
    let s := raisePn 8 { s with buf.reserveStops := satInc s.buf.reserveStops }
    { a with st := forList l stopStream s, finals := a.finals ++ l }

/-- Step 4 of R32: the due operations that the tick takes, time steps apart (R27, R35). `level` is the level in force
before the tick, and `hoist` says whether a hoist was due. -/
def fireOps (old : TW) (hoist : Bool) (level : Nat) (a : Fired) : Fired :=
  let s := a.st
  if shortAt (tf s) s.time.tw then a
  else
    let l := (dueOps s).filter fun e => !isStep e.op
    let room := tickRoom s.conf.cfg hoist level (levelNow s) (l.length + a.ops)
    l.foldl (fun a e => if a.ops < room then fireOne old a e else a) a

/-- RUN while a stream runs, READY otherwise (R269). -/
def runMode (s : State) : State :=
  match s.power.mode with
  | .ready => if anyRunning s then { s with power := { s.power with mode := .run } } else s
  | .run => if anyRunning s then s else { s with power := { s.power with mode := .ready } }
  | _ => s

end Sys2Proof.Machine
end

