-- ==== Sys2Proof/Machine/Background.lean ====
section
/-! DEFINITION. The background slice (R392, R393): health conversions and their evaluation (R173, R394), reference
supervision, patrol, scrub, port self-tests and the trigger of converter calibrations (R171). -/

namespace Sys2Proof.Machine

/-- The 43 internal points outside the cycles of ZENERDIFF and REFDEV, by ascending source (R173). -/
def otherPoints : List Nat :=
  (((List.range 48).map (· + 16)).filter fun x => x ≠ 0x38 ∧ x ≠ 0x10 ∧ x ≠ 0x1A ∧ x ≠ 0x24 ∧ x ≠ 0x2E)

/-- The point of a position of the cycle of R173; none for the next of the other points. -/
def healthPoint (s : State) (pos : Nat) : Option Nat :=
  let refdev (g : Nat) : Option Nat := if (dieAt s g).refEnable then some (refdevSource g) else none
  if pos % 4 = 0 then (if s.ref.inUse = 0 then some 0x38 else refdev (pos / 4))
  else if pos % 4 = 2 then refdev ((pos - 2) / 4)
  else none

/-- Enqueues the health conversion of the slice at t_s = 4 µs (R173). ZENERDIFF and REFDEV take G = 8, the others
G = 1. A full queue leaves it out. -/
def healthEnqueue (s : State) : State :=
  let pos := s.aux.healthPos
  let s := { s with aux.healthPos := (pos + 1) % 16 }
  match healthPoint s pos with
  | some src => (auxEnqueue ⟨2, src, 3, 4, 0⟩ s).getD s
  | none =>
    let i := s.aux.other
    let s := { s with aux.other := (i + 1) % 43 }
    (auxEnqueue ⟨2, otherPoints.getD i 0, 0, 4, 0⟩ s).getD s

/-- Range of a supervised point (Table 16.2); none for the others. -/
def pointRange (src : Nat) : Option (Rat × Rat) :=
  let d := (src - 0x10) % 10
  if src = 0x3B then some (1080 / 100, 1320 / 100)
  else if src = 0x3E then some (1164 / 1000, 1236 / 1000)
  else if src = 0x3C then some (-45, 110)
  else if src = 0x3A then some (895 / 10, 905 / 10)
  else if src < 0x10 ∨ 0x38 ≤ src then none
  else match d with
    | 2 => some (1210 / 100, 1290 / 100)
    | 3 => some (-1290 / 100, -1210 / 100)
    | 4 => some (87 / 100, 93 / 100)
    | 5 => some (-45, 105)
    | 9 => some (-5 / 1000, 5 / 1000)
    | _ => none

/-- Evaluates one health result against Table 16.2 (R394); the oven counts only after its first regulation. -/
def evaluate (a : Nat × Int × Bool) (s : State) : State :=
  let v := auxValue a.1 0 a.2.1
  let rest := s.health.outside.filter (· ≠ a.1)
  match pointRange a.1 with
  | none => s
  | some (lo, hi) =>
    let out := (decide (v < lo) || decide (hi < v)) && (decide (a.1 ≠ 0x3A) || s.health.ovenRegulated)
    { s with health.outside := if out then a.1 :: rest else rest }

/-- The oven temperature for its entry, and the staff-die temperature for holdover (R229) and for converter
calibrations (R171). -/
def takeTemp (a : Nat × Int × Bool) (s : State) : State :=
  if a.1 = 0x3A then { s with ref := { s.ref with ovenTemp := encF32 (auxValue 0x3A 0 a.2.1) } }
  else if a.1 = 0x3C then
    let s := if s.time.quality = 3 then
        match s.ptp.temp0 with
        | some t => { s with ptp.tempMax := max s.ptp.tempMax (a.2.1 - t).natAbs }
        | none => { s with ptp.temp0 := some a.2.1 }
      else s
    match s.aux.calTemp with
    | some t => if 10 < tempOf (a.2.1 - t).natAbs then auxCalRequest s else s
    | none => s
  else s

/-- A task of the slice ends: the flags settle, and the next one begins in a later engine cycle. -/
def taskEnd (s : State) : State := nextCyc (settle s)

/-- One background slice: the tasks of Table 16.1 in order. A level rises in the engine cycle of the event that makes it
rise (R405, R409, Table 16.8), so the flags settle after every task. -/
def slice (o : TickObs) (s : State) : State :=
  let got := s.aux.arrived
  let s := taskEnd (forList got evaluate (healthEnqueue (taskEnd s)))
  let s := taskEnd (supervise got s)
  let s := taskEnd (patrolTick o.dramErrors s)
  let s := taskEnd (scrubTick o.sramErrors s)
  let s := settle (selfTestTick s)
  let s := forList got takeTemp s
  { s with aux.arrived := s.aux.arrived.drop got.length }

/-- Step 5 of R32: the slice, or its loss at a hoist tick, a level change or a short frame (R393). -/
def background (o : TickObs) (hoist short : Bool) (s : State) : State :=
  if hoist || short then
    let s := if short then raisePn 17 s else s
    { s with health.bgSkipped := satInc s.health.bgSkipped }
  else slice o s

end Sys2Proof.Machine
end

