-- ==== Sys2Proof/Machine/Tick.lean ====
section
/-! DEFINITION. FRAME_TICK (R32): the close of blocks, time step, hoist and timed actions, the frames formed at the tick
(R296), the edge map (R144), and what the module judges once a frame. -/

namespace Sys2Proof.Machine

/-- Stream counters after the close of its block; a stream that goes on begins an empty block. -/
def mergeClosed (finals : List Nat) (ran : List Nat) (closed : List Stream) (i : Nat) (t : Stream) : Stream :=
  let k := closed.getD i .init
  let t := { t with blocks := k.blocks, excOver := k.excOver }
  if ran.contains i && !finals.contains i then { t with parts := [], firstDue := false } else t

/-- Step 1 of R32: the blocks of the frame that has ended, under its configuration and ensign word. It is formed from
the streams as they stood before the tick's starts and stops, whose FINAL marks it carries (R269, R311). -/
def closeTick (was : State) (ran finals : List Nat) (s : State) : State :=
  let l := ran.map fun st => (st, finals.contains st)
  let s' := closeBlocks was.conf.cfg (ensign was) l { s with streams := was.streams }
  { s' with streams := s.streams.mapIdx (mergeClosed finals ran s'.streams) }

/-- Pennant notices of the frame that has ended, from the state latched at the tick (R407). -/
def pennantNotices (was : State) (s : State) : State :=
  let l := (List.range 64).filter fun n =>
    (was.health.pennants.getD n Pennant.init).noted && (cfgAt was 0x5C08 0).testBit n
  forList l (fun n => formFrame 1 (plainFrame 0x04
    (noticeOctets was n (was.health.pennants.getD n Pennant.init)))) s

/-- A telemetry payload with event-ring records. -/
def telemetryOctets (l : List Nat) : List Nat :=
  [1] ++ octetsOf 2 l.length ++ List.replicate 5 0 ++ l.flatMap (octetsOf 8)

/-- Records of a telemetry frame: as many as the control allowance of one frame holds (R288, R297;
notes/assumptions/79.md). -/
def telemetryRecords : Nat := 246

/-- Telemetry frames of the frame that has ended (R244). -/
def telemetry (s : State) : State :=
  let l := s.ev.unsent
  forList (chunks telemetryRecords l.length l) (fun x => formFrame 1 (plainFrame 0x03 (telemetryOctets x))) { s with ev.unsent := [] }

/-- Latches the header values of the frame that begins (Table 11.3). -/
def latchFrame (s : State) : State :=
  { s with frame := ⟨s.time.tw, frameNumber (tf s) s.time.tw, s.time.epoch, s.conf.generation, s.conf.digest⟩ }

/-- A frame that reaches over the wrap of tw: the grid of every running stream restarts there (R151). -/
def wrapGrid (s : State) : State :=
  if s.time.nextTick.toNat < s.time.tw.toNat then newSegs (fun r => gridAt r (2 ^ 64)) (fun _ => 0) s else s

/-- The nominal slope of the edge map: one edge in 62,500 units, in 2^−64 edge per unit. -/
def nominalSlope : Int := 2 ^ 64 / 62500

/-- The edge map at a tick (R144), after a frame of `len` units, with the measured edge position. Event records of an epoch
that TIME_EPOCH has overwritten stay before those that follow (R30, R243). -/
def mapTick (len : Nat) (pos : Int) (s : State) : State :=
  let m := s.map
  match m.segs.head? with
  | none => { s with map := { m with segs := [⟨s.time.tw, s.time.epoch, pos, nominalSlope, s.shift, s.ptp.suspect⟩], lastMeas := pos } }
  | some g =>
    let e := g.e + roundDiv (len * g.q) (2 ^ 16)
    let count := pos - m.lastMeas
    let eps := pos - e
    let qh : Rat := (count * 2 ^ 16 : Int) / (len : Rat)
    let x : Rat := (eps * 2 ^ 16 : Int) / ((16 * tf s : Nat) : Rat)
    let lim : Rat := qh / 1000000000
    let q := roundRat (qh + max (-lim) (min lim x))
    let seg : MapSeg := ⟨s.time.tw, s.time.epoch, e, q, s.shift, s.ptp.suspect⟩
    let rewritten := decide (s.time.epoch ≠ g.epoch) && decide (s.shift = g.shift ∨ s.time.epoch ≠ g.epoch + 1)
    { s with map := ⟨(seg :: m.segs).take 4096, count, len, pos, (eps :: m.resid).take 10000⟩
             ev.fixed := if rewritten then s.ev.ring.recs.length else s.ev.fixed }

/-- A tick launch of the auxiliary sequence (R166). -/
def tickLaunch (s : State) : State :=
  let n := cfgAt s 0x3802 1
  if cfgAt s 0x3802 0 = 2 ∧ n ≠ 0 ∧ frameNumber (tf s) s.time.tw % n = 0 then launch (edgeTw s) s else s

/-- Allowances of the frame that begins: the dictionary reserve (R338, suspended by R27 and at a level change), the
control allowance (R288) and the declared shares (R313). -/
def allowances (suspended : Bool) (s : State) : State :=
  let s := { s with
    time := { s.time with reserveLeft := if suspended then 0 else budget s.conf.cfg s.clocks.perfNow / 5 }
    link.ctlLeft := ctlAllowance }
  { s with link.ports := s.link.ports.mapIdx fun p q => { q with shareLeft := shareOctets s p } }

/-- Forgets that pennants were raised in the frame that has ended. -/
def clearNoted (s : State) : State :=
  { s with health.pennants := s.health.pennants.map fun p => { p with noted := false } }

/-- The sensors of the tick: the ovens (R65, R380). -/
def tickOvens (o : TickObs) (s : State) : State :=
  { s with power := { s.power with refOven := o.refOven, ocxoOven := o.ocxoOven }
           health.ovenRegulated := s.health.ovenRegulated || o.refOven }

/-- The first frame tick after BOOT: the ordinary clock listens, and PORT_ROLE reads the roles (R220, R280, R433;
notes/assumptions/38.md). -/
def tickPorts (s : State) : State :=
  { s with ptp.state := if s.ptp.state = 1 then 4 else s.ptp.state, link.rolesRead := true }

/-- Entry into SAFE that was due at this tick (R395, R379). -/
def tickSafe (s : State) : State :=
  if s.power.safeDue then toSafe { s with time := { s.time with frameTw := s.time.tw } } else s

/-- Steps 2 and 3 of R32 and the frame that begins. The answer also tells whether a hoist was judged. -/
def tickHead (s : State) : Fired × Bool :=
  let old := s.time.tw
  let a := fireStep old ⟨setTime s, [], 0⟩
  let a := { a with st := dueAfterStep a.st }
  if shortAt (tf a.st) a.st.time.tw then ({ a with st := retick (openFrame a.st) }, false)
  else match dueHoist a.st with
    | some e => let b := fireHoist old e a; ({ b with st := retick (openFrame b.st) }, true)
    | none => ({ a with st := retick (openFrame a.st) }, false)

/-- Step 4 of R32. -/
def tickOps (old : TW) (hoist : Bool) (level : Nat) (a : Fired) : Fired :=
  let a := reserveStop { a with st := owcTick a.st }
  let b := fireOps old hoist level a
  { b with st := runMode (outsLow b.st) }

/-- What the module judges once a frame after its operations. -/
def tickJudge (o : TickObs) (len : Nat) (suspended : Bool) (s : State) : State :=
  let s := mapTick len o.edgePos (suspectTick (wrapGrid s))
  let s := calStep6 (calStep5 o.calPairs o.calLevels (calStep3 o.calWeights s))
  let s := tickLaunch (auxResume (forNat 4 visitStart s))
  let s := forNat 11 gateTick (refEval s)
  let s := if s.power.mode = .warm then { s with power := { s.power with warmWait := warmOpen s } } else s
  allowances suspended s

/-- The drains of one frame, with the DRAM errors that their reads meet (R197, R201, R397). -/
def drainAll (o : TickObs) (s : State) : State :=
  let t := forNat 8 (drainUnit o.capFaults) s
  let t := forList (o.capFaults.filter (capRead s t)) (fun f => dramError { f.err with uncorrectable := true }) t
  forList o.capDram (fun e => dramError { e with uncorrectable := false }) t

/-- FRAME_TICK: the next tick is reached, and R32 runs. -/
def frameTick (o : TickObs) (s : State) : State :=
  let s := tickTune o.tune (tickPorts (tickOvens o (tickSafe (countTick (toTick (decideOffers s))))))
  let was := s
  let ran := runningStreams s
  let level := levelNow s
  let len := frameLen s.time.frameTw s.time.tw
  let (a, hoist) := tickHead (clearNoted s)
  let a := tickOps was.time.tw hoist level a
  let s := closeTick was ran a.finals a.st
  let s := drainAll o s
  let s := sendLate (telemetry (sendCompletions (pennantNotices was s)))
  let s := spillCheck o.spillFaults s
  let changed := decide (levelNow s ≠ level)
  let s := tickJudge o len (changed || s.time.shortFrame) (latchFrame s)
  background o (hoist || changed) s.time.shortFrame (lateTick s)

/-- FRAME_TICK (R32), in every state from WARM to SAFE. A tick that would start a stream after an accepted HIBERNATE
or form frames finds the module in HIBERNATE: the entry, which R387 bounds only by 2 ms, has come before it
(R456, notes/assumptions/77.md). -/
def execFrameTick (obs : TickObs) (s : State) : Result :=
  if live s then
    let t := frameTick obs s
    if s.power.hibEntry && drained s && (decide (t.power.mode = .run) || !drained t) then .next (hibernateEntry s) else done t
  else .next s

end Sys2Proof.Machine
end

