-- ==== Sys2Proof/Machine/Read.lean ====
section
/-! DEFINITION. What a read of each entry returns (R321, chapter 18): one function for each table of the map, and
readEntry over all of them. -/

namespace Sys2Proof.Machine

/-- A Boolean as a number. -/
def boolNat (b : Bool) : Nat := if b then 1 else 0

/-- Signed 32-bit and 64-bit wire values. -/
def w32 (i : Int) : Nat := wireInt 32 i
/-- A signed 64-bit wire value. -/
def w64 (i : Int) : Nat := wireInt 64 i

/-- The factory image (R356, R450): the spec gives its SEQUENCE, SERIAL and WRITTEN_TW no value. -/
def factoryImage : List Nat :=
  imageOctets 0x01
    { compat := 1, sequence := BitVec.ofNat 32 (factoryRaw 0x7100 1 4), generation := 0, digest := digestOf [], nodeId := 0,
      serial := BitVec.ofNat 32 (factoryRaw 0x7100 2 4), writtenTw := BitVec.ofNat 64 (factoryRaw 0x7100 3 8),
      records := imageRecords [] State.reset } []

/-- Octets 256·k to 256·k + 255 of the factory image. -/
def factoryPage (k : Nat) : List Nat :=
  let p := (factoryImage.drop (256 * k)).take 256
  p ++ List.replicate (256 - p.length) 0

/-- The entry of the action table in a slot (R249). -/
def actionSlot (s : State) (n : Nat) : List Nat :=
  match s.act.sched.find? fun e => decide (e.slot = some n) with
  | some e => octetsOf 2 e.handle ++ octetsOf 8 e.fire.toNat ++ octetsOf 32 e.desc.toNat
  | none => List.replicate 42 0

/-- A missed-trigger log entry (Table 8.7). -/
def missOctets (m : Miss) : List Nat :=
  octetsOf 8 m.instant.toNat ++ [m.reason, m.kind * 16] ++ octetsOf 2 m.epoch.toNat ++ octetsOf 4 m.capture

/-- Requests in flight (R337): queued ones, and ones whose answer has not left. -/
def inFlight (s : State) : Nat := s.dict.queue.length + s.link.own.countP (·.counted)

/-- Per-channel entries (Table 18.3). -/
def readChan (s : State) (p c : Nat) : Nat :=
  let x := chanAt s c
  match p with
  | 4 => x.ovrCount
  | 5 => x.ovrLast.toNat
  | 6 => boolNat x.ovrLevel
  | 7 => x.owResult
  | _ => x.owRes

/-- Table 18.4. -/
def read1 (s : State) (idx sub : Nat) : Nat :=
  match idx with
  | 0x1002 => stateCode s.power.mode
  | 0x1008 => 0x476C69766F205A562D313238
  | 0x1018 => if sub = 1 then 0x484F4C54 else if sub = 2 then 0x5A560080 else if sub = 3 then 0x00010000
    else factoryRaw 0x1018 4 4
  | 0x1201 => if sub = 1 then s.dict.keyOp.gen.toNat else s.dict.keyCu.gen.toNat
  | _ => if sub = 0 then s.dict.authFails else if sub = 1 then s.dict.duplicates else if sub = 2 then s.dict.requests
    else inFlight s

/-- Tables 18.5 and 18.6, but for the slices. -/
def read2 (s : State) (idx sub : Nat) : Nat :=
  let d := dieAt s sub
  match idx with
  | 0x2F42 => owcState s sub
  | 0x2F44 => (groupAt s sub).owc.lastStart.toNat
  | 0x3000 => boolNat d.refEnable
  | 0x3001 => boolNat d.refReady
  | 0x3002 => if sub = 0 then s.ref.inUse else if sub = 1 then w32 s.ref.k
    else if sub = 2 then (match s.ref.ratio with | some q => encF64 q | none => nan64) else s.ref.ovenTemp
  | 0x3004 => if sub = 0 then s.cal.state else s.cal.lastStart.toNat
  | 0x3005 => d.calResult
  | 0x3011 => d.rotNext
  | 0x3012 => d.rotPhase
  | 0x3013 => sparesLeft d
  | 0x3014 => d.limited
  | 0x3015 => d.fitFail
  | 0x3016 => d.skipped
  | _ => d.orphan

/-- Slice and channel entries of 0x3020 to 0x33FF (Tables 3.4, 4.5, 4.6). -/
def readSlice (s : State) (idx sub : Nat) : Nat :=
  let g := idx % 4
  let k := sliceAt s g sub
  let ch := chanAt s (32 * (idx % 16) + sub)
  if idx < 0x3024 then sliceRoleWord k
  else if idx < 0x3028 then w32 k.trimA
  else if idx < 0x302C then w32 k.trimB
  else if idx < 0x3030 then w32 k.oX
  else if idx < 0x3034 then w32 (chanAt s (32 * g + sub)).oBase
  else if idx < 0x3100 then (chanAt s (32 * g + sub)).lastVisit.toNat
  else if idx < 0x3200 then w32 (ch.pairs.getD (idx / 16 % 16) (0, 0)).1
  else if idx < 0x3300 then w32 (ch.pairs.getD (idx / 16 % 16) (0, 0)).2
  else (sliceAt s ((idx - 0x3300) / 0x20) sub).weights.getD (idx % 0x20) 0

/-- MAP_RESIDUAL_RMS: 2^−48 edge is 1953125 / (8 · 2^48) ps (R144). -/
def mapRms (s : State) : Nat :=
  if s.map.resid.isEmpty then nan32
  else encF32 (sqrtRat ((((s.map.resid.map fun r => r.natAbs * r.natAbs).sum * 1953125 ^ 2 : Nat) : Rat)
    / ((s.map.resid.length * 64 * 2 ^ 96 : Nat) : Rat)))

/-- MAP_RATE in ppm (R144). -/
def mapRate (s : State) : Nat :=
  if s.map.qNum = 0 then nan64
  else encF64 (((s.map.qDen * 2 ^ 48 : Nat) / (s.map.qNum * 62500 : Int) - 1 : Rat) * 1000000)

/-- Table 18.7. -/
def read3 (s : State) (idx sub : Nat) : Nat :=
  match idx with
  | 0x3403 => (groupAt s sub).active
  | 0x3404 => bankState s (sub / 2) (sub % 2)
  | 0x3408 => fadeState s sub
  | 0x3409 => (groupAt s sub).fadeLast.toNat
  | 0x340A => chainDelay s.conf.cfg sub
  | 0x340B => (s.time.pt - s.modPhase) / modPeriod
  | 0x340C => ((groupAt s (sub / 2)).bank (sub % 2)).crc
  | 0x3603 => streamDelay s.conf.cfg (sub / 4) (sub % 4)
  | 0x3604 => rsLoad s.conf.cfg
  | 0x3606 => if sub = 0 then mapRms s else mapRate s
  | 0x3607 => (streamAt s sub).gridIndex
  | _ => w32 (((groupAt s ((idx - 0x3500) / 0x10)).bank (idx % 0x10)).coefs.getD sub 0)

/-- Table 18.8. -/
def read4 (s : State) (idx sub : Nat) : Nat :=
  let x := s.aux
  match idx with
  | 0x3804 => if sub = 0 then seqState s else if sub = 1 then x.missed else x.lastLaunch.toNat
  | 0x3805 => tSeq s.conf.cfg
  | 0x380C => (x.wins.getD sub ⟨0, 0, true⟩).last.toNat
  | 0x380D => (x.wins.getD sub ⟨0, 0, true⟩).count
  | 0x3811 => x.queue.length
  | 0x3818 => if sub = 1 then x.calState else x.calLast.toNat
  | 0x3819 => w32 (if sub = 0 then x.calOffset else x.calGain)
  | 0x3820 => if sub = 0 then ringNext auxRingSize x.ring else if sub = 1 then x.ring.read
    else if sub = 2 then x.ring.recs.length else x.ring.lost
  | 0x3830 => wireInt 16 (x.codes.getD sub 0)
  | 0x3831 => x.values.getD sub nan32
  | _ => (x.times.getD sub 0).toNat

/-- Table 18.9. -/
def read5 (s : State) (idx sub : Nat) : Nat :=
  let x := unitAt s sub
  match idx with
  | 0x3C40 => unitState s sub
  | 0x3C41 => x.count
  | 0x3C42 => (match x.lastTw with | some p => p.1.toNat | none => 0)
  | 0x3C43 => boolNat (unitStreaming s.conf.cfg sub)
  | 0x3C44 => storeFree s sub
  | 0x3C45 => x.truncated
  | 0x3C48 => x.missTotal
  | 0x3C49 => (unitAt s (sub / 8)).missBy.getD (sub % 8) 0
  | 0x3C50 => capRegion s.conf.cfg
  | _ => (s.outs.getD sub ⟨false, [], 0, 0⟩).late

/-- TIME_ERROR_BOUND: E_k in ns, or plus infinity (R225). -/
def boundF32 (s : State) : Nat := match s.ptp.bound with | some q => encF32 q | none => 0x7F800000

/-- PTP_PORT_STATE (R220): INITIALIZING (1) from BOOT to the first frame tick (R433, notes/assumptions/38.md), DISABLED (3) while no port has a ring role, and FAULTY (2) while a local fault has left no ring
port active; that these are the conditions of the standard's states here is PRESUMED (notes/assumptions/62.md). -/
def portState (s : State) : Nat :=
  let ring := s.link.ports.filter fun q => decide (q.role = 1) || decide (q.role = 2)
  if s.ptp.state = 1 then 1
  else if ring.isEmpty then 3
  else if ring.all (fun q => !q.status) && ring.any (fun q => decide (q.faults ≠ 0)) then 2
  else s.ptp.state

/-- Table 18.10. -/
def read6 (s : State) (idx sub : Nat) : Nat :=
  let p := ptpAt s sub
  match idx with
  | 0x4000 => (match sub with
    | 1 => s.time.cycTw.toNat
    | 2 => frameNumber (tf s) s.time.frameTw
    | 3 => s.time.epoch.toNat
    | 4 => s.time.era
    | 5 => s.time.quality
    | 6 => s.time.lastStepTick.toNat
    | _ => s.time.lastStepDelta.toNat)
  | 0x4003 => s.conf.margin
  | 0x4010 => (match sub with
    | 0 => s.ptp.cause
    | 1 => boundF32 s
    | 2 => boolNat s.ptp.suspect
    | 3 => w64 (roundRat (thetaBar s))
    | 4 => encF64 (s.ptp.y * 1000000000)
    | 5 => s.ptp.holdStart.toNat
    | 6 => s.ptp.suspectSince.toNat
    | _ => if s.ptp.cause.testBit 4 then w64 s.ptp.pending else 0)
  | 0x4011 => (match sub with
    | 0 => portState s
    | 1 => s.ptp.timingPort.getD 0xFF
    | 2 => (match s.ptp.best with | some b => b.parent.toNat | none => 0)
    | _ => (match s.ptp.best with | some b => b.gm.toNat | none => 0))
  | 0x4015 => if sub = 2 then s.ptp.reroute else w64 (ptpAt s (sub - 3)).step
  | 0x4016 => s.ptp.discards
  | 0x4100 => w64 (fixedIn sub)
  | 0x4101 => w64 (fixedOut sub)
  | 0x4105 => w64 (linkDelay s sub)
  | _ => p.faults

/-- Streams and ports of Table 18.11. -/
def read7a (s : State) (idx sub : Nat) : Nat :=
  let t := streamAt s sub
  let p := portAt s sub
  match idx with
  | 0x4812 => streamState s sub
  | 0x4813 => streamBound s.conf.cfg sub
  | 0x4814 => t.blocks
  | 0x4815 => t.late
  | 0x4816 => t.excOver
  | 0x4817 => t.startTw.toNat
  | 0x4904 => boolNat p.status
  | 0x4905 => if s.link.rolesRead then p.role else 0
  | 0x4906 => p.faults
  | 0x4907 => p.retx
  | _ => rtoUs s.conf.cfg sub * usec

/-- Link layer and buffers of Table 18.11. -/
def read7b (s : State) (idx sub : Nat) : Nat :=
  let l := s.link
  let b := s.buf
  match idx with
  | 0x4A01 => (match sub with
    | 0 => segInFlight s
    | 1 => l.creditUsed.toNat
    | 2 => l.creditLimit.toNat
    | 3 => l.ackNext.toNat
    | 4 => l.ssnNext.toNat
    | 5 => s.conf.creditNeed
    | _ => l.discards)
  | 0x4A10 => (match sub with
    | 0 => s.conf.admitCode
    | 1 => s.conf.admitPort
    | 2 => s.conf.admitNeed
    | _ => s.conf.admitHave)
  | 0x4B00 => (match sub with
    | 0 => b.depth
    | 1 => b.mark
    | 2 => sbufSend s
    | 3 => b.write
    | 4 => (match b.retx with | some r => lineOf s r | none => 0xFFFF)
    | 5 => boolNat (decide (b.depth = sbufLines))
    | _ => b.peak)
  | 0x4B01 => if sub = 0 then boolNat b.overrun else b.overrunCycles
  | 0x4B02 => if sub = 0 then b.parityErrors else if sub = 1 then b.poisoned else if sub = 2 then b.shadowReads
    else b.unrecovered
  | 0x4B03 => queueOctets s sub
  | 0x4B04 => assemblyFill s
  | 0x4B05 => if sub = 1 then reserveFill s else if sub = 2 then b.reservePeak else b.reserveStops
  | _ => (backlogOldest s).toNat

/-- Table 18.12. -/
def read8a (s : State) (idx sub : Nat) : Nat :=
  let e := s.ev
  let x := e.inputs.getD sub .init
  match idx with
  | 0x5002 => s.act.sched.countP fun e => e.slot.isSome
  | 0x5004 => s.act.refusedLate
  | 0x5011 => s.act.logCount
  | 0x5201 => x.count
  | 0x5202 => x.last.toNat
  | 0x5203 => boolNat x.level
  | 0x5204 => x.glitches
  | 0x5210 => if sub = 0 then ringNext evRingSize e.ring else if sub = 1 then e.ring.read
    else if sub = 2 then e.ring.recs.length else e.ring.lost
  | 0x5282 => e.accepted
  | _ => e.discards.getD (sub - 1) 0

/-- Tick of the pending hoist (R341). -/
def hoistTick (s : State) : Nat :=
  match s.act.sched.find? fun e => decide (e.op = .hoist) with
  | some e => e.fire.toNat
  | none => 0

/-- Table 18.13. -/
def read8b (s : State) (idx sub : Nat) : Nat :=
  match idx with
  | 0x5400 => if sub = 0 then s.conf.generation.toNat else s.conf.digest.toNat
  | 0x5403 => ((bankSeq s sub).getD 0).toNat
  | 0x5404 => bankStateCode s sub
  | 0x5405 => s.store.bootBank
  | 0x5406 => if sub = 0 then s.store.slotState
    else if sub = 1 then s.store.slotBurgee.1 * 2 ^ 32 + s.store.slotBurgee.2 else s.store.slotGen.toNat
  | 0x5407 => if sub = 0 then s.store.mirrorState else s.store.mirrorLast.toNat
  | 0x5409 => s.conf.checkRefusals
  | 0x5412 => s.conf.shadow.length
  | 0x5413 => if sub = 0 then hoistTick s else (hoistContent s).length
  | 0x5414 => if sub = 0 then s.conf.hoistLastTick.toNat else s.conf.hoistLastResult
  | _ => (digestOf (cfgApply s.conf.cfg s.conf.shadow)).toNat

/-- The source with a number of Table 15.9. -/
def srcNumbered (n : Nat) : Source :=
  match n with
  | 1 => .ocxo
  | 2 => .refclk10
  | 3 => .recovered 0
  | 4 => .recovered 1
  | 5 => .recovered 2
  | _ => .recovered 3

/-- Table 18.14. -/
def read9a (s : State) (idx sub : Nat) : Nat :=
  let c := s.clocks
  match idx with
  | 0x5800 => if sub = 1 then refSourceCode c.inUse else (match c.inUse with | .recovered p => p.val | _ => 0xFF)
  | 0x5801 => srcStateCode (srcAt s (srcNumbered sub))
  | 0x5803 => if sub = 0 then c.switches else if sub = 1 then c.stops else c.lastSwitch.toNat
  | 0x5804 => if sub = 1 then c.perfNow else (match c.perfLast with | some n => encF32 ((n : Rat) / 1000) | none => nan32)
  | 0x5805 => boolNat c.tuneHeld
  | 0x5806 => (match c.refOffset with | some n => encF64 ((n : Rat) / 1000) | none => nan64)
  | 0x5808 => c.gateState.getD sub 0
  | 0x5809 => c.gateFails.getD sub 0
  | 0x5811 => s.power.bootCause
  | _ => if sub = 0 then warmElapsed s else if s.power.mode = .warm then warmOpen s else s.power.warmWait

/-- Table 18.15. -/
def read9b (s : State) (idx sub : Nat) : Nat :=
  let h := s.health
  let p := h.pennants.getD sub Pennant.init
  let t := if idx = 0x5C40 then h.dram else h.sram
  match idx with
  | 0x5C00 => bunting s
  | 0x5C01 => boolNat p.raised + 2 * boolNat p.level
  | 0x5C02 => p.count
  | 0x5C03 => p.first.toNat
  | 0x5C04 => p.last.toNat
  | 0x5C05 => levelsWord s
  | 0x5C06 => ensign s
  | 0x5C20 => if sub = 0 then boolNat h.halfMast else if sub = 1 then halfMastCause s else h.spare.sinceTw.toNat
  | 0x5C30 => spareCount s sub
  | 0x5C31 => retiredCount s sub
  | 0x5C40 | 0x5C41 => if sub = 0 then t.passLast.toNat else if sub = 1 then t.corrected else t.uncorrected
  | _ => h.bgSkipped

/-- Table 18.17: factory data. COMPAT_SUPPORTED is level 1 alone (R361). -/
def readFactory (r : Row) (idx sub : Nat) : Nat :=
  if idx = 0x7000 ∧ sub = 2 then 2
  else if idx / 0x100 = 0x74 then w32 ((factoryFir (3 + idx / 0x10 % 0x10) (decide (idx % 0x10 = 1))).getD sub 0)
  else factoryNat idx sub r.ty.size

/-- RW entries that the configuration store holds. -/
def storedRw (idx : Nat) : Bool := decide (idx = 0x1202) || decide (idx = 0x1210) || decide (idx = 0x4107)

/-- The value of an entry of fixed length that has a row, as a number. -/
def readNat (s : State) (r : Row) (idx sub : Nat) : Nat :=
  if r.acc = .rws ∨ storedRw idx then cfgAt s idx sub
  else if idx < 0x2000 then read1 s idx sub
  else if idx < 0x2F00 then readChan s (idx / 0x100 % 0x10) (32 * (idx / 0x10 % 0x10) + sub)
  else if idx < 0x3020 then read2 s idx sub
  else if idx < 0x3400 then readSlice s idx sub
  else if idx < 0x3800 then read3 s idx sub
  else if idx < 0x3C00 then read4 s idx sub
  else if idx < 0x4000 then read5 s idx sub
  else if idx < 0x4800 then read6 s idx sub
  else if idx < 0x4A00 then read7a s idx sub
  else if idx < 0x5000 then read7b s idx sub
  else if idx < 0x5400 then read8a s idx sub
  else if idx < 0x5800 then read8b s idx sub
  else if idx < 0x5C00 then read9a s idx sub
  else if idx < 0x6000 then read9b s idx sub
  else readFactory r idx sub

/-- The octets that a read of a named entry returns (R321). -/
def readEntry (s : State) (r : Row) (idx sub : Nat) : List Nat :=
  if idx = 0x3821 then ringData s.aux.ring
  else if idx = 0x5211 then ringData s.ev.ring
  else if idx = 0x3C4A then (unitAt s sub).log.flatMap missOctets
  else if idx = 0x5010 then s.act.log.flatMap completionOctets
  else if idx = 0x5003 then actionSlot s sub
  else if 0x7100 ≤ idx ∧ idx < 0x7200 then factoryPage (idx - 0x7100)
  else octetsOf r.ty.size (readNat s r idx sub)

end Sys2Proof.Machine
end

