-- ==== Sys2Proof/Machine/Entries.lean ====
section
/-! DEFINITION. Writes of entries (R319 to R325, R339, R345, R360, R406): the tests that come before an entry's own
rule, and the rule of every entry of the map that takes a write. -/

namespace Sys2Proof.Machine

/-- Code for a pair that names nothing (R430). -/
def noEntry (k : Nat) : Nat := if indexNamed (keyIdx k) then 0x0102 else 0x0101

/-- The value tests of a write by type and single-entry range (R319, R339); those of a command entry are its own. A
key of 32 zero octets is out of range (R324), and TRG_TIME_FIRST names an instant (R188). -/
def valueTest (row : Row) (k v : Nat) (s : State) : Nat :=
  if row.acc = .cmd then 0
  else if !typeOk row.ty v || !inRange k v then 0x0201
  else if keyIdx k = 0x1200 ∧ v = 0 then 0x0201
  else if keyIdx k = 0x3C09 ∧ !TW.inWindow s.time.tw (BitVec.ofNat 64 v) then 0x0503
  else 0

/-- The tests of a write of `len` octets before the entry's own rule: 0 or the refusal code. -/
def writeTest (r : Role) (k len v : Nat) (s : State) : Nat :=
  match lookup (keyIdx k) (keySub k) with
  | none => noEntry k
  | some row =>
    if row.acc = .ro then 0x0103
    else if !roleOk r row.role then 0x0105
    else if len ≠ row.ty.size then 0x0202
    else valueTest row k v s

/-- Key of a role (R324). -/
def keyOf (s : State) (r : Role) : KeyState :=
  match r with
  | .observer => ⟨none, 0, none, 0⟩
  | .operator => s.dict.keyOp
  | .custodian => s.dict.keyCu

/-- Puts the key of a role. -/
def putKey (r : Role) (x : KeyState) (s : State) : State :=
  match r with
  | .observer => s
  | .operator => { s with dict.keyOp := x }
  | .custodian => { s with dict.keyCu := x }

/-- An accepted key takes effect (R325): the generation rises, the old key stays for its grace, and the key is kept
outside both banks. -/
def changeKey (r : Role) (key : BitVec 256) (s : State) : State :=
  let x := keyOf s r
  keepSave (putKey r ⟨some key, x.gen + 1, x.key, s.time.pt + cfgAt s 0x1202 0 * 256000000000⟩ s)

/-- Role of a key entry's subindex. -/
def keyRole (sub : Nat) : Role := if sub = 1 then .operator else .custodian

/-- Write of an RW entry (R320): its own rule, the configuration store, or a counter that takes 0 (R322). -/
def rwWrite (r : Role) (k v : Nat) (s : State) : Ans :=
  let idx := keyIdx k
  let sub := keySub k
  if storedRw idx then accept (imageSave (cfgPut idx sub v s))
  else if idx / 0x100 = 0x24 then accept (onChan (32 * (idx / 0x10 % 0x10) + sub) (fun ch => { ch with ovrCount := v }) s)
  else if idx / 0x100 = 0x35 then firCoefWrite r ((idx - 0x3500) / 0x10) (idx % 0x10) sub (BitVec.ofNat 32 v) s
  else match idx, sub with
    | 0x1220, 0 => accept { s with dict.authFails := v }
    | 0x1220, _ => accept { s with dict.duplicates := v }
    | 0x3000, _ => refbufWrite r sub v s
    | 0x3804, _ => accept { s with aux.missed := v }
    | 0x3820, 1 => auxRingReadWrite r (BitVec.ofNat 16 v) s
    | 0x3820, _ => accept { s with aux.ring.lost := v }
    | 0x3C48, _ => missWrite r sub v s
    | 0x4000, _ => epochWrite r (BitVec.ofNat 16 v) s
    | 0x4B00, _ => accept { s with buf.peak := max v s.buf.depth }
    | 0x4B01, 0 => accept { s with buf.overrun := decide (v ≠ 0) }
    | 0x4B01, _ => accept { s with buf.overrunCycles := v }
    | 0x4B05, _ => accept { s with buf.reservePeak := max v (reserveFill s) }
    | 0x5210, 1 => evRingReadWrite r v s
    | _, _ => accept { s with ev.ring.lost := v }

/-- Write of PENNANT_DIP (R406). -/
def dipWrite (r : Role) (v : BitVec 8) (s : State) : Ans :=
  gate r .operator (decide (v.toNat ≤ 63)) servedModes s fun s =>
    let nn := v.toNat
    let p := s.health.pennants.getD nn Pennant.init
    if pnLevel s nn || decide (p.cycle = some s.time.cyc) then refuse 0x0301 s
    else accept { s with health.pennants := updAt (fun p => { p with raised := false, count := 0 }) nn s.health.pennants }

/-- Write of a command entry (Table 13.7). -/
def cmdWrite (r : Role) (k v : Nat) (s : State) : Ans :=
  match keyIdx k with
  | 0x1010 => moduleResetWrite r (BitVec.ofNat 8 v) s
  | 0x2F40 => owcStartWrite r (BitVec.ofNat 32 v) s
  | 0x3003 => calStartWrite r (BitVec.ofNat 8 v) s
  | 0x3405 => firSealWrite r (BitVec.ofNat 16 v) s
  | 0x3406 => firLoadWrite r (BitVec.ofNat 16 v) s
  | 0x3407 => fadeWrite r (BitVec.ofNat 32 v) s
  | 0x3803 => auxLaunchWrite r (BitVec.ofNat 8 v) s
  | 0x3810 => auxInjectWrite r (BitVec.ofNat 32 v) s
  | 0x3818 => auxCalStartWrite r (BitVec.ofNat 8 v) s
  | 0x3C30 => trgArmWrite r (BitVec.ofNat 16 v) s
  | 0x4002 => if keySub k = 0 then stepWrite r (BitVec.ofNat 64 v) s else setWrite r (BitVec.ofNat 64 v) s
  | 0x4015 => rerouteWrite r v s
  | 0x4810 => streamStartWrite r (BitVec.ofNat 16 v) s
  | 0x4811 => streamStopWrite r (BitVec.ofNat 16 v) s
  | 0x5000 => taSubmit r (BitVec.ofNat 256 v) s
  | 0x5001 => taCancel r (BitVec.ofNat 16 v) s
  | 0x5410 => hoistWrite r (BitVec.ofNat 128 v) s
  | 0x5411 => discardWrite r (BitVec.ofNat 32 v) s
  | 0x5810 => hibernateWrite r (BitVec.ofNat 8 v) s
  | _ => dipWrite r (BitVec.ofNat 8 v) s

/-- Places a value in the shadow (R339). -/
def stage (row : Row) (k v : Nat) (s : State) : Ans :=
  accept { s with conf.shadow := kvSet s.conf.shadow k (normalForm row.ty v) }

/-- A write to an entry after its tests, but for a key. -/
def entryWrite (r : Role) (row : Row) (k v : Nat) (s : State) : Ans :=
  match row.acc with
  | .ro => refuse 0x0103 s
  | .rw => rwWrite r k v s
  | .rws => stage row k v s
  | .wo => if v = moduleSerial.toNat then accept s else refuse 0x0201 s
  | .cmd => cmdWrite r k v s

/-- A write of `len` octets by a role. A key takes effect at once when the write is no part of a request. -/
def hostWrite (r : Role) (k len v : Nat) (s : State) : Ans :=
  if writeTest r k len v s ≠ 0 then refuse (writeTest r k len v s) s
  else match lookup (keyIdx k) (keySub k) with
    | none => refuse (noEntry k) s
    | some row =>
      if keyIdx k = 0x1200 then accept (changeKey (keyRole (keySub k)) (BitVec.ofNat 256 v) s)
      else entryWrite r row k v s

/-- Octets of a value written to an entry: its size, or one more for a value that the size cannot hold. -/
def hostLen (k v : Nat) : Nat :=
  match lookup (keyIdx k) (keySub k) with
  | some row => if v < 2 ^ (8 * row.ty.size) then row.ty.size else row.ty.size + 1
  | none => 0

/-- REGISTER_WRITE (R322). -/
def execRegisterWrite (r : Role) (k value : Nat) (s : State) : Result :=
  served s (hostWrite r k (hostLen k value) value)

/-- STAGED_WRITE (R339). -/
def execStagedWrite (r : Role) (k value : Nat) (s : State) : Result :=
  served s (hostWrite r k (hostLen k value) value)

/-- KEY_WRITE (R324, R325): of the Operator's key at subindex 1, of the Custodian's at subindex 2. -/
def execKeyWrite (r : Role) (which : Role) (k : BitVec 256) (s : State) : Result :=
  served s (hostWrite r (key 0x1200 (Role.rank which)) 32 k.toNat)

/-- IDENTITY_SERIAL_MATCH (R360): a guard without an effect. -/
def execIdentitySerialMatch (r : Role) (v : BitVec 32) (s : State) : Result :=
  served s (hostWrite r (key 0x1001 1) 4 v.toNat)

/-- PENNANT_DIP (R406). -/
def execPennantDip (r : Role) (v : BitVec 8) (s : State) : Result := served s (dipWrite r v)

end Sys2Proof.Machine
end

