-- ==== Sys2Proof/Machine/Dictionary.lean ====
section
/-! DEFINITION. Dictionary requests (R326 to R338, R454): their form, the tests at receipt, execution in record order,
atomic requests, and answers. -/

namespace Sys2Proof.Machine

/-- One operation record (Table 13.4). -/
structure DictOp where
  kind  : Nat
  idx   : Nat
  sub   : Nat
  count : Nat
  val   : List Nat
deriving DecidableEq, Repr

/-- A length padded to a multiple of 8 (R330). -/
def pad8 (n : Nat) : Nat := ceilDiv n 8 * 8

/-- The operation record at the front of some octets; none when it breaks the form. -/
def parseOp (l : List Nat) : Option (DictOp × List Nat) :=
  let h := natOf (l.take 8)
  let kind := bits h 63 60
  let len := bits h 15 0
  let count := bits h 31 24
  let rest := l.drop 8
  if l.length < 8 ∨ bits h 59 56 ≠ 0 ∨ bits h 23 16 ≠ 0 ∨ kind = 0 ∨ 3 < kind ∨ rest.length < pad8 len then none
  else if kind = 3 ∧ count ≠ 1 ∨ kind ≠ 3 ∧ (count = 0 ∨ 64 < count ∨ len ≠ 0) then none
  else some (⟨kind, bits h 55 40, bits h 39 32, count, rest.take len⟩, rest.drop (pad8 len))

/-- Operation records that fill the octets exactly. -/
def parseOps : Nat → List Nat → Option (List DictOp)
  | 0, l => if l.isEmpty then some [] else none
  | n + 1, l => match parseOp l with
    | some (o, rest) => (parseOps n rest).map (o :: ·)
    | none => none

/-- Octets of the tag of a request of a role: none for the Observer (R329). -/
def tagLen (role : Nat) : Nat := if role = 0 then 0 else 32

/-- The operations of a well-formed request payload (R334). -/
def parseRequest (l : List Nat) : Option (List DictOp) :=
  let role := octetAt l 0
  let n := octetAt l 4
  if l.length < 16 + tagLen role ∨ 2 < role ∨ 8 ≤ octetAt l 1 ∨ n = 0 ∨ 32 < n
      ∨ octetAt l 5 ≠ 0 ∨ octetAt l 6 ≠ 0 ∨ octetAt l 7 ≠ 0 then none
  else match parseOps n ((l.take (l.length - tagLen role)).drop 16) with
    | some ops => if (ops.map (·.count)).sum ≤ 64 then some ops else none
    | none => none

/-- The role with a number of Table 13.3. -/
def roleNumbered (n : Nat) : Role := if n = 0 then .observer else if n = 1 then .operator else .custodian

/-- The common header of a received frame with HOPS 0 (R326). -/
def hopless (l : List Nat) : List Nat := (l.take 24).set 7 0

/-- Payload of a received frame: LENGTH octets after the common header. -/
def payloadOf (l : List Nat) : List Nat := (l.drop 24).take (hdrLength l)

/-- The key under which a request verifies (R326). -/
def verifyKey (s : State) (header payload : List Nat) : Option (BitVec 256) :=
  let n := payload.length - 32
  if octetAt payload 0 = 0 ∨ 2 < octetAt payload 0 then none
  else ((keyOf s (roleNumbered (octetAt payload 0))).accepted s.time.pt).find? fun k =>
    decide (hmac k (header ++ payload.take n) = payload.drop n)

/-- The answer of a request refused whole (Table 13.5). -/
def wholeBody (payload : List Nat) (code : Nat) : List Nat :=
  [octetAt payload 0, octetAt payload 1, octetAt payload 2, octetAt payload 3, 0, 0] ++ octetsOf 2 code
    ++ List.replicate 8 0

/-- An answer joins those that wait for the up port. -/
def queueAnswer (a : Answer) (s : State) : State := { s with link.own := s.link.own ++ [a] }

/-- A new answer is one of the 256 most recent, which the module keeps (R328). -/
def newAnswer (a : Answer) (s : State) : State := queueAnswer a { s with dict.answers := (a :: s.dict.answers).take 256 }

/-- Refuses a request whole (R332): without a tag for 0x0106 and 0x0107, else under the key that verifies it. A refusal
for want of room is not in flight (R337). -/
def refuseWhole (header payload : List Nat) (code : Nat) (s : State) : State :=
  let key := if code = 0x0106 ∨ code = 0x0107 then none else verifyKey s header payload
  newAnswer ⟨none, wholeBody payload code, key, none, decide (code ≠ 0x0303)⟩ s

/-- 1 ms in units. -/
def msec : Nat := 256000000

/-- ISSUED lies in the authentication window of now (R327). -/
def issuedOk (s : State) (t : TW) : Bool := decide ((TW.diff s.time.tw t).natAbs ≤ cfgAt s 0x1210 0 * msec)

/-- The replay store without the entries whose ISSUED has left the window (R327). -/
def replayNow (s : State) : List Replay := s.dict.replay.filter fun e => issuedOk s e.issued

/-- Entries of the replay store (R327). -/
def replaySize : Nat := 8192

/-- The tests of an authenticated request after its format (R336), up to the window: 0 or the code. -/
def authTest (s : State) (header payload : List Nat) : Nat :=
  if (keyOf s (roleNumbered (octetAt payload 0))).key.isNone then 0x0107
  else if (verifyKey s header payload).isNone then 0x0106
  else if !issuedOk s (BitVec.ofNat 64 (natOf ((payload.drop 8).take 8))) then 0x0108
  else 0

/-- REQUIRE_DIGEST is set and the frame's DIGEST is not the committed digest (R329). -/
def digestBad (s : State) (header payload : List Nat) : Bool :=
  (octetAt payload 1).testBit 2 && decide (natOf (header.drop 16) ≠ s.conf.digest.toNat)

/-- First 16 octets of the tag. -/
def tagHead (payload : List Nat) : BitVec 128 := BitVec.ofNat 128 (natOf ((payload.drop (payload.length - 32)).take 16))

/-- A duplicate (R328): a broadcast one is discarded, another gets the kept answer again or STATUS 0x0109. -/
def duplicate (header payload : List Nat) (broadcast_ : Bool) (s : State) : State :=
  let s := { s with dict.duplicates := satInc s.dict.duplicates }
  if broadcast_ then s
  else match s.dict.answers.find? fun a => decide (a.tag16 = some (tagHead payload)) with
    | some a => queueAnswer { a with counted := true } s
    | none => refuseWhole header payload 0x0109 s

/-- A request joins the queue (R336). -/
def enqueue (p : Nat) (header payload : List Nat) (s : State) : State :=
  let role := roleNumbered (octetAt payload 0)
  let r : DictReq := ⟨p, role, header, payload, verifyKey s header payload, tagHead payload⟩
  { s with dict.queue := s.dict.queue ++ [r] }

/-- A request that is authentic: the tests from the duplicate on (R336). -/
def receiveAuthentic (p : Nat) (header payload : List Nat) (broadcast_ : Bool) (s : State) : State :=
  let role := roleNumbered (octetAt payload 0)
  let s := { s with dict.replay := replayNow s }
  if s.dict.replay.any fun e => decide (e.tag16 = tagHead payload) && decide (e.role = role) then
    duplicate header payload broadcast_ s
  else if replaySize ≤ s.dict.replay.length then refuseWhole header payload 0x010A s
  else if digestBad s header payload then refuseWhole header payload 0x0602 s
  else
    let e : Replay := ⟨tagHead payload, role, BitVec.ofNat 64 (natOf ((payload.drop 8).take 8))⟩
    enqueue p header payload { s with dict.replay := s.dict.replay ++ [e] }

/-- The tests at receipt, in the order of R336. -/
def receiveRequest (p : Nat) (header payload : List Nat) (broadcast_ : Bool) (s : State) : State :=
  let s := { s with dict.requests := wrapInc s.dict.requests }
  if 64 ≤ inFlight s then refuseWhole header payload 0x0303 s
  else match parseRequest payload with
    | none => refuseWhole header payload 0x0203 s
    | some _ =>
      if octetAt payload 0 = 0 then
        if digestBad s header payload then refuseWhole header payload 0x0602 s else enqueue p header payload s
      else match authTest s header payload with
        | 0 => receiveAuthentic p header payload broadcast_ s
        | 0x0106 =>
          refuseWhole header payload 0x0106 (raisePn 11 { s with dict.authFails := satInc s.dict.authFails })
        | code => refuseWhole header payload code s

/-- The first operation record writes IDENTITY_SERIAL_MATCH with a value that is not MODULE_SERIAL (R454). -/
def otherSerial (payload : List Nat) : Bool :=
  let h := natOf ((payload.drop 16).take 8)
  decide (octetAt payload 4 ≠ 0) && decide (bits h 63 60 = 3) && decide (bits h 55 32 = key 0x1001 1)
    && decide ((payload.drop 24).take (bits h 15 0) ≠ octetsOf 4 moduleSerial.toNat)

/-- A timed-action frame holds one write to TA_SUBMIT and nothing else (R329). -/
def actionFrameOk (payload : List Nat) : Bool :=
  match parseRequest payload with
  | some [o] => decide (o.kind = 3) && decide (key o.idx o.sub = key 0x5000 0)
  | _ => false

/-- DICT_REQUEST_RECEIVE (R329, R336, R454) of a taken frame: 0x10 or 0x12, addressed to the module or to all. -/
def dictReceive (p : Nat) (l : List Nat) (s : State) : State :=
  let me := cfgAt s 0x1001 0
  let all := decide (hdrDest l = 0xFFFFF)
  let payload := payloadOf l
  if !activePort s p ∨ l.length < 24 ∨ octetAt l 0 / 16 ≠ 1 ∨ (hdrType l ≠ 0x10 ∧ hdrType l ≠ 0x12)
      ∨ (!all ∧ (hdrDest l ≠ me ∨ me = 0)) then s
  else if hdrSource l ≠ 0 ∨ (hdrType l = 0x12 ∧ !actionFrameOk payload) then
    { s with link.discards := satInc s.link.discards }
  else if all && otherSerial payload then s
  else receiveRequest p (hopless l) payload all s

def execDictRequestReceive (p : Fin 4) (octets : List Nat) (s : State) : Result :=
  if live s then done (dictReceive p.val octets s) else .next s

/-- One answer record (Table 13.6). -/
structure RecOut where
  kind   : Nat
  staged : Bool
  idx    : Nat
  sub    : Nat
  code   : Nat
  val    : List Nat
deriving DecidableEq, Repr

/-- Octets of an answer record with its padded value. -/
def RecOut.octets (x : RecOut) : List Nat :=
  [x.kind * 16 + (if x.staged then 8 else 0)] ++ octetsOf 2 x.idx ++ [x.sub % 256] ++ octetsOf 2 x.code
    ++ octetsOf 2 x.val.length ++ x.val ++ List.replicate (pad8 x.val.length - x.val.length) 0

/-- A request in execution: the state, the records so far, newest first, the answer's payload octets, whether a record
has found no room (R334), and the keys that take effect at its end (R325). -/
structure Run where
  st   : State
  recs : List RecOut
  size : Nat
  full : Bool
  keys : List (Role × BitVec 256)
deriving DecidableEq, Repr

/-- Most payload octets of an answer (R334). -/
def answerMax : Nat := 8972

/-- The record would take the answer beyond its limit, or follows one that did. -/
def Run.overflows (a : Run) (x : RecOut) : Bool :=
  a.full || decide (answerMax < a.size + 8 + pad8 x.val.length)

/-- Adds a record: one that finds no room is refused with 0x0204 and without effect, and so is every one after it. -/
def Run.add (x : RecOut) (st : State) (keys : List (Role × BitVec 256)) (a : Run) : Run :=
  if a.overflows x then
    { a with recs := { x with staged := false, code := 0x0204, val := [] } :: a.recs, size := a.size + 8, full := true }
  else ⟨st, x :: a.recs, a.size + 8 + pad8 x.val.length, false, keys⟩

/-- One answer record of a read or a shadow read (R320, R331). -/
def readRecord (s : State) (kind idx sub : Nat) : RecOut :=
  match lookup idx sub with
  | none => ⟨kind, false, idx, sub, if indexNamed idx then 0x0102 else 0x0101, []⟩
  | some row =>
    if row.acc = .wo ∨ row.acc = .cmd ∨ (kind = 2 ∧ row.acc ≠ .rws) then ⟨kind, false, idx, sub, 0x0104, []⟩
    else match (if kind = 2 then kvGet s.conf.shadow (key idx sub) else none) with
      | some v => ⟨kind, true, idx, sub, 0, octetsOf row.ty.size v⟩
      | none => ⟨kind, false, idx, sub, 0, readEntry s row idx sub⟩

/-- A read of COUNT subindices, in rising order; one record for an index that names nothing (R331). -/
def runRead (o : DictOp) (a : Run) : Run :=
  let n := if indexNamed o.idx then o.count else 1
  (List.range n).foldl (fun a i => a.add (readRecord a.st o.kind o.idx (o.sub + i)) a.st a.keys) a

/-- The answer of a write in a request: a key waits for the request's end (R325, Table 13.9). -/
def requestWrite (r : Role) (k len v : Nat) (s : State) : Ans :=
  if keyIdx k = 0x1200 then (if writeTest r k len v s ≠ 0 then refuse (writeTest r k len v s) s else accept s)
  else hostWrite r k len v s

/-- The entry is staged. -/
def isStaged (k : Nat) : Bool := match lookup (keyIdx k) (keySub k) with | some row => decide (row.acc = .rws) | none => false

/-- A write operation (R335). -/
def runWrite (r : Role) (o : DictOp) (a : Run) : Run :=
  let k := key o.idx o.sub
  let x := requestWrite r k o.val.length (natOf o.val) a.st
  let ok := decide (x.code = 0)
  let keys := if ok ∧ o.idx = 0x1200 then a.keys ++ [(keyRole o.sub, BitVec.ofNat 256 (natOf o.val))] else a.keys
  a.add ⟨3, ok && isStaged k, o.idx, o.sub, x.code, x.val⟩ x.st keys

/-- One operation; after a record without room none is executed (R334). -/
def runOp (r : Role) (a : Run) (o : DictOp) : Run := if o.kind = 3 then runWrite r o a else runRead o a

/-- What a refused atomic request leaves behind (R346): the diagnostic counts of its refusals. -/
def keepTraces (after s : State) : State :=
  let c := after.conf
  let conf := { s.conf with admitCode := c.admitCode, admitPort := c.admitPort, admitNeed := c.admitNeed, admitHave := c.admitHave }
  let p := after.health.pennants.getD 10 Pennant.init
  { s with
    conf := { conf with checkRefusals := c.checkRefusals }
    act := { s.act with refusedLate := after.act.refusedLate }
    health := { s.health with pennants := s.health.pennants.set 10 p } }

/-- Some record is refused. -/
def Run.refused (a : Run) : Bool := a.recs.any fun x => decide (x.code ≠ 0)

/-- A refused atomic request takes no effect (R333). -/
def Run.undo (s : State) (a : Run) : Run :=
  { a with
    st := keepTraces a.st s, keys := []
    recs := a.recs.map fun x => if x.code = 0 then { x with staged := false, code := 0x0302, val := [] } else x }

/-- Runs the operations of a request in record order (R333). -/
def runRequest (q : DictReq) (s : State) : Run :=
  let start : Run := ⟨s, [], 16 + tagLen (octetAt q.payload 0), false, []⟩
  let a := ((parseRequest q.payload).getD []).foldl (runOp q.role) start
  if (octetAt q.payload 1).testBit 0 && a.refused then a.undo s else a

/-- Payload of the answer before its tag (R332). -/
def answerBody (q : DictReq) (a : Run) (served_ : TW) : List Nat :=
  [octetAt q.payload 0, octetAt q.payload 1, octetAt q.payload 2, octetAt q.payload 3, a.recs.length, 0, 0, 0]
    ++ octetsOf 8 served_.toNat ++ a.recs.reverse.flatMap RecOut.octets

/-- Core cost of a request (R338). -/
def requestCost (q : DictReq) (a : Run) (body : List Nat) : Nat :=
  min 3700 (300 + 35 * a.recs.length + (q.payload.length + body.length + tagLen (octetAt q.payload 0)) / 16)

/-- Ends an executed request: its keys take effect, it leaves the queue, and its answer waits for the up port (R325,
R328, R332, R337). -/
def finishRequest (q : DictReq) (a : Run) (body : List Nat) (cost : Nat) : State :=
  let s := forList a.keys (fun p => changeKey p.1 p.2) a.st
  let s := { s with dict.queue := s.dict.queue.drop 1, time.reserveLeft := s.time.reserveLeft - cost }
  if (octetAt q.payload 1).testBit 1 && !a.refused then s
  else
    let tag := if q.role = .observer then none else some q.tag16
    newAnswer ⟨tag, body, q.key, none, true⟩ s

/-- DICT_REQUEST_EXECUTE (R338): the oldest request runs when the reserve left in the frame covers its whole cost. -/
def dictExecute (s : State) : State :=
  match s.dict.queue with
  | [] => s
  | q :: _ =>
    let a := runRequest q s
    let body := answerBody q a s.time.cycTw
    let cost := requestCost q a body
    if cost ≤ s.time.reserveLeft then finishRequest q a body cost else s

def execDictRequestExecute (s : State) : Result := if live s then done (dictExecute s) else .next s

/-- REPLAY_ENTRY_EXPIRY (R327). -/
def execReplayEntryExpiry (s : State) : Result :=
  if live s then done { s with dict.replay := replayNow s } else .next s

/-- KEY_GRACE_EXPIRY (R325): the previous key is no longer accepted. -/
def execKeyGraceExpiry (r : Role) (s : State) : Result :=
  if live s then done (putKey r { keyOf s r with prev := none } s) else .next s

end Sys2Proof.Machine
end

