-- ==== Sys2Proof/Machine/Dispatch.lean ====
section
/-! DEFINITION. The one dispatch: each command's meaning, one arm per row of the table. -/

namespace Sys2Proof.Machine

def exec (i : Instr) (s : State) : Host.Outcome State Fault Refusal :=
  match i with
  | .vmainApplied => Sys2Proof.Machine.execVmainApplied s
  | .vmainLost => Sys2Proof.Machine.execVmainLost s
  | .wakeAsserted level => Sys2Proof.Machine.execWakeAsserted level s
  | .resetNAsserted => Sys2Proof.Machine.execResetNAsserted s
  | .resetNRelease => Sys2Proof.Machine.execResetNRelease s
  | .bootComplete selfTest slot => Sys2Proof.Machine.execBootComplete selfTest slot s
  | .warmEnd => Sys2Proof.Machine.execWarmEnd s
  | .warmOvertime => Sys2Proof.Machine.execWarmOvertime s
  | .frameTick obs => Sys2Proof.Machine.execFrameTick obs s
  | .portSelfTestEnd p errors => Sys2Proof.Machine.execPortSelfTestEnd p errors s
  | .portSelfTestRetry p => Sys2Proof.Machine.execPortSelfTestRetry p s
  | .refReadySet g => Sys2Proof.Machine.execRefReadySet g s
  | .calC0 => Sys2Proof.Machine.execCalC0 s
  | .calRestart => Sys2Proof.Machine.execCalRestart s
  | .calEnd c0 endTick => Sys2Proof.Machine.execCalEnd c0 endTick s
  | .calStart r mask => Sys2Proof.Machine.execCalStart r mask s
  | .overloadExcursion ch run => Sys2Proof.Machine.execOverloadExcursion ch run s
  | .overloadSpanClose ch => Sys2Proof.Machine.execOverloadSpanClose ch s
  | .rotForwardFit g fit => Sys2Proof.Machine.execRotForwardFit g fit s
  | .rotHandover g => Sys2Proof.Machine.execRotHandover g s
  | .rotLadderCalEnd g slice obs => Sys2Proof.Machine.execRotLadderCalEnd g slice obs s
  | .rotReconnect g => Sys2Proof.Machine.execRotReconnect g s
  | .rotReverseFit g fit => Sys2Proof.Machine.execRotReverseFit g fit s
  | .rotHandBack g => Sys2Proof.Machine.execRotHandBack g s
  | .rotPairUpdate g => Sys2Proof.Machine.execRotPairUpdate g s
  | .stuckOutput g slice => Sys2Proof.Machine.execStuckOutput g slice s
  | .arraySaturation g slice => Sys2Proof.Machine.execArraySaturation g slice s
  | .resampledOutputFormed st feed => Sys2Proof.Machine.execResampledOutputFormed st feed s
  | .interimClose st => Sys2Proof.Machine.execInterimClose st s
  | .trgTimeInstant u => Sys2Proof.Machine.execTrgTimeInstant u s
  | .trgHoldoffExpiry u => Sys2Proof.Machine.execTrgHoldoffExpiry u s
  | .captureStoreResume u => Sys2Proof.Machine.execCaptureStoreResume u s
  | .trgoutPulseStart o => Sys2Proof.Machine.execTrgoutPulseStart o s
  | .trgoutPulseEnd o => Sys2Proof.Machine.execTrgoutPulseEnd o s
  | .owcPhaseBoundary g => Sys2Proof.Machine.execOwcPhaseBoundary g s
  | .owcComplete g feed => Sys2Proof.Machine.execOwcComplete g feed s
  | .fadeFirstOutput g => Sys2Proof.Machine.execFadeFirstOutput g s
  | .fadeComplete g => Sys2Proof.Machine.execFadeComplete g s
  | .auxWindowEvent w => Sys2Proof.Machine.execAuxWindowEvent w s
  | .auxConversionDone code => Sys2Proof.Machine.execAuxConversionDone code s
  | .auxCalBegin => Sys2Proof.Machine.execAuxCalBegin s
  | .auxCalEnd offset gain => Sys2Proof.Machine.execAuxCalEnd offset gain s
  | .auxLaunch r v => Sys2Proof.Machine.execAuxLaunch r v s
  | .auxInject r v => Sys2Proof.Machine.execAuxInject r v s
  | .auxCalStart r v => Sys2Proof.Machine.execAuxCalStart r v s
  | .auxRingRead r v => Sys2Proof.Machine.execAuxRingRead r v s
  | .evEdge x bin rising => Sys2Proof.Machine.execEvEdge x bin rising s
  | .evRingRead r v => Sys2Proof.Machine.execEvRingRead r v s
  | .syncReceive p m => Sys2Proof.Machine.execSyncReceive p m s
  | .followUpReceive p m => Sys2Proof.Machine.execFollowUpReceive p m s
  | .followUpTimeout w => Sys2Proof.Machine.execFollowUpTimeout w s
  | .announceReceive p a => Sys2Proof.Machine.execAnnounceReceive p a s
  | .announceReceiptTimeout p => Sys2Proof.Machine.execAnnounceReceiptTimeout p s
  | .ptpMessageForward p m => Sys2Proof.Machine.execPtpMessageForward p m s
  | .pdelayReqSend p egress => Sys2Proof.Machine.execPdelayReqSend p egress s
  | .pdelayReqReceive p h ingress egress => Sys2Proof.Machine.execPdelayReqReceive p h ingress egress s
  | .pdelayRespReceive p m => Sys2Proof.Machine.execPdelayRespReceive p m s
  | .pdelayRespTimeout p => Sys2Proof.Machine.execPdelayRespTimeout p s
  | .noOffsetTimeout => Sys2Proof.Machine.execNoOffsetTimeout s
  | .sourceStop src => Sys2Proof.Machine.execSourceStop src s
  | .sourceRunning src => Sys2Proof.Machine.execSourceRunning src s
  | .refclk10Measure ppb => Sys2Proof.Machine.execRefclk10Measure ppb s
  | .sourceSwitchComplete => Sys2Proof.Machine.execSourceSwitchComplete s
  | .perfLevelChangeDone windowNs => Sys2Proof.Machine.execPerfLevelChangeDone windowNs s
  | .gateIdleSignal d => Sys2Proof.Machine.execGateIdleSignal d s
  | .gateTimeout d => Sys2Proof.Machine.execGateTimeout d s
  | .imageWriteDone readBackOk => Sys2Proof.Machine.execImageWriteDone readBackOk s
  | .slotMirrorDone readBackOk => Sys2Proof.Machine.execSlotMirrorDone readBackOk s
  | .axindFrameReceive p f => Sys2Proof.Machine.execAxindFrameReceive p f s
  | .creditAckReceive ackNext creditLimit nak => Sys2Proof.Machine.execCreditAckReceive ackNext creditLimit nak s
  | .breakNoticeReceive p detector clear seq => Sys2Proof.Machine.execBreakNoticeReceive p detector clear seq s
  | .portLocalFault p => Sys2Proof.Machine.execPortLocalFault p s
  | .portLinkReturn p => Sys2Proof.Machine.execPortLinkReturn p s
  | .portPromote p => Sys2Proof.Machine.execPortPromote p s
  | .portRevert => Sys2Proof.Machine.execPortRevert s
  | .retxTimeout => Sys2Proof.Machine.execRetxTimeout s
  | .sbufEnter obs => Sys2Proof.Machine.execSbufEnter obs s
  | .frameTransmit p obs => Sys2Proof.Machine.execFrameTransmit p obs s
  | .sbufLineRelease => Sys2Proof.Machine.execSbufLineRelease s
  | .reserveRefill obs => Sys2Proof.Machine.execReserveRefill obs s
  | .triggerMessageReceive m => Sys2Proof.Machine.execTriggerMessageReceive m s
  | .dictRequestReceive p octets => Sys2Proof.Machine.execDictRequestReceive p octets s
  | .dictRequestExecute => Sys2Proof.Machine.execDictRequestExecute s
  | .replayEntryExpiry => Sys2Proof.Machine.execReplayEntryExpiry s
  | .keyGraceExpiry r => Sys2Proof.Machine.execKeyGraceExpiry r s
  | .registerWrite r key value => Sys2Proof.Machine.execRegisterWrite r key value s
  | .stagedWrite r key value => Sys2Proof.Machine.execStagedWrite r key value s
  | .keyWrite r which key => Sys2Proof.Machine.execKeyWrite r which key s
  | .identitySerialMatch r v => Sys2Proof.Machine.execIdentitySerialMatch r v s
  | .timeEpochWrite r v => Sys2Proof.Machine.execTimeEpochWrite r v s
  | .refbufEnableWrite r g v => Sys2Proof.Machine.execRefbufEnableWrite r g v s
  | .firCoefWrite r g b n v => Sys2Proof.Machine.execFirCoefWrite r g b n v s
  | .trgMissClear r u v => Sys2Proof.Machine.execTrgMissClear r u v s
  | .firSeal r v => Sys2Proof.Machine.execFirSeal r v s
  | .firLoadFactory r v => Sys2Proof.Machine.execFirLoadFactory r v s
  | .firXfadeStart r v => Sys2Proof.Machine.execFirXfadeStart r v s
  | .owcStart r v => Sys2Proof.Machine.execOwcStart r v s
  | .streamStart r mask => Sys2Proof.Machine.execStreamStart r mask s
  | .streamStop r mask => Sys2Proof.Machine.execStreamStop r mask s
  | .trgArm r v => Sys2Proof.Machine.execTrgArm r v s
  | .trgDisarm r v => Sys2Proof.Machine.execTrgDisarm r v s
  | .timeStep r delta => Sys2Proof.Machine.execTimeStep r delta s
  | .timeSet r t => Sys2Proof.Machine.execTimeSet r t s
  | .rerouteConfirm r v => Sys2Proof.Machine.execRerouteConfirm r v s
  | .rerouteApplyAsym r v => Sys2Proof.Machine.execRerouteApplyAsym r v s
  | .hoist r check => Sys2Proof.Machine.execHoist r check s
  | .shadowDiscard r v => Sys2Proof.Machine.execShadowDiscard r v s
  | .moduleReset r v => Sys2Proof.Machine.execModuleReset r v s
  | .hibernate r v => Sys2Proof.Machine.execHibernate r v s
  | .pennantDip r v => Sys2Proof.Machine.execPennantDip r v s
  | .taSubmitStartStreams r desc => Sys2Proof.Machine.execTaSubmitStartStreams r desc s
  | .taSubmitStopStreams r desc => Sys2Proof.Machine.execTaSubmitStopStreams r desc s
  | .taSubmitTrgArm r desc => Sys2Proof.Machine.execTaSubmitTrgArm r desc s
  | .taSubmitHoist r desc => Sys2Proof.Machine.execTaSubmitHoist r desc s
  | .taSubmitOwc r desc => Sys2Proof.Machine.execTaSubmitOwc r desc s
  | .taSubmitStepTime r desc => Sys2Proof.Machine.execTaSubmitStepTime r desc s
  | .taSubmitXfade r desc => Sys2Proof.Machine.execTaSubmitXfade r desc s
  | .taCancel r handle => Sys2Proof.Machine.execTaCancel r handle s
  | .jtagInstructionUpdate j => Sys2Proof.Machine.execJtagInstructionUpdate j s
  | .auxHoldInstant => Sys2Proof.Machine.execAuxHoldInstant s
  | .auxWindowRearm w => Sys2Proof.Machine.execAuxWindowRearm w s
  | .delayReqReceive p => Sys2Proof.Machine.execDelayReqReceive p s
  | .pdelayRespFollowUpReceive p h origin correction => Sys2Proof.Machine.execPdelayRespFollowUpReceive p h origin correction s
  | .entryIntoHibernate => Sys2Proof.Machine.execEntryIntoHibernate s
  | .resetCommandBootEntry => Sys2Proof.Machine.execResetCommandBootEntry s
  | .wakeWindowExpiry => Sys2Proof.Machine.execWakeWindowExpiry s
  | .keepRegionWriteDone ok => Sys2Proof.Machine.execKeepRegionWriteDone ok s

end Sys2Proof.Machine
end

