-- ==== Sys2Proof/WellFormed.lean ====
section
/-! DEFINITION. Which commands are well formed: operands that lie outside what the world can hand the module, or that
belong to another row of the table, are not. The machine answers an ill-formed command too. -/

namespace Sys2Proof

open Machine

/-- Octet strings of an Ethernet payload (R262): at most 9,000 octets. -/
def octetsWf (l : List Nat) : Bool := decide (l.length ≤ 9000) && l.all fun b => decide (b < 256)

/-- Nineteen weights of 32 bits (R64). -/
def weightsWf (l : List Nat) : Bool := decide (l.length = 19) && l.all fun w => decide (w < 2 ^ 32)

/-- A timestamp of IEEE 1588: 48 bits of seconds and less than 10^9 ns (R14). -/
def ptpWf (m : PtpEvent) : Bool := decide (m.seconds < 2 ^ 48) && decide (m.nanos < 10 ^ 9)

/-- A DRAM error lies in the 256 MiB of pages (R397). -/
def dramWf (e : MemError) : Bool := decide (e.unit < 67584)

/-- An SRAM error lies in a row of the 2,096 (R399). -/
def sramWf (e : MemError) : Bool := decide (e.unit < 2096)

/-- The OP field of a descriptor (Table 10.2). -/
def opField (d : BitVec 256) : Nat := d.toNat / 2 ^ 248

/-- The key names an entry of this access kind. -/
def hasAccess (k : Nat) (a : Access) : Bool :=
  match lookup (keyIdx k) (keySub k) with
  | some r => decide (r.acc = a)
  | none => false

/-- A slot bank of 16 KiB (R357). -/
def slotBankWf (l : List Nat) : Bool := decide (l.length ≤ 16384) && l.all fun b => decide (b < 256)

/-- What BOOT may find in the slot memory. -/
def slotWf (r : BootRead) : Bool := slotBankWf r.slot0 && slotBankWf r.slot1

/-- The command is one that the world can give the module, under its own row of the table. -/
def Instr.wf : Instr → Bool
  | .bootComplete _ slot => slotWf slot
  | .frameTick o =>
    o.dramErrors.all dramWf && o.sramErrors.all (fun e => sramWf e.2) && o.calWeights.all fun m => weightsWf m.weights
  | .overloadExcursion _ r => decide (0 < r.samples)
  | .rotLadderCalEnd _ _ o => weightsWf o.weights
  | .syncReceive _ m => ptpWf m
  | .followUpReceive _ m => ptpWf m
  | .ptpMessageForward _ m => octetsWf m.octets
  | .perfLevelChangeDone n => decide (n ≤ 40000)
  | .axindFrameReceive _ f => octetsWf f.octets
  | .dictRequestReceive _ l => octetsWf l
  | .registerWrite _ k _ => hasAccess k .rw
  | .stagedWrite _ k _ => hasAccess k .rws
  | .keyWrite _ w _ => decide (w ≠ .observer)
  | .trgArm _ v => v.toNat.testBit 8
  | .trgDisarm _ v => !v.toNat.testBit 8
  | .rerouteConfirm _ v => !v.toNat.testBit 4
  | .rerouteApplyAsym _ v => v.toNat.testBit 4
  | .taSubmitStartStreams _ d => decide (opField d = 1)
  | .taSubmitStopStreams _ d => decide (opField d = 2)
  | .taSubmitTrgArm _ d => decide (opField d = 3)
  | .taSubmitHoist _ d => decide (opField d = 4)
  | .taSubmitOwc _ d => decide (opField d = 5)
  | .taSubmitStepTime _ d => decide (opField d = 6)
  | .taSubmitXfade _ d => decide (opField d = 7)
  | .sbufEnter o => o.dram.all dramWf
  | .frameTransmit _ o => o.dram.all dramWf
  | .reserveRefill o => o.dram.all dramWf
  | _ => true

end Sys2Proof
end

