-- ==== Sys2Proof/Safety.lean ====
section
/-! DEFINITION. What a good state is, in the terms the statements use, and the sets of commands that they speak of. -/

namespace Sys2Proof

/-- The commands that act in OFF, HIBERNATE or BOOT: those of the supply, the contacts and the wake detector, the level at an
event input, the end of BOOT, the source monitor, the keep region and boundary scan. -/
def Instr.actsDark : Instr → Bool
  | .vmainApplied | .vmainLost | .wakeAsserted _ | .wakeWindowExpiry | .resetNAsserted | .resetNRelease | .bootComplete _ _
  | .sourceStop _ | .sourceRunning _ | .refclk10Measure _ | .sourceSwitchComplete | .keepRegionWriteDone _
  | .jtagInstructionUpdate _ | .evEdge _ _ _ => true
  | _ => false

/-- The commands that act in OFF or HIBERNATE: the supply, WAKE, RESET_N and the level at an event input. -/
def Instr.actsUnpowered : Instr → Bool
  | .vmainApplied | .vmainLost | .wakeAsserted _ | .wakeWindowExpiry | .resetNAsserted | .resetNRelease | .evEdge _ _ _ => true
  | _ => false

/-- The role with which the host writes one entry of its own (Table 13.7 and the entries with a rule of their own). -/
def Instr.writeRole : Instr → Option Role
  | .calStart r _ | .auxLaunch r _ | .auxInject r _ | .auxCalStart r _ | .auxRingRead r _ | .evRingRead r _
  | .timeEpochWrite r _ | .refbufEnableWrite r _ _ | .firCoefWrite r _ _ _ _ | .trgMissClear r _ _ | .firSeal r _
  | .firLoadFactory r _ | .firXfadeStart r _ | .owcStart r _ | .streamStart r _ | .streamStop r _ | .trgArm r _
  | .trgDisarm r _ | .timeStep r _ | .timeSet r _ | .rerouteConfirm r _ | .rerouteApplyAsym r _ | .hoist r _
  | .shadowDiscard r _ | .moduleReset r _ | .hibernate r _ | .pennantDip r _ | .taSubmitStartStreams r _
  | .taSubmitStopStreams r _ | .taSubmitTrgArm r _ | .taSubmitHoist r _ | .taSubmitOwc r _ | .taSubmitStepTime r _
  | .taSubmitXfade r _ | .taCancel r _ => some r
  | _ => none

namespace Machine

/-- The committed configuration is in its canonical form (R350, R433). -/
def State.CfgInv (s : State) : Prop := cfgWf s.conf.cfg = true

/-- A module without VMAIN is OFF, judges no WAKE and holds no BOOT (R8, R385, R424). -/
def State.PowerInv (s : State) : Prop :=
  s.power.vmain = false → s.power.mode = .off ∧ s.power.wakeWindow = false ∧ s.power.bootHeld = false

/-- A stop: the step answers a fault or a refusal. -/
def State.stops (s : State) : Prop := ∀ t, step s ≠ .next t

/-- The stores of s with what the settling of the flags and a write of the keep region may begin (R353, R403): the write of
the keep region alone. -/
def State.settledStore (s t : State) : Storage :=
  { s.store with keepWriting := t.store.keepWriting, keepAgain := t.store.keepAgain }

/-- The health of s with what the settling of the flags and the raising of pennants may change (R404, R405, R409): the
pennants, half-mast with its first cause, and the classes that have been exhausted. -/
def State.settledHealth (s t : State) : Health :=
  { s.health with
    pennants := t.health.pennants
    halfMast := t.health.halfMast
    spare := { s.health.spare with
      sinceTw := t.health.spare.sinceTw, sinceCause := t.health.spare.sinceCause, exhausted := t.health.spare.exhausted } }

/-- At the tick that comes, this operation alone is due, and no setting of tw, entry into SAFE or entry into HIBERNATE; the tick
begins no frame shorter than TF without it (R27), and no self-calibration bars it (R84). -/
def State.OneDue (s : State) (op : Op) : Prop :=
  s.power.hibEntry = false ∧ s.power.safeDue = false ∧ s.ptp.setDue = false ∧ s.time.setPending = none ∧
  calBars s s.time.nextTick = false ∧ shortAt (tf s) s.time.nextTick = false ∧
  ∃ e, s.act.sched = [e] ∧ e.op = op ∧ e.due = 0 ∧
    (if e.slot.isNone then e.left = 1 else e.left = 0 ∧ e.fire = s.time.nextTick)

/-- The tick that comes has the room for one operation (R34, R35). -/
def State.tickTakes (s : State) : Prop := 1 ≤ tickRoom s.conf.cfg false (levelNow s) (levelNow s) 1

/-- From s to t one write was accepted that waits for the second tick after the tick that follows (R29, R268, R461): its
answer carries that tick, and the operation joins those that wait. Nothing else changes but the channels named, and the flags
that every step settles. -/
def State.ScheduledDirect (s t : State) (r : Role) (op : Op) (chans : List Chan) : Prop :=
  t.out = .answer 0 (octetsOf 8 (directTick s).toNat) :: s.out ∧
  t.act = { s.act with sched := s.act.sched ++ [⟨none, 0, 0, r, op, directTick s, 0, 3, s.time.tw⟩] } ∧
  t = { s with chans := chans, act := t.act, out := t.out, health := s.settledHealth t, store := s.settledStore t }

/-- From s to t one write was answered with this code and nothing else happened but the settling of the flags. -/
def State.AnsweredOnly (s t : State) (code : Nat) : Prop :=
  t.out = .answer code [] :: s.out ∧ t = { s with out := t.out, health := s.settledHealth t, store := s.settledStore t }

/-- From s to t one write was accepted, with the effect x and no value; the flags settle as at every step. -/
def State.Accepted (s t x : State) : Prop :=
  t = { x with out := .answer 0 [] :: s.out, health := s.settledHealth t, store := s.settledStore t }

/-- The command is a write that waits for its tick: with its own condition and room in the tick it is accepted, else it is
answered with the code of what fails, its condition first (R461). -/
def State.WaitsForTick (s : State) (c : Instr) (r : Role) (op : Op) (cond : Nat) (chans : List Chan) : Prop :=
  ∃ t, exec c s = .next t ∧
    (cond = 0 → tickFits s (directTick s) 1 = true → s.ScheduledDirect t r op chans) ∧
    (cond = 0 → tickFits s (directTick s) 1 = false → s.AnsweredOnly t 0x0406) ∧
    (cond ≠ 0 → s.AnsweredOnly t cond)

end Machine

end Sys2Proof
end

