-- ==== Sys2Proof/Certificates/Slice0/Obligations.lean ====
section
/-! DEFINITION. The statements for the provers, by the chapters of the spec. -/

open Sys2Proof Sys2Proof.Machine

/-- The command at the front of the queue is the one that a step runs, with the queue's rest. -/
def Obligations.StepRunsFront : Prop :=
  ∀ (c : Instr) (rest : List Instr) (s : State), s.pending = c :: rest → step s = exec c { s with pending := rest }

/-- With no command waiting a step is one engine cycle (R15; the cycle as the step of an empty queue is the model's
choice, notes/assumptions/1.md): in OFF and HIBERNATE nothing runs, in BOOT local time alone, and from WARM to SAFE the
trigger units decide the events that the cycle has recognised (R193), and the time word advances by the increment of the
cycle, while the next tick does not lie in it; there it waits for FRAME_TICK. -/
def Obligations.StepIdles : Prop :=
  ∀ s : State, s.pending = [] →
    (s.power.mode.clocked = false → step s = .next s) ∧
    (s.power.mode = .boot → step s = .next { s with time := { s.time with pt := s.time.pt + 1024, cyc := s.time.cyc + 1024 } }) ∧
    (live s = true → toTickUnits s < s.time.cycInc → (∀ x ∈ s.units, x.offers = []) → step s = .next s) ∧
    (live s = true → toTickUnits s < s.time.cycInc →
      ∃ t, step s = .next t ∧ (∀ u < 8, (unitAt t u).offers = []) ∧
        t = { s with units := t.units, outs := t.outs, link := t.link, ev := t.ev, fv := t.fv, health := s.settledHealth t,
                     store := s.settledStore t }) ∧
    (live s = true → s.time.cycInc ≤ toTickUnits s →
      ∃ t, step s = .next t ∧ t.time.cyc = s.time.cyc + 1024 ∧ t.time.pt = t.time.cyc ∧
        t.time.tw = BitVec.ofNat 64 (s.time.cycTw.toNat + (s.time.cycFrac + s.time.cycInc) / 2 ^ 40) ∧
        t.time.frac = (s.time.cycFrac + s.time.cycInc) % 2 ^ 40 ∧ t.time.cycTw = t.time.tw ∧ t.time.cycFrac = t.time.frac ∧
        t.time.cycInc = s.time.inc ∧ (∀ u < 8, (unitAt t u).offers = []) ∧
        ((∀ x ∈ s.units, x.offers = []) →
          t.units = s.units ∧ t.outs = s.outs ∧ t.link = s.link ∧ t.ev = s.ev ∧ t.fv = s.fv ∧ t.store = s.store) ∧
        t = { s with
          time := { s.time with tw := t.time.tw, frac := t.time.frac, pt := t.time.pt, cyc := t.time.cyc, cycTw := t.time.cycTw,
                                cycFrac := t.time.cycFrac, cycInc := t.time.cycInc, era := t.time.era }
          buf := { s.buf with sbuf := t.buf.sbuf, write := t.buf.write, depth := t.buf.depth, peak := t.buf.peak,
                              overrun := t.buf.overrun, overrunCycles := t.buf.overrunCycles }
          units := t.units, outs := t.outs, link := t.link, ev := t.ev, fv := t.fv
          health := s.settledHealth t, store := s.settledStore t })

/-- No command and no idle cycle stops the block: every step answers a next state; and no command touches the queue of the
commands that wait. -/
def Obligations.StepsAnswerAndKeepTheQueue : Prop :=
  (∀ s : State, ¬ s.stops) ∧ (∀ (c : Instr) (s t : State), exec c s = .next t → t.pending = s.pending)

/-- How the flags settle at the end of a step (R402, R403, R404, R405, R409): exhaustion is kept in the spare record, and
half-mast begins with the first exhaustion and stays; each pennant with a level takes it, and is raised and counted when the
level rises, and only then, one raise with the events of its engine cycle; the others stay as they are. -/
def Obligations.FlagsSettle : Prop :=
  ∀ s : State, live s = true →
    (settle s).health.halfMast = (s.health.halfMast || halfMastNow s) ∧ (settle s).health.spare.exhausted = halfMastCause s ∧
    (∀ (nn : Nat) (p : Pennant), s.health.pennants[nn]? = some p →
      ∃ q, (settle s).health.pennants[nn]? = some q ∧
        (18 ≤ nn → q = p) ∧
        (nn < 18 → q.level = (if nn = 0 then (settle s).health.halfMast else pnLevel s nn)) ∧
        (nn < 18 → p.level = true ∨ q.level = false → q = { p with level := q.level }) ∧
        (nn < 18 → p.level = false → q.level = true →
          (p.inCycle s.time.cyc = false →
            q.raised = true ∧ q.count = min (p.count + 1) 65535 ∧ q.last = s.time.tw ∧ q.cycle = some s.time.cyc) ∧
          (p.inCycle s.time.cyc = true → p.rose = false →
            q.raised = true ∧ q.count = min (p.base + 1) 65535 ∧ q.last = s.time.tw ∧ q.cycle = some s.time.cyc) ∧
          (p.inCycle s.time.cyc = true → p.rose = true → q = { p with level := true })))

/-- The state at reset: OFF with VMAIN absent (R8), the time word 0 and UNSET (R16), every entry at its power-up value
(R433), no command waiting, and both invariants. -/
def Obligations.ResetState : Prop :=
  State.reset.power.mode = .off ∧ State.reset.power.vmain = false ∧ State.reset.time.tw = 0 ∧
  State.reset.time.quality = 0 ∧ State.reset.conf.cfg = [] ∧ State.reset.conf.shadow = [] ∧
  State.reset.act.sched = [] ∧ State.reset.pending = [] ∧ State.reset.CfgInv ∧ State.reset.PowerInv

/-- Every step keeps the committed configuration in its canonical form: keys strictly rising, and no entry held at its
power-up value (R350, R433), so that equal configurations are equal data. -/
def Obligations.ConfigurationStaysCanonical : Prop := ∀ s t : State, s.CfgInv → step s = .next t → t.CfgInv

/-- Every step keeps this: a module without VMAIN is OFF, judges no WAKE, and holds no BOOT (R8, R385, R424). -/
def Obligations.UnpoweredStaysOff : Prop := ∀ s t : State, s.PowerInv → step s = .next t → t.PowerInv

/-- In OFF, HIBERNATE and BOOT the module receives no frames, serves no dictionary and runs no engine (R8, R211, R322): a
command changes nothing, but for those of the supply, the contacts, the level at an event input, the wake detector, the
end of BOOT, the source monitor, the keep region and boundary scan. In OFF and HIBERNATE only the supply, WAKE, RESET_N
and the level at an event input act (R386). -/
def Obligations.DarkModulesIgnore : Prop :=
  ∀ (c : Instr) (s : State),
    (live s = false → c.actsDark = false → exec c s = .next s) ∧
    (s.power.mode.clocked = false → c.actsUnpowered = false → exec c s = .next s)

/-- The Observer writes nothing (R323): each write of an entry with its own rule, of a key and of IDENTITY_SERIAL_MATCH is
answered with 0x0105 and no value, and changes nothing else but the flags that every step settles. -/
def Obligations.ObserverWritesNothing : Prop :=
  ∀ s : State, live s = true →
    (∀ c : Instr, c.writeRole = some .observer → ∃ t, exec c s = .next t ∧ s.AnsweredOnly t 0x0105) ∧
    (∀ (which : Role) (k : BitVec 256), which ≠ .observer →
      ∃ t, exec (.keyWrite .observer which k) s = .next t ∧ s.AnsweredOnly t 0x0105) ∧
    (∀ v : BitVec 32, ∃ t, exec (.identitySerialMatch .observer v) s = .next t ∧ s.AnsweredOnly t 0x0105)

/-- The supply and WAKE (R385, R386, R387). VMAIN applied starts the 5 ms in which WAKE is judged; their end without WAKE
leads to HIBERNATE; VMAIN lost leads to OFF from every state, with everything volatile at its value after power, the levels
at the event inputs and the banks as they were. WAKE that qualifies in the 5 ms, or in HIBERNATE, takes the module to BOOT
with its boot cause, which out of HIBERNATE is 1 unless RESET_N is low (R388); so does WAKE before a BOOT out of HIBERNATE has
begun, in the time that is left to its begin (5 ms, the bound of R386, notes/assumptions/92.md); elsewhere WAKE changes the
contact's level alone, which an entry into HIBERNATE under way remembers. -/
def Obligations.SupplyAndWake : Prop :=
  (∀ s : State,
     (s.power.vmain = false →
       exec .vmainApplied s = .next { s with power := { s.power with vmain := true, wakeWindow := true } }) ∧
     (s.power.wakeWindow = true →
       exec .wakeWindowExpiry s = .next { s with power := { s.power with mode := .hibernate, wakeWindow := false } }) ∧
     (∃ t, exec .vmainLost s = .next t ∧ t.power.mode = .off ∧ t.power.vmain = false ∧ t.power.wake = false ∧
       t.store.banks = s.store.banks ∧ t.store.slotBanks = s.store.slotBanks ∧
       t.ev.inputs = s.ev.inputs.map (fun i => { EvInput.init with level := i.level }) ∧
       t = { State.reset with pending := s.pending, power := t.power, store := t.store, fv := s.fv, out := s.out
                              ev := { State.reset.ev with inputs := t.ev.inputs } })) ∧
  (∀ s : State, s.power.vmain = true →
     (s.power.wakeWindow = true ∨ s.power.mode = .hibernate →
       ∃ t, exec (.wakeAsserted true) s = .next t ∧ t.power.mode = .boot ∧ t.power.wake = true ∧
         t.power.bootCause = (if s.power.wakeWindow then 0 else if s.power.resetLow then 2 else 1) ∧
         t.power.bootHeld = s.power.resetLow ∧
         (s.power.wakeWindow = false → t.power.hibWake = true ∧ (s.power.hibUntil = none → t.power.hibUntil = some hibSpan)) ∧
         t = { State.reset with pending := s.pending, power := t.power, store := t.store, clocks := t.clocks,
                                modPhase := t.modPhase, fv := s.fv + 1, out := s.out
                                ev := { State.reset.ev with inputs := t.ev.inputs } }) ∧
     (s.power.wakeWindow = false → hibSoon s = true → s.power.hibWake = false →
       ∃ t, exec (.wakeAsserted true) s = .next t ∧ t.power.mode = .boot ∧ t.power.wake = true ∧ t.power.hibWake = true ∧
         t.power.bootCause = (if s.power.resetLow then 2 else 1) ∧
         t.power.hibUntil = s.power.hibUntil.map (· - s.time.pt) ∧ t.time = State.reset.time) ∧
     (s.power.wakeWindow = false → s.power.mode ≠ .hibernate → hibSoon s = false ∨ s.power.hibWake = true →
       exec (.wakeAsserted true) s = .next { s with power := { s.power with wake := true, wakeSeen := s.power.hibEntry } }) ∧
     exec (.wakeAsserted false) s =
       .next { s with power := { s.power with wake := false, wakeSeen := s.power.hibEntry && s.power.wakeSeen } })

/-- RESET_N and the reset command (R345, R386, R388, R424): RESET_N falling restarts BOOT and holds it at its first step, and
its rise lets it run; an accepted MODULE_RESET leads to BOOT at its boot entry. The boot cause is 4 out of SAFE, else 2 for
RESET_N and 3 for the command; out of HIBERNATE it is 1 where WAKE has qualified and RESET_N is high again as BOOT begins. In
OFF, RESET_N has no effect but on its level. -/
def Obligations.ResetsStartBoot : Prop :=
  ∀ s : State,
    (s.power.mode ≠ .off → s.power.resetLow = false →
      ∃ t, exec .resetNAsserted s = .next t ∧ t.power.mode = .boot ∧ t.power.bootHeld = true ∧ t.power.resetLow = true ∧
        t.power.bootCause = (if s.power.mode = .safe then 4 else 2) ∧ t.conf = State.reset.conf ∧
        t.store.banks = s.store.banks) ∧
    (s.power.mode = .off → ∃ t, exec .resetNAsserted s = .next t ∧ t.power.mode = .off ∧ t.power.resetLow = true ∧
        t = { s with power := t.power }) ∧
    (s.power.resetLow = true → s.power.bootHeld = true →
      ∃ t, exec .resetNRelease s = .next t ∧ t.power.mode = .boot ∧ t.power.bootHeld = false ∧ t.power.resetLow = false ∧
        t.power.bootCause = (if hibSoon s then (if s.power.hibWake then 1 else 2) else if s.power.fellInSafe then 4 else 2)) ∧
    (live s = true →
      ∃ t, exec (.moduleReset .custodian 0xA5) s = .next t ∧ t.out = .answer 0 [] :: s.out ∧
        t.power = { s.power with resetEntry := some (if s.power.mode = .safe then 4 else 3) } ∧
        t = { s with power := t.power, out := t.out, health := s.settledHealth t, store := s.settledStore t }) ∧
    (∀ cause, live s = true → s.power.resetEntry = some cause →
      ∃ t, exec .resetCommandBootEntry s = .next t ∧ t.power.mode = .boot ∧ t.power.bootCause = cause ∧
        t.conf = State.reset.conf ∧ t.store.banks = s.store.banks ∧ t.power.vmain = s.power.vmain)

/-- BOOT ends in WARM, or in SAFE when its self-test failed (R451): the time word starts at 0 (R16), the epoch, the
reference in use and the keys are those of the keep region (R30, R70, R324, R353), the configuration is the one that the bank
selection and the slot comparison give (R356, R358, R363), with a bank or copy that is not valid left out (R353), and
PTP_PORT_STATE reads 1 (R433). -/
def Obligations.BootEnds : Prop :=
  ∀ (s : State) (ok : Bool) (slot : BootRead), s.power.mode = .boot → s.power.bootHeld = false →
    (let r := { s with store := s.store.read slot }
     ∃ t, exec (.bootComplete ok slot) s = .next t ∧ t.power.mode = (if ok then .warm else .safe) ∧
      t.time.tw = 0 ∧ t.time.frac = 0 ∧ t.time.epoch = (keepNow r).epoch ∧ t.ref.inUse = (keepNow r).refInUse ∧
      t.ref.k = (keepNow r).refK ∧ t.dict.keyOp.key = (keepNow r).keyOp ∧ t.dict.keyCu.key = (keepNow r).keyCu ∧
      t.conf.cfg = bootCfg (cfgOfRecords (match ownBank r with | some b => b.img.records | none => []))
        (slotRow slot).1 (slotRow slot).2 ∧
      t.store.slotState = (slotRow slot).1 ∧ t.ptp.state = 1)

/-- The end of WARM (R380, R77): with no condition open, C0 of a start-up self-calibration is due at the next tick. Until then
the module stays in WARM, the model's reading of the two rules (notes/assumptions/26.md). After 900 s, counted on the OCXO,
with a condition open, the module notes it once and stays in WARM. -/
def Obligations.WarmEnds : Prop :=
  ∀ s : State, s.power.mode = .warm →
    (warmOpen s = 0 → s.cal.fromWarm = false →
      ∃ t, exec .warmEnd s = .next t ∧
        t = { s with power := { s.power with warmWait := 0 }, cal := { s.cal with fromWarm := true }, health := s.settledHealth t,
                     store := s.settledStore t }) ∧
    (warmOpen s ≠ 0 → s.power.warmOver = false → 900 * 256000000000 ≤ warmTime s →
      ∃ t, exec .warmOvertime s = .next t ∧
        t = { s with power := { s.power with warmOver := true }, health := s.settledHealth t, store := s.settledStore t })

/-- HIBERNATE (R387): a Custodian's write of 0x5A in READY or SAFE, with nothing left that the state would lose and WAKE not
asserted, is accepted; a SAFE that only BOOT ends refuses it (R379, R395, R425). At the entry everything volatile falls to its
value after power; with WAKE asserted by then, or during the entry, the module goes on to BOOT. While a frame still waits there
is no entry (R456). -/
def Obligations.HibernateEnters : Prop :=
  ∀ s : State, s.power.mode = .ready ∨ s.power.mode = .safe →
    (mayHibernate s = true →
      ∃ t, exec (.hibernate .custodian 0x5A) s = .next t ∧ t.out = .answer 0 [] :: s.out ∧
        t.power = { s.power with hibEntry := true } ∧
        t = { s with power := t.power, out := t.out, health := s.settledHealth t, store := s.settledStore t }) ∧
    (s.power.mode = .safe → s.power.bootOnly = true →
      ∃ t, exec (.hibernate .custodian 0x5A) s = .next t ∧ s.AnsweredOnly t 0x0301) ∧
    (drained s = false → exec .entryIntoHibernate s = .next s) ∧
    (s.power.hibEntry = true → drained s = true → s.power.wake = false → s.power.wakeSeen = false →
      ∃ t, exec .entryIntoHibernate s = .next t ∧ t.power.mode = .hibernate ∧ t.power.vmain = s.power.vmain ∧
        t = { State.reset with pending := s.pending, power := t.power, store := t.store, fv := s.fv, out := s.out
                               ev := { State.reset.ev with inputs := t.ev.inputs } }) ∧
    (s.power.hibEntry = true → drained s = true → s.power.wake = true ∨ s.power.wakeSeen = true →
      ∃ t, exec .entryIntoHibernate s = .next t ∧ t.power.mode = .boot ∧
        t.power.bootCause = (if s.power.resetLow then 2 else 1))

/-- Boundary scan and the entry into SAFE (R425, R255, R344, R203, R269, Tables 5.6, 11.11 and 16.8). Test-Logic-Reset selects
IDCODE (notes/assumptions/94.md) and disturbs nothing; an instruction that leaves the contacts to the core changes nothing but
the instruction register and its cells; one that takes them over leads to SAFE, which only BOOT ends. The entry removes every
waiting operation, those of the action table and the direct ones that leave a record with outcome 4; the content of a pending
hoist goes back to the shadow; fades are abandoned with the old bank active, open-wire checks, streams, armed units and a
self-calibration end, and the trigger outputs are low. -/
def Obligations.BoundaryScan : Prop :=
  ∀ (s : State), s.power.mode.clocked = true →
    (∃ t, exec (.jtagInstructionUpdate .testLogicReset) s = .next t ∧ t.power = { s.power with jtag := .idcode } ∧
      t = { s with power := t.power, health := s.settledHealth t, store := s.settledStore t }) ∧
    (∀ (i : JtagInstr) (cells : JtagCells),
      (takesContacts i = false →
        ∃ t, exec (.jtagInstructionUpdate (.update i cells)) s = .next t ∧
          t.power = { s.power with jtag := i, jtagCells := cells } ∧
          t = { s with power := t.power, health := s.settledHealth t, store := s.settledStore t }) ∧
      (takesContacts i = true →
        ∃ t, exec (.jtagInstructionUpdate (.update i cells)) s = .next t ∧ t.power.mode = .safe ∧ t.power.jtag = i ∧
          t.power.jtagCells = cells ∧ t.power.bootOnly = true ∧
          (live s = true → s.power.mode ≠ .safe →
            t.act.sched = [] ∧
            ((s.act.sched.filter fun e => e.slot.isSome || leavesRecord e.op).length ≤ 64 →
              ∀ e ∈ s.act.sched, e.slot.isSome = true ∨ leavesRecord e.op = true → cancelRecord s e 4 ∈ t.act.log) ∧
            t.conf = { s.conf with shadow := shadowReturn s.conf.shadow (hoistContent s), hoist := none } ∧
            (∀ g < 4, (groupAt t g).fade = none ∧ (groupAt t g).active = (groupAt s g).active ∧
              (groupAt t g).owc.state ≠ 2) ∧
            (∀ st < 16, (streamAt t st).running = false) ∧ (∀ u < 8, (unitAt t u).armed = false) ∧
            (∀ q ∈ t.outs, q.level = false ∧ q.starts = []) ∧ t.cal.state = 0 ∧
            t = { s with power := t.power, conf := t.conf, act := t.act, cal := t.cal, chans := t.chans, dies := t.dies
                         groups := t.groups, streams := t.streams, buf := t.buf, link := t.link, units := t.units
                         outs := t.outs, ev := t.ev, fv := t.fv, health := s.settledHealth t
                         store := s.settledStore t })))

/-- FRAME_TICK (R15, R20, R32): at a tick at which neither a setting nor a step of tw is waiting, and no entry into
HIBERNATE, the time word reaches the tick exactly, at its own instant inside the engine cycle that holds it, the whole cycles
before it have passed, and the frame that begins has its header latched from the tick. At a tick for which one operation alone
is due: a step moves the time word by its Δ, with the next epoch and the frame that R26 gives, and the header of that frame;
a hoist that passes its tests commits its content, with its generation and digest, and one that fails returns it to the shadow
and leaves configuration, generation and digest (R343); a start puts its streams, from the tick on, and the module into RUN, and
a stop ends its streams, and RUN with the last one (R269), both unless the background slice of that tick leads to SAFE
(R69, R399). A setting of tw that is due gives it its value, in the epoch that
holds, with the frame that R26 gives (R232). -/
def Obligations.TickReached : Prop :=
  (∀ (s : State) (o : TickObs), live s = true → s.ptp.setDue = false → s.time.setPending = none → s.power.hibEntry = false →
    (∀ e ∈ s.act.sched, isStep e.op = false) →
    ∃ t, exec (.frameTick o) s = .next t ∧ t.time.tw = s.time.nextTick ∧ t.time.cyc = s.time.cyc + 1024 * wholeCycles s ∧
      t.time.pt = t.time.cyc + tickOffset s ∧
      t.time.frac = 0 ∧ t.time.frameTw = s.time.nextTick ∧ t.time.epoch = s.time.epoch ∧ t.frame.tw = s.time.nextTick ∧
      t.frame.epoch = s.time.epoch ∧ t.frame.generation = t.conf.generation ∧ t.frame.digest = t.conf.digest ∧
      t.pending = s.pending ∧ t.power.refOven = o.refOven ∧ t.power.ocxoOven = o.ocxoOven) ∧
  (∀ (s : State) (o : TickObs) (d : BitVec 64), live s = true → s.OneDue (.stepTime d) → s.tickTakes → s.time.quality ≠ 0 →
    ∃ t, exec (.frameTick o) s = .next t ∧ t.time.tw = s.time.nextTick + d ∧ t.time.epoch = s.time.epoch + 1 ∧
      t.time.frameTw = t.time.tw ∧ t.time.nextTick = frameEnd (tf s) t.time.tw ∧
      t.time.shortFrame = decide (frameLen t.time.tw t.time.nextTick < tf s) ∧ t.time.lastStepTick = t.time.tw ∧
      t.time.lastStepDelta = d ∧ t.act.sched = [] ∧
      t.frame.tw = t.time.tw ∧ t.frame.number = frameNumber (tf s) t.time.tw ∧ t.frame.epoch = t.time.epoch) ∧
  (∀ (s : State) (o : TickObs) (h : HoistPending), live s = true → s.OneDue .hoist → s.conf.hoist = some h →
    ∃ t, exec (.frameTick o) s = .next t ∧ t.conf.hoist = none ∧ t.act.sched = [] ∧ t.conf.hoistLastTick = s.time.nextTick ∧
      (t.conf.hoistLastResult = 0 →
        t.conf.cfg = cfgApply s.conf.cfg h.content ∧ t.conf.generation = newGen h.check ∧
        t.conf.digest = digestOf t.conf.cfg ∧ t.conf.shadow = s.conf.shadow) ∧
      (t.conf.hoistLastResult ≠ 0 →
        t.conf.cfg = s.conf.cfg ∧ t.conf.generation = s.conf.generation ∧ t.conf.digest = s.conf.digest ∧
        t.conf.shadow = shadowReturn s.conf.shadow h.content) ∧
      t.frame.generation = t.conf.generation ∧ t.frame.digest = t.conf.digest) ∧
  (∀ (s : State) (o : TickObs) (m : BitVec 16), live s = true → s.OneDue (.startStreams m) → s.tickTakes → m ≠ 0 →
    s.streams.length = 16 → (∀ k ∈ s.streams, k.running = false) → startCond s [] s.time.nextTick m = 0 → s.power.mode = .ready →
    ∃ t, exec (.frameTick o) s = .next t ∧ t.act.sched = [] ∧
      (t.power.mode ≠ .safe → t.power.mode = .run ∧
        (∀ st < 16, (streamAt t st).running = m.toNat.testBit st ∧
          (m.toNat.testBit st = true → (streamAt t st).startTw = s.time.nextTick)))) ∧
  (∀ (s : State) (o : TickObs) (m : BitVec 16), live s = true → s.OneDue (.stopStreams m) → s.tickTakes →
    s.streams.length = 16 → stopCond s [] m = 0 → s.power.mode = .run →
    cfgAt s 0x4B05 0 * 2 ^ 20 ≥ 3 * wCfg s.conf.cfg + reserveFill s →
    ∃ t, exec (.frameTick o) s = .next t ∧ t.act.sched = [] ∧
      (t.power.mode ≠ .safe →
        (∀ st < 16, (streamAt t st).running = ((streamAt s st).running && !m.toNat.testBit st)) ∧
        t.power.mode = (if (List.range 16).any (fun st => (streamAt t st).running) then .run else .ready))) ∧
  (∀ (s : State) (o : TickObs) (x F : TW), live s = true → s.power.hibEntry = false → s.power.safeDue = false →
    s.ptp.setDue = false → s.act.sched = [] → s.time.setPending = some (x, F) → TW.atOrBefore F s.time.nextTick = true →
    s.time.quality = 0 →
    ∃ t, exec (.frameTick o) s = .next t ∧ t.time.tw = x ∧ t.time.epoch = s.time.epoch ∧ t.time.setPending = none ∧
      t.time.frameTw = x ∧ t.time.nextTick = frameEnd (tf s) x ∧
      t.time.shortFrame = decide (frameLen x t.time.nextTick < tf s) ∧
      t.frame.tw = x ∧ t.frame.number = frameNumber (tf s) x ∧ t.frame.epoch = s.time.epoch)

/-- R21: the frame number of the frame that begins at a tick, and that FRAME_NUMBER reads it. -/
def Obligations.FrameNumbers : Prop :=
  (∀ (tfu : Nat) (t : TW), frameNumber tfu t = t.toNat / tfu % 2 ^ 32) ∧
  (∀ s : State, ∃ row, lookup 0x4000 2 = some row ∧
    readEntry s row 0x4000 2 = octetsOf 4 (s.time.frameTw.toNat / tf s % 2 ^ 32)) ∧
  (∀ (s : State) (o : TickObs), live s = true → s.ptp.setDue = false → s.time.setPending = none → s.power.hibEntry = false →
    (∀ e ∈ s.act.sched, isStep e.op = false) →
    ∃ t, exec (.frameTick o) s = .next t ∧ t.time.frameTw = s.time.nextTick ∧
      t.frame.number = s.time.nextTick.toNat / tf t % 2 ^ 32)

/-- R24: the ticks around the wrap of the time word, for every frame period. -/
def Obligations.FramesAtTheWrap : Prop :=
  ∀ s : State,
    (let tfu := tf s
     let r := 2 ^ 64 % tfu
     let last := BitVec.ofNat 64 (2 ^ 64 - r)
     last.toNat % tfu = 0 ∧ 2 ^ 64 ≤ last.toNat + tfu ∧ last.toNat < 2 ^ 64 ∧
     (tfu ≤ 2 * r →
       frameEnd tfu last = 0 ∧ frameLen last 0 = r ∧ frameNumber tfu 0 = 0 ∧
       (s.time.tw = last → (openFrame s).time.nextTick = 0)) ∧
     (2 * r < tfu →
       frameEnd tfu last = BitVec.ofNat 64 tfu ∧ frameLen last (BitVec.ofNat 64 tfu) = r + tfu ∧
       frameNumber tfu (BitVec.ofNat 64 tfu) = 1 ∧
       (s.time.tw = last → (openFrame s).time.nextTick = BitVec.ofNat 64 tfu)))

/-- The self-tests of a port and the retirement of memory (R398 to R400): an end without errors clears the count of failures;
one with errors counts, and asks for a repetition until the third in succession, which retires the port for good; a repetition
starts the test anew, whatever the link does. A DRAM word that cannot be corrected is counted and retires its page to a spare;
one that can be is counted, and retires the page when the same word failed in an earlier pass or four words of the page fail in
one pass; an SRAM row is remapped at a word that cannot be corrected, or at a second failure within 24 hours; what is retired
is retired once, and without a spare it stays in service. -/
def Obligations.PortSelfTests : Prop :=
  (∀ (s : State) (e : MemError),
    (let m := s.health.spare.dramMap
     let d := s.health.dram
     let t := dramError e s
     let hard := e.uncorrectable = true ∨ d.bad.contains (e.unit, e.word) = true
     let seen := (e.unit, e.word, d.pass) :: d.seen.filter fun x => !(decide (x.1 = e.unit) && decide (x.2.1 = e.word))
     let fails := hard ∨ (∃ x ∈ d.seen, x.1 = e.unit ∧ x.2.1 = e.word ∧ x.2.2 ≠ d.pass) ∨
       4 ≤ seen.countP fun x => decide (x.1 = e.unit) && decide (x.2.2 = d.pass)
     let free := retireTo dramSpareBase e.unit (freeSpare dramSpareBase 2048 m) m
     (hard → t.health.dram.uncorrected = satInc d.uncorrected ∧ t.health.dram.corrected = d.corrected) ∧
     (¬hard → t.health.dram.corrected = satInc d.corrected ∧ t.health.dram.uncorrected = d.uncorrected) ∧
     (∀ x, fails → m.any (fun p => decide (p.1 = e.unit)) = false → free = some x →
       t.health.spare.dramMap = remap e.unit x m ∧ (hard → t.health.dram.bad.head? = some (x, e.word))) ∧
     (¬fails ∨ m.any (fun p => decide (p.1 = e.unit)) = true ∨ free = none → t.health.spare = s.health.spare) ∧
     t = { s with health := t.health, store := s.settledStore t })) ∧
  (∀ (s : State) (row word : Nat) (bad : Bool),
    (let m := s.health.spare.sramMap
     let t := rowFault row word bad s
     let again := ∃ x ∈ s.health.sram.seen, x.1 = row ∧ TW.diff (BitVec.ofNat 64 x.2.2) s.time.tw ≤ dayUnits
     let free := retireTo sramSpareBase row (freeSpare sramSpareBase 48 m) m
     t.health.sram.seen.head? = some (row, word, s.time.tw.toNat) ∧
     (∀ x, bad = true ∨ again → m.any (fun p => decide (p.1 = row)) = false → free = some x →
       t.health.spare.sramMap = remap row x m) ∧
     ((bad = false ∧ ¬again) ∨ m.any (fun p => decide (p.1 = row)) = true ∨ free = none → t.health.spare = s.health.spare) ∧
     t = { s with health := t.health, store := s.settledStore t })) ∧
  ∀ (s : State) (p : Fin 4) (q : SelfTest), live s = true → s.health.selfTest[p.val]? = some q →
    (∀ errors, q.running = true → (if errors then q.fails + 1 else 0) < 3 →
      ∃ t, exec (.portSelfTestEnd p errors) s = .next t ∧
        t.health.selfTest = s.health.selfTest.set p.val
          { q with running := false, fails := if errors then q.fails + 1 else 0, retry := errors } ∧
        t = { s with health := { s.settledHealth t with selfTest := t.health.selfTest }, store := s.settledStore t }) ∧
    (q.running = true → 3 ≤ q.fails + 1 → p.val < s.link.ports.length → p.val < s.health.spare.portRetired.length →
      ∃ t, exec (.portSelfTestEnd p true) s = .next t ∧ portRetired t p.val = true ∧ (portAt t p.val).role = 0 ∧
        (portAt t p.val).status = false) ∧
    (q.retry = true →
      ∃ t, exec (.portSelfTestRetry p) s = .next t ∧
        t.health.selfTest[p.val]? =
          some { q with running := true, retry := false, last := some s.time.tw, tested := true } ∧
        t = { s with health := { s.settledHealth t with selfTest := t.health.selfTest }, store := s.settledStore t })

/-- The reference buffers and the reference in use (R67, R68, R70, R382, R395): a buffer in order, with the oven in regulation,
becomes ready; a write of 1 enables a disabled buffer, and its slices convert from the next modulator edge on; a write of 0
disables an enabled one of a die that no running stream uses, and its slices stop converting; GATE_STATE of the die's domain
follows in the cycle of the write, the model's reading of R382 (notes/assumptions/65.md). A reading of the two references within
the window ends the run of departures; the eighth in a row that departs retires the primary: REF_IN_USE is 1, k is the ratio
of the eight, and every channel is tainted from the next sample on, for 17 further samples, but for the channels that a
self-calibration still measures. One more than 1,000 ppm off, or clipped, leads to SAFE at the next tick, which only BOOT
ends, and retires nothing. -/
def Obligations.ReferenceBuffers : Prop :=
  (∀ (s : State) (code : Int) (clip : Bool), s.ref.inUse = 0 → clip = true ∨ beyondPpm (departure code) 1000 = true →
    (judgeZener code clip s).power =
      { s.power with safeDue := s.power.safeDue || decide (s.power.mode ≠ .safe), bootOnly := true } ∧
    (judgeZener code clip s).ref.inUse = 0 ∧ (judgeZener code clip s).health.spare = s.health.spare) ∧
  (∀ (s : State) (code : Int), s.ref.inUse = 0 → beyondPpm (departure code) 1000 = false →
    (beyondPpm (departure code) (cfgAt s 0x5C60 0) = false →
      (judgeZener code false s).ref.departures = [] ∧ (judgeZener code false s).ref.inUse = 0 ∧
      judgeZener code false s = { s with ref := (judgeZener code false s).ref }) ∧
    (beyondPpm (departure code) (cfgAt s 0x5C60 0) = true → s.ref.departures.length < 7 →
      (judgeZener code false s).ref.departures = code :: s.ref.departures ∧ (judgeZener code false s).ref.inUse = 0 ∧
      judgeZener code false s = { s with ref := (judgeZener code false s).ref }) ∧
    (beyondPpm (departure code) (cfgAt s 0x5C60 0) = true → s.ref.departures.length = 7 →
      (let t := judgeZener code false s
       let e := edgeFrom s (s.time.pt + 1)
       let measured := fun c => decide (s.cal.state = 2) && !s.cal.written && s.cal.mask.testBit (c / 32)
       t.ref.inUse = 1 ∧ t.ref.k = roundRat ((meanRatio (code :: s.ref.departures) - 1) * 2 ^ 30) ∧ t.ref.edge = e ∧
       t.health.spare.primaryRetired = true ∧
       (∀ c < s.chans.length, (chanAt t c).taint =
         (if measured c then (chanAt s c).taint else (addTaint e (e + 17) (chanAt s c)).taint))))) ∧
  ∀ (s : State) (g : Fin 4), live s = true →
    ((dieAt s g.val).refEnable = true → (dieAt s g.val).bufOut = false → s.power.refOven = true →
      ∃ t, exec (.refReadySet g) s = .next t ∧ t.dies = updAt (fun d => { d with refReady := true }) g.val s.dies ∧
        t = { s with dies := t.dies, health := s.settledHealth t, store := s.settledStore t }) ∧
    (∀ r, roleOk r .operator = true → (dieAt s g.val).refEnable = false → s.cal.state = 0 →
      ∃ t, exec (.refbufEnableWrite r g 1) s = .next t ∧ t.out = .answer 0 [] :: s.out ∧
        t.dies = updAt (fun d => { d with refEnable := true, bufOut := false, enabledAt := s.time.pt, bufOkFrom := s.time.pt
                                          convLog := logPush false true (edgeNow s) d.convLog }) g.val s.dies ∧
        t.clocks = { s.clocks with gateState := s.clocks.gateState.set g.val 0 } ∧
        t = { s with dies := t.dies, clocks := t.clocks, out := t.out, health := s.settledHealth t, store := s.settledStore t }) ∧
    (∀ r, roleOk r .operator = true → (dieAt s g.val).refEnable = true → s.cal.state = 0 → dieStreams s g.val = false →
      ∃ t, exec (.refbufEnableWrite r g 0) s = .next t ∧ t.out = .answer 0 [] :: s.out ∧
        t.dies = updAt (fun d => { abandonVisit d with refEnable := false, refReady := false, bufOut := false
                                                       convLog := logPush true false (edgeNow s) (abandonVisit d).convLog })
          g.val s.dies ∧
        t.clocks = { s.clocks with gateState := s.clocks.gateState.set g.val 1 } ∧
        (∀ c, c / 32 ≠ g.val → chanAt t c = chanAt s c) ∧
        t = { s with dies := t.dies, chans := t.chans, clocks := t.clocks, out := t.out, health := s.settledHealth t,
                     store := s.settledStore t })

/-- A start-up self-calibration begins (R76, R77, R79, R83, R203, R335). An accepted CAL_START answers the tick C0, the second
after the tick that follows: that the answer carries it is the model's reading of R335 (notes/assumptions/50.md); at C0, out of
WARM or READY, the module is in CALIBRATE with its trigger outputs low, and the end tick counts from the tick; a calibration
that a change of reference stopped begins again at its restart tick. -/
def Obligations.CalibrationBegins : Prop :=
  ∀ s : State,
    (∀ (r : Role) (v : BitVec 8), roleOk r .operator = true → calMaskOk v = true → s.power.mode = .ready → s.cal.state = 0 →
      (∀ g < 4, v.toNat.testBit g = true → (dieAt s g).refReady = true ∧ fadeState s g = 0) →
      (∀ g < 4, owcState s g = 0) →
      (∀ e ∈ s.act.sched, TW.atOrBefore e.fire (calEndTick s (directTick s) 0) = false) →
      ∃ t, exec (.calStart r v) s = .next t ∧ t.out = .answer 0 (octetsOf 8 (directTick s).toNat) :: s.out ∧
        t.cal = { s.cal with state := 1, mask := v.toNat, c0 := directTick s, endTick := calEndTick s (directTick s) 0
                             extensions := 0, restart := none, written := false } ∧
        t = { s with cal := t.cal, out := t.out, health := s.settledHealth t, store := s.settledStore t }) ∧
    (s.power.hibEntry = false → s.power.mode = .warm → s.cal.fromWarm = true →
      ∃ t, exec .calC0 s = .next t ∧ t.power = { s.power with mode := .calibrate, warmEnd := some s.time.pt } ∧
        t.cal.state = 2 ∧ t.cal.mask = enabledMask s ∧ t.cal.c0 = s.time.frameTw ∧ t.cal.lastStart = s.time.frameTw ∧
        t.cal.endTick = calEndTick s s.time.frameTw 0 ∧ t.cal.fromWarm = false ∧ t.cal.written = false ∧
        (∀ q ∈ t.outs, q.level = false ∧ q.starts = []) ∧
        t = { s with power := t.power, cal := t.cal, dies := t.dies, chans := t.chans, aux := t.aux, outs := t.outs
                     health := s.settledHealth t, store := s.settledStore t }) ∧
    (s.power.hibEntry = false → s.power.mode = .ready → s.cal.fromWarm = false → s.cal.state = 1 →
      ∃ t, exec .calC0 s = .next t ∧ t.power = { s.power with mode := .calibrate } ∧ t.cal.state = 2 ∧
        t.cal.mask = s.cal.mask ∧ t.cal.c0 = s.time.frameTw ∧ t.cal.retiredOn = 0 ∧ t.cal.failedOn = 0 ∧
        t.cal.endTick = calEndTick s s.time.frameTw 0 ∧ t.cal.written = false ∧
        (∀ q ∈ t.outs, q.level = false ∧ q.starts = []) ∧
        t = { s with power := t.power, cal := t.cal, dies := t.dies, chans := t.chans, aux := t.aux, outs := t.outs
                     health := s.settledHealth t, store := s.settledStore t }) ∧
    (s.power.mode = .calibrate → s.cal.restart.isSome = true →
      ∃ t, exec .calRestart s = .next t ∧ t.cal.state = 2 ∧ t.cal.restart = none ∧ t.cal.c0 = s.time.frameTw ∧
        t.cal.extensions = 0 ∧ t.cal.written = false ∧
        t = { s with cal := t.cal, dies := t.dies, chans := t.chans, aux := t.aux, health := s.settledHealth t,
                     store := s.settledStore t })

/-- A start-up self-calibration ends (R70, R77, R79, R81, R82, R85). Its step 6 computes the pairs of the calibrated dies'
channels, writes the record, and sets k of the switch factor to 0. At the end tick, with no die that cannot serve its
channels, the module is READY; each selected die reads PASS, or PASS with slices retired, and the others keep their
result. The command names its calibration by C0 and end tick, the model's choice (notes/assumptions/14.md): another one's end
changes nothing. -/
def Obligations.CalibrationEnds : Prop :=
  (∀ s : State, s.cal.state = 2 → s.cal.written = false → s.cal.extensions < s.cal.judged → s.store.faulty.any id = false →
     (calStep6 s).cal = { s.cal with written := true } ∧ (calStep6 s).ref.k = 0 ∧ (calStep6 s).store.writing.isSome = true ∧
     (∀ c, c < s.chans.length → (chanAt (calStep6 s) c).newPairs =
       if s.cal.mask.testBit (c / 32) then some (calPairs c s.cal.pairs (chanAt s c).pairs) else (chanAt s c).newPairs)) ∧
  (∀ s : State, s.power.mode = .calibrate → s.cal.state = 2 → s.cal.restart = none → s.cal.failedOn = 0 →
     (∀ d ∈ s.dies, d.orphan = 0) →
     ∃ t, exec (.calEnd s.cal.c0 s.cal.endTick) s = .next t ∧ t.power = { s.power with mode := .ready } ∧
       t.cal = { s.cal with state := 0, pairs := [], offsets := [] } ∧
       t.dies.map (·.calResult) = s.dies.mapIdx (fun g d =>
         if s.cal.mask.testBit g ∧ g < 4 then (if s.cal.retiredOn.testBit g then 2 else 1) else d.calResult) ∧
       t = { s with power := t.power, cal := t.cal, dies := t.dies, chans := t.chans, groups := t.groups,
                    health := s.settledHealth t, store := s.settledStore t }) ∧
  (∀ (s : State) (c0 endTick : TW), live s = true → c0 ≠ s.cal.c0 ∨ endTick ≠ s.cal.endTick →
     ∃ t, exec (.calEnd c0 endTick) s = .next t ∧ t = { s with health := s.settledHealth t, store := s.settledStore t })

/-- Overload (R46, R47, R51, R52): samples that begin a new episode count once, and the span taints from the first to 17
samples after the last; samples within an episode count nothing and lengthen its span; the end of the span lowers the level
alone. A neighbour's span ends 9 samples after the last sample. -/
def Obligations.OverloadEpisodes : Prop :=
  ∀ (s : State) (c : Fin 128) (n : Nat) (side : OvrSide), live s = true → c.val < s.chans.length → 0 < n →
    (∃ t, exec (.overloadExcursion c ⟨n, side⟩) s = .next t ∧ (chanAt t c.val).ovrLevel = true ∧
      (chanAt t c.val).ovrRuns.head? = some (edgeNow s, edgeNow s + n - 1, side) ∧
      ((chanAt s c.val).ovrEdge = 0 ∨ (chanAt s c.val).ovrEdge + 18 < edgeNow s →
        (chanAt t c.val).ovrCount = satInc (chanAt s c.val).ovrCount ∧ (chanAt t c.val).ovrFirst = edgeNow s ∧
        (chanAt t c.val).ovrEdge = edgeNow s + n - 1) ∧
      (¬((chanAt s c.val).ovrEdge = 0 ∨ (chanAt s c.val).ovrEdge + 18 < edgeNow s) →
        (chanAt t c.val).ovrCount = (chanAt s c.val).ovrCount ∧ (chanAt t c.val).ovrFirst = (chanAt s c.val).ovrFirst ∧
        (chanAt t c.val).ovrEdge = max (edgeNow s + n - 1) (chanAt s c.val).ovrEdge) ∧
      (chanAt t c.val).taint =
        (addTaint (chanAt t c.val).ovrFirst ((chanAt t c.val).ovrEdge + 17) (chanAt s c.val)).taint ∧
      (∀ j, j ≠ c.val → j < s.chans.length →
        (cfgBool s 0x2F43 (c.val / 32) = false ∨ j / 32 ≠ c.val / 32 → chanAt t j = chanAt s j) ∧
        (cfgBool s 0x2F43 (c.val / 32) = true → j / 32 = c.val / 32 →
          chanAt t j = addTaint (chanAt t c.val).ovrFirst ((chanAt t c.val).ovrEdge + 9) (chanAt s j))) ∧
      t = { s with chans := t.chans, health := s.settledHealth t, store := s.settledStore t }) ∧
    (∃ t, exec (.overloadSpanClose c) s = .next t ∧ t.chans = updAt (fun x => { x with ovrLevel := false }) c.val s.chans ∧
      t = { s with chans := t.chans, health := s.settledHealth t, store := s.settledStore t })

/-- The open-wire check (R55, R57, Table 2.5): a due boundary begins the next phase, and where its pull differs the included
channels of the group take it; at the end of the return phase, with the conversions since the last feed taken, each included
channel of the group has its verdict and is no longer under check, and the other channels keep theirs. -/
def Obligations.OpenWireChecks : Prop :=
  ∀ (s : State) (g : Fin 4), live s = true → g.val < s.groups.length → (groupAt s g.val).owc.state = 2 →
    (groupAt s g.val).owc.due = true →
    ((groupAt s g.val).owc.phase < 5 →
      (let o := (groupAt s g.val).owc
       let o' := { o with phase := o.phase + 1, due := false, marks := o.marks ++ [edgeNow s]
                          pull := if o.phase = 2 ∨ o.phase = 3 then 2 else if o.phase = 4 then 0 else 1 }
       ∃ t, exec (.owcPhaseBoundary g) s = .next t ∧ (groupAt t g.val).owc = o' ∧
         (∀ c, c / 32 ≠ g.val ∨ (chanAt s c).owcIn = false ∨ o'.pull = o.pull → chanAt t c = chanAt s c) ∧
         (∀ c, c < s.chans.length → c / 32 = g.val → (chanAt s c).owcIn = true → o'.pull ≠ o.pull →
           (chanAt t c).pullLog = logPush (owcPull o.cur false)
             (if o'.pull = 0 then cfgGet s.conf.cfg (chanKey 3 c) else owcPull o.cur (decide (o'.pull = 2))) (edgeNow s)
             (chanAt s c).pullLog) ∧
         t = { s with groups := t.groups, chans := t.chans, health := s.settledHealth t, store := s.settledStore t })) ∧
    (∀ feed : List Feed, (groupAt s g.val).owc.phase = 5 →
      (let fed := forList feed feedChan s
       ∃ t, exec (.owcComplete g feed) s = .next t ∧ (groupAt t g.val).owc.state = 0 ∧
         (∀ c, c < s.chans.length → c / 32 = g.val → (chanAt s c).owcIn = true →
           (chanAt t c).owcIn = false ∧
           (chanAt t c).owResult = (owcVerdict s (groupAt s g.val).owc.cur c (chanAt fed c)).owResult ∧
           (chanAt t c).owRes = (owcVerdict s (groupAt s g.val).owc.cur c (chanAt fed c)).owRes) ∧
         (∀ c, c / 32 ≠ g.val ∨ (chanAt s c).owcIn = false → chanAt t c = chanAt fed c) ∧
         (owcShared s g.val = false → t.act.log.head? = some (owcRecord s (groupAt s g.val).owc 5)) ∧
         t = { s with chans := t.chans, groups := t.groups, act := t.act, buf := t.buf, health := s.settledHealth t,
                      store := s.settledStore t }))

/-- The first half of a visit (R95, R96, R98, R99): the forward fit of the blocks that no taint span touches matches the spare
to its channel, or marks a failure, or, with too few valid blocks, lets the visit be skipped; at the handover the spare serves
the channel from a swap sample and the home slice goes to the ladder, or the spare in its place after a failed fit; a skipped
visit ends; and in each case the reserve spare begins its own calibration. -/
def Obligations.VisitForward : Prop :=
  ∀ (s : State) (g : Fin 4) (v : Visit), live s = true → g.val < s.dies.length → (dieAt s g.val).visit = some v → v.phase = 1 →
    (∀ f : FitObs, v.fwdDone = false → 2 * (fitSums s (chanOf g.val v.chan) (v.v0 + 8192) 3056 f).n < 3056 →
      ∃ t, exec (.rotForwardFit g f) s = .next t ∧
        (dieAt t g.val).visit = some { v with fwdDone := true, fwdSkip := true } ∧
        t = { s with dies := t.dies, health := s.settledHealth t, store := s.settledStore t }) ∧
    (∀ f : FitObs, v.fwdDone = false → 3056 ≤ 2 * (fitSums s (chanOf g.val v.chan) (v.v0 + 8192) 3056 f).n →
      ∃ t, exec (.rotForwardFit g f) s = .next t ∧
        (let q := fitSums s (chanOf g.val v.chan) (v.v0 + 8192) 3056 f
         let b := ((dieAt s g.val).slice v.home).trimB
         let a := fitOffset q b
         if fitBad q a b then
           (dieAt t g.val).visit = some { v with fwdDone := true, swapped := true } ∧
           (dieAt t g.val).fitFail = satInc (dieAt s g.val).fitFail
         else
           (dieAt t g.val).visit = some { v with fwdDone := true, fitA := a, fitB := b } ∧
           (dieAt t g.val).slices = updAt (fun k => { k with trimA := a, trimB := b }) v.spare (dieAt s g.val).slices) ∧
        t = { s with dies := t.dies, health := s.settledHealth t, store := s.settledStore t }) ∧
    (v.fwdDone = true → v.fwdSkip = true →
      ∃ t, exec (.rotHandover g) s = .next t ∧ (dieAt t g.val).visit = none ∧
        (dieAt t g.val).skipped = satInc (dieAt s g.val).skipped ∧
        (∀ r, reserveSpare (dieAt s g.val) = some r → ((dieAt t g.val).slice r).activity = 3) ∧
        t = { s with dies := t.dies, health := s.settledHealth t, store := s.settledStore t }) ∧
    (v.fwdDone = true → v.fwdSkip = false → v.swapped = false →
      ∃ t, exec (.rotHandover g) s = .next t ∧ (dieAt t g.val).visit = some { v with phase := 2 } ∧
        (dieAt t g.val).rotPhase = 2 ∧
        (v.home ≠ v.spare → v.home < (dieAt s g.val).slices.length → v.spare < (dieAt s g.val).slices.length →
          ((dieAt t g.val).slice v.spare).activity = 2 ∧ ((dieAt t g.val).slice v.home).activity = 3) ∧
        (∀ r, reserveSpare (dieAt s g.val) = some r → r ≠ v.spare → ((dieAt t g.val).slice r).activity = 3) ∧
        (chanOf g.val v.chan < s.chans.length → (chanAt t (chanOf g.val v.chan)).swaps =
          ((v.v0 + 204800) :: (chanAt s (chanOf g.val v.chan)).swaps).take 64) ∧
        t = { s with dies := t.dies, chans := t.chans, health := s.settledHealth t, store := s.settledStore t }) ∧
    (v.fwdDone = true → v.fwdSkip = false → v.swapped = true →
      ∃ t, exec (.rotHandover g) s = .next t ∧ (dieAt t g.val).visit = some { v with phase := 2 } ∧
        (dieAt t g.val).rotPhase = 2 ∧
        (v.spare < (dieAt s g.val).slices.length → ((dieAt t g.val).slice v.spare).activity = 3) ∧
        (∀ r, reserveSpare (dieAt s g.val) = some r → ((dieAt t g.val).slice r).activity = 3) ∧
        t = { s with dies := t.dies, health := s.settledHealth t, store := s.settledStore t })

/-- The second half of a visit (R95, R96, R98 to R100): the ladder calibration of the released slice is taken over, the slice
shadows its channel with the new weights, the reverse fit, or the prediction in its place, loads its trim, at the hand-back it
serves the channel again, or, after a failed fit, leaves it to the spare and becomes a held spare; and the pair update moves
the live pairs towards their targets by its limits. -/
def Obligations.VisitReverse : Prop :=
  ∀ (s : State) (g : Fin 4), live s = true → g.val < s.dies.length →
    (∀ (v : Visit) (k : Fin 34) (o : LadderObs), (dieAt s g.val).visit = some v → v.phase = 2 → v.ladderDone = false →
      v.swapped = false → v.refHit = false → k.val = v.home → ladderBad s g.val k.val o = false →
      ∃ t, exec (.rotLadderCalEnd g k o) s = .next t ∧
        (dieAt t g.val).visit = some { v with ladderDone := true, newWeights := o.weights.take 19, oNew := o.oNew,
                                              oOld := o.oOld, dNew := o.dNew, dOld := o.dOld } ∧
        (dieAt t g.val).slices = updAt (fun x => { x with oX := o.oNew, oXAt := some s.time.pt }) k.val (dieAt s g.val).slices ∧
        t = { s with dies := t.dies, health := s.settledHealth t, store := s.settledStore t }) ∧
    (∀ v : Visit, (dieAt s g.val).visit = some v → v.phase = 2 → v.ladderDone = true → v.swapped = false → v.refHit = false →
      ∃ t, exec (.rotReconnect g) s = .next t ∧ (dieAt t g.val).visit = some { v with phase := 3, reconnected := true } ∧
        (dieAt t g.val).rotPhase = 3 ∧
        (dieAt t g.val).slices = updAt (fun k => { k with weights := v.newWeights, activity := 1 }) v.home (dieAt s g.val).slices ∧
        t = { s with dies := t.dies, health := s.settledHealth t, store := s.settledStore t }) ∧
    (∀ (v : Visit) (f : FitObs), (dieAt s g.val).visit = some v → v.phase = 3 → v.revDone = false →
      ∃ t, exec (.rotReverseFit g f) s = .next t ∧
        (let q := fitSums s (chanOf g.val v.chan) (v.v0 + 827392) 3008 f
         let b := scaledGain v.dOld v.dNew ((dieAt s g.val).slice v.spare).trimB
         let loads := fun (kind : Nat) (a b : Int) =>
           (dieAt t g.val).visit = some { v with revDone := true, revKind := kind, fitA := a, fitB := b } ∧
           (dieAt t g.val).slices = updAt (fun k => { k with trimA := a, trimB := b }) v.home (dieAt s g.val).slices
         if 2 * q.n < 3008 then loads 1 (v.oldA + (v.oNew - v.oOld)) (scaledGain v.dOld v.dNew v.oldB)
         else if fitBad q (fitOffset q b) b then
           (dieAt t g.val).visit = some { v with revDone := true, revKind := 2 } ∧
           (dieAt t g.val).fitFail = satInc (dieAt s g.val).fitFail
         else loads 0 (fitOffset q b) b) ∧
        t = { s with dies := t.dies, health := s.settledHealth t, store := s.settledStore t }) ∧
    (∀ v : Visit, (dieAt s g.val).visit = some v → v.phase = 3 → v.revDone = true → v.revKind ≠ 2 →
      ∃ t, exec (.rotHandBack g) s = .next t ∧ (dieAt t g.val).visit = none ∧
        (dieAt t g.val).slices = updAt Slice.idle v.spare
          (updAt (fun k => { k with trimA := v.fitA, trimB := v.fitB, activity := 2 }) v.home (dieAt s g.val).slices) ∧
        (v.revKind = 0 → v.refHit = false → (dieAt t g.val).pairDue = some ⟨v.chan, v.home, v.fitA, v.fitB⟩) ∧
        t = { s with dies := t.dies, chans := t.chans, health := s.settledHealth t, store := s.settledStore t }) ∧
    (∀ v : Visit, (dieAt s g.val).visit = some v → v.phase = 3 → v.revDone = true → v.revKind = 2 →
      v.home ≠ v.spare → v.home < (dieAt s g.val).slices.length → v.spare < (dieAt s g.val).slices.length →
      ∃ t, exec (.rotHandBack g) s = .next t ∧ (dieAt t g.val).visit = none ∧
        ((dieAt t g.val).slice v.spare).role = .working ∧ ((dieAt t g.val).slice v.spare).home = v.chan ∧
        ((dieAt t g.val).slice v.home).role = .spare ∧ ((dieAt t g.val).slice v.home).held = true ∧
        t = { s with dies := t.dies, chans := t.chans, health := s.settledHealth t, store := t.store }) ∧
    (∀ d : PairDue, (dieAt s g.val).pairDue = some d → (sliceAt s g.val d.slice).role = .working →
      (sliceAt s g.val d.slice).home = d.chan → chanOf g.val d.chan < s.chans.length →
      (let ch := chanAt s (chanOf g.val d.chan)
       let targets := ch.base.map (pairTarget (d.a - ((sliceAt s g.val d.slice).oX - ch.oBase)) d.b)
       targets.all pairInRange = true →
       ∃ t, exec (.rotPairUpdate g) s = .next t ∧ (dieAt t g.val).pairDue = none ∧
         (chanAt t (chanOf g.val d.chan)).pairs = List.zipWith pairMove ch.pairs targets ∧
         (∀ j, j ≠ chanOf g.val d.chan → chanAt t j = chanAt s j) ∧
         t = { s with dies := t.dies, chans := t.chans, health := s.settledHealth t, store := s.settledStore t }))

/-- A slice that fails is retired for good (R101, R105): one with a stuck output on a die whose buffer is enabled, and one whose
array saturates while it serves or shadows a channel whose comparator latch reads clear, with no failure of a lower-numbered
slice at the same sample before it. A configuration image is asked for (R354). -/
def Obligations.FailedSlicesRetire : Prop :=
  ∀ (s : State) (g : Fin 4) (k : Fin 34), live s = true → g.val < s.dies.length → k.val < (dieAt s g.val).slices.length →
    (dieAt s g.val).refEnable = true → ((dieAt s g.val).slice k.val).role ≠ .retired →
    (∀ v, (dieAt s g.val).visit = some v → v.home ≠ v.spare) → s.store.faulty.any id = false →
    (∀ x ∈ (s.pending.takeWhile isFailure).filterMap (failureOf g.val), k.val ≤ x.1) →
    (∃ t, exec (.stuckOutput g k) s = .next t ∧ ((dieAt t g.val).slice k.val).role = .retired ∧
      t.store.writing.isSome = true ∧ t.pending = s.pending ∧ t.power = s.power ∧ t.time = s.time ∧ t.conf = s.conf) ∧
    (((dieAt s g.val).slice k.val).activity = 1 ∨ ((dieAt s g.val).slice k.val).activity = 2 →
      latched s g.val k.val (edgeNow s) = false →
      ∃ t, exec (.arraySaturation g k) s = .next t ∧ ((dieAt t g.val).slice k.val).role = .retired ∧
        t.store.writing.isSome = true ∧ t.pending = s.pending ∧ t.power = s.power ∧ t.time = s.time ∧ t.conf = s.conf)

/-- R127: a write to FIR_COEF takes effect at once; a value outside its range, or a locked bank, refuses it; an accepted write
clears the bank's seal, length tag and check value; and the coefficients of any bank can be read at any time. -/
def Obligations.CoefficientWrites : Prop :=
  ∀ (s : State) (g : Fin 4) (b : Bool) (i : Fin 32),
    (∀ (r : Role) (v : BitVec 32), live s = true → roleOk r .operator = true →
      (v.toInt < -(2 ^ 23) ∨ 2 ^ 23 - 1 < v.toInt →
        ∃ t, exec (.firCoefWrite r g b i v) s = .next t ∧ s.AnsweredOnly t 0x0201) ∧
      (-(2 ^ 23) ≤ v.toInt → v.toInt ≤ 2 ^ 23 - 1 →
        (bankLocked s g.val b.toNat = true → ∃ t, exec (.firCoefWrite r g b i v) s = .next t ∧ s.AnsweredOnly t 0x0301) ∧
        (bankLocked s g.val b.toNat = false →
          ∃ t, exec (.firCoefWrite r g b i v) s = .next t ∧ t.out = .answer 0 [] :: s.out ∧
            t.groups = updAt (fun x => { x with
              banks := updAt (fun k => { k with coefs := k.coefs.set i.val v.toInt, sealed := false, len := 0, crc := 0 })
                b.toNat x.banks }) g.val s.groups ∧
            t = { s with groups := t.groups, out := t.out, health := s.settledHealth t, store := t.store }))) ∧
    (∃ row, lookup (0x3500 + 0x10 * g.val + b.toNat) i.val = some row ∧
      readEntry s row (0x3500 + 0x10 * g.val + b.toNat) i.val =
        octetsOf 4 (wireInt 32 (((groupAt s g.val).bank b.toNat).coefs.getD i.val 0)))

/-- R126: when a bank is locked, what FIR_BANK_STATE reads of it, and that a locked bank is neither written, sealed nor
loaded. -/
def Obligations.LockedBanks : Prop :=
  ∀ (s : State) (g : Fin 4) (b : Bool),
    (bankLocked s g.val b.toNat = true ↔
      (groupAt s g.val).active = b.toNat ∨
      (∃ x, (groupAt s g.val).fade = some x ∧ x.first.isSome = true ∧
        (x.target = b.toNat ∨ (groupAt s g.val).active = b.toNat)) ∨
      (∃ x, (groupAt s g.val).fade = some x ∧ x.first = none ∧ x.target = b.toNat) ∨
      (∃ e ∈ s.act.sched, ∃ a, e.op = .xfade a ∧ fadeGroup a = g.val ∧ fadeTarget a = b.toNat)) ∧
    (∃ row, lookup 0x3404 (2 * g.val + b.toNat) = some row ∧
      readEntry s row 0x3404 (2 * g.val + b.toNat) = octetsOf 2 (bankState s g.val b.toNat)) ∧
    (((groupAt s g.val).bank b.toNat).len < 128 →
      (bankLocked s g.val b.toNat =
        ((bankState s g.val b.toNat).testBit 14 || (bankState s g.val b.toNat).testBit 13
          || (bankState s g.val b.toNat).testBit 12))) ∧
    (∀ r, live s = true → roleOk r .operator = true → bankLocked s g.val b.toNat = true →
      (∀ (i : Fin 32) (v : BitVec 32), -(2 ^ 23) ≤ v.toInt → v.toInt ≤ 2 ^ 23 - 1 →
        ∃ t, exec (.firCoefWrite r g b i v) s = .next t ∧ s.AnsweredOnly t 0x0301) ∧
      (∀ v : BitVec 16, bits v.toNat 15 4 = 0 → bits v.toNat 2 1 = g.val → bits v.toNat 0 0 = b.toNat →
        ∃ t, exec (.firSeal r v) s = .next t ∧ s.AnsweredOnly t 0x0301) ∧
      (∀ v : BitVec 16, bits v.toNat 15 6 = 0 → bits v.toNat 5 4 ≠ 3 → bits v.toNat 2 1 = g.val → bits v.toNat 0 0 = b.toNat →
        ∃ t, exec (.firLoadFactory r v) s = .next t ∧ s.AnsweredOnly t 0x0301))

/-- Sealing and loading of an unlocked bank (R128, R129): a bank whose coefficients keep the unit-gain and length rule is
sealed with its length tag and check value, another is refused and stays as it is; a factory design is loaded sealed. -/
def Obligations.BanksSealAndLoad : Prop :=
  ∀ (s : State) (r : Role) (v : BitVec 16), live s = true → roleOk r .operator = true →
    bankLocked s (bits v.toNat 2 1) (bits v.toNat 0 0) = false →
    (bits v.toNat 15 4 = 0 →
      (sealOk ((groupAt s (bits v.toNat 2 1)).bank (bits v.toNat 0 0)).coefs (lenOf v.toNat) = true →
        ∃ t, exec (.firSeal r v) s = .next t ∧ t.out = .answer 0 [] :: s.out ∧
          t.groups = updAt (fun x => { x with banks := updAt (sealBank (lenOf v.toNat)) (bits v.toNat 0 0) x.banks })
            (bits v.toNat 2 1) s.groups ∧
          t = { s with groups := t.groups, out := t.out, health := s.settledHealth t, store := t.store }) ∧
      (sealOk ((groupAt s (bits v.toNat 2 1)).bank (bits v.toNat 0 0)).coefs (lenOf v.toNat) = false →
        ∃ t, exec (.firSeal r v) s = .next t ∧ s.AnsweredOnly t 0x0205)) ∧
    (bits v.toNat 15 6 = 0 → bits v.toNat 5 4 ≠ 3 →
      ∃ t, exec (.firLoadFactory r v) s = .next t ∧ t.out = .answer 0 [] :: s.out ∧
        t.groups = updAt (fun x => { x with
          banks := updAt (fun k =>
            sealBank (lenOf v.toNat) { k with coefs := factoryFir (bits v.toNat 5 4 + 3) (v.toNat.testBit 3) })
            (bits v.toNat 0 0) x.banks }) (bits v.toNat 2 1) s.groups ∧
        t = { s with groups := t.groups, out := t.out, health := s.settledHealth t, store := t.store })

/-- A cross-fade (R131 to R134, R253, R354): its first output fixes where it begins and marks its n outputs; its end makes the
target the active bank, leaves a record with outcome 5, and asks for a configuration image. -/
def Obligations.FadesRun : Prop :=
  ∀ (s : State) (g : Fin 4) (x : Fade), live s = true → g.val < s.groups.length → (groupAt s g.val).fade = some x →
    (x.first = none →
      (let j := ceilDiv x.edge (2 * cicR s.conf.cfg g.val)
       ∃ t, exec (.fadeFirstOutput g) s = .next t ∧ (groupAt t g.val).fade = some { x with first := some j } ∧
         (groupAt t g.val).cxf.head? = some (j, j + x.n - 1) ∧ (groupAt t g.val).active = (groupAt s g.val).active ∧
         t = { s with groups := t.groups, health := s.settledHealth t, store := s.settledStore t })) ∧
    (x.first.isSome = true → s.store.faulty.any id = false →
      ∃ t, exec (.fadeComplete g) s = .next t ∧ (groupAt t g.val).fade = none ∧ (groupAt t g.val).active = x.target ∧
        t.act.log.head? = some (fadeRecord s x 5) ∧ t.store.writing.isSome = true ∧
        t = { s with groups := t.groups, act := t.act, buf := t.buf, health := s.settledHealth t, store := t.store })

/-- RESAMPLED_OUTPUT_FORMED and INTERIM_CLOSE (R68, R112, R148, R270, R271, R308). Each conversion given moves its channel's
edge count by one while its die converts, takes no place once it has ceased to, and touches no other channel. A complete window
of a running stream gives the output of its next grid index to the averager, and what that delivers, with words of 0 where a
channel is orphaned, goes on the open block: without averaging the rounded words of this output, each the nearest to its value
and clamped to the range, with its flag; with k the mean over the interval and every flag of it (R48, R154). And the part in
progress of a frame longer than TF is closed, each of its segments waiting in the queue of class 4, or moved to the reserve. -/
def Obligations.OutputsAndParts : Prop :=
  (∀ (s : State) (st : Fin 16), live s = true →
     (∀ f : Feed, (streamAt s st.val).running = false → f.ch.val < s.chans.length →
       ∃ t, exec (.resampledOutputFormed st [f]) s = .next t ∧
         ((∀ e, (chanAt s f.ch.val).path.e ≤ e → logAt true (dieAt s (f.ch.val / 32)).convLog e = true) →
           (chanAt t f.ch.val).path.e = (chanAt s f.ch.val).path.e + f.samples.length) ∧
         (nextConv (dieAt s (f.ch.val / 32)).convLog (chanAt s f.ch.val).path.e = none → t.chans = s.chans) ∧
         (∀ j, j ≠ f.ch.val → chanAt t j = chanAt s j) ∧
         t = { s with chans := t.chans, health := s.settledHealth t, store := s.settledStore t }) ∧
     (∀ o : Resampled, (streamAt s st.val).running = true → st.val < s.streams.length → cfgAt s 0x3602 st.val = 0 →
       formOutput s st.val = some o →
       ∃ t, exec (.resampledOutputFormed st []) s = .next t ∧ (streamAt t st.val).gridIndex = o.n ∧
         (∃ p l q, (streamAt t st.val).parts = p :: l ∧ p.outs.head? = some q ∧ q.n = o.n) ∧
         (∀ j, j ≠ st.val → streamAt t j = streamAt s j) ∧
         t = { s with streams := t.streams, units := t.units, outs := t.outs, link := t.link, ev := t.ev, fv := t.fv,
                      health := s.settledHealth t, store := s.settledStore t })) ∧
  (∀ (s : State) (st : Fin 16) (o : Resampled), live s = true → (streamAt s st.val).running = true → st.val < s.streams.length →
     formOutput s st.val = some o →
     (let r := average (cfgAt s 0x3602 st.val) o (streamAt s st.val).avg
      ∃ t, exec (.resampledOutputFormed st []) s = .next t ∧ (streamAt t st.val).avg = r.1 ∧
        (r.2 = none → (streamAt t st.val).parts = (streamAt s st.val).parts) ∧
        (∀ q, r.2 = some q → ∃ p l, (streamAt t st.val).parts = p :: l ∧
          p.outs.head? = some (orphanWords s st.val (maskChans (streamMask s.conf.cfg st.val)) q)))) ∧
  (∀ (k : Nat) (o : Resampled) (a : Averager), a.open_ = true →
     (let n := if a.count = 0 then 1 else a.count + 1
      let sums := if a.count = 0 then o.zs else addLists a.sums o.zs
      let flags := if a.count = 0 then o.flags else List.zipWith (· ||| ·) a.flags o.flags
      ((o.n + 1) % 2 ^ k ≠ 0 →
        average k o a = ({ a with sums := sums, flags := flags, count := n, ident := o.ident }, none)) ∧
      ((o.n + 1) % 2 ^ k = 0 →
        ∃ q, (average k o a).2 = some q ∧ (average k o a).1.count = 0 ∧ (average k o a).1.open_ = true ∧ q.n = o.n ∧
          q.vals = sums.map (fun z => (finalWord z (256 * n)).1) ∧
          q.flags = List.zipWith (fun f z => if (finalWord z (256 * n)).2 then f ||| 1 else f) flags sums))) ∧
  (∀ (z : Int) (d : Nat), 0 < d →
     -(2 ^ 31 - 1) ≤ (finalWord z d).1 ∧ (finalWord z d).1 ≤ 2 ^ 31 - 1 ∧
     ((finalWord z d).2 = false → 2 * (z - (finalWord z d).1 * d).natAbs ≤ d) ∧
     ((finalWord z d).2 = true → (finalWord z d).1 = 2 ^ 31 - 1 ∨ (finalWord z d).1 = -(2 ^ 31 - 1))) ∧
  (∀ (s : State) (st : Fin 16) (p : Part) (older : List Part), live s = true → (streamAt s st.val).running = true →
     tf s < frameLen s.time.frameTw s.time.nextTick → (streamAt s st.val).parts = p :: older → p.sent = none → p.outs ≠ [] →
     0 < s.buf.asm.length → 0 < s.buf.res.length →
     ∃ t, exec (.interimClose st) s = .next t ∧
       t.streams = updAt (fun x => { x with
         parts := { p with sent := some (partSent s s.conf.cfg (ensign s) st.val older.length (streamAt s st.val).firstDue
                                       false true p) } :: older }) st.val s.streams ∧
       (∀ f ∈ partSegments s s.conf.cfg (ensign s) st.val older.length ((older.map (partSegCount s.conf.cfg st.val)).sum)
           (streamAt s st.val).firstDue false true false p,
         { f with formed := s.time.cyc }.copied ∈ t.buf.asm.getD 0 [] ∨
           { { f with formed := s.time.cyc }.copied with moved := true } ∈ t.buf.res.getD 0 []) ∧
       t = { s with streams := t.streams, buf := t.buf, health := s.settledHealth t, store := s.settledStore t })

/-- Auxiliary conversions (R162, R171, R173 to R175): the hold instant, an edge of the system reference, begins the conversion
of the item that samples, with the time word, the epoch and the frame of that edge and the corrections in force at it, and an
injected or a health item leaves the queue with it (notes/assumptions/53.md); an edge at or after the next tick waits for that
tick; its end takes the corrected code, cut to 16 bits, for the source, with the hold instant, and, where the result goes to the
ring, a record of it; a health result is kept for the next background slice. -/
def Obligations.AuxiliaryConversions : Prop :=
  ∀ s : State, live s = true →
    (edgeLate s = true →
      ∃ t, exec .auxHoldInstant s = .next t ∧ t.time = { s.time with late := s.time.late ++ [.hold] } ∧
        t = { s with time := t.time, health := s.settledHealth t, store := s.settledStore t }) ∧
    (∀ a, edgeLate s = false → s.aux.sampling = some a → s.aux.conv = none →
      ∃ t, exec .auxHoldInstant s = .next t ∧
        (let at_ := edgeTw s
         let g := frameOf s at_
         t.aux.conv = some ⟨a, stampIn s g at_, g.epoch, g.tw, g.suspect, s.aux.calOffset, s.aux.calGain⟩) ∧
        t.aux.lastHold = some (sysEdge s.time.pt) ∧
        t.aux.queue = (if a.kind = 1 ∨ a.kind = 2 then s.aux.queue.drop 1 else s.aux.queue) ∧
        t = { s with aux := t.aux, health := s.settledHealth t, store := s.settledStore t }) ∧
    (∀ (c : AuxConv) (raw : Int), s.aux.conv = some c →
      (let code := auxCorrect c raw
       let clip := decide (code = -32768) || decide (code = 32767)
       ∃ t, exec (.auxConversionDone raw) s = .next t ∧ t.aux.conv = none ∧ -32768 ≤ code ∧ code ≤ 32767 ∧
         t.aux.codes = s.aux.codes.set c.item.source code ∧ t.aux.times = s.aux.times.set c.item.source c.hold ∧
         (c.item.kind = 3 ∨ (c.item.kind = 2 ∧ cfgBool s 0x3820 5 = false) → t.aux.ring = s.aux.ring) ∧
         (c.item.kind < 2 ∨ (c.item.kind = 2 ∧ cfgBool s 0x3820 5 = true) → s.aux.ring.recs.length + 1 < auxRingSize →
           ∃ r, t.aux.ring.recs.getLast? = some r ∧ r / 2 ^ 32 = auxRecord c code clip / 2 ^ 32) ∧
         (c.item.kind = 2 → t.aux.arrived = s.aux.arrived ++ [(c.item.source, code, clip)]) ∧
         t = { s with aux := t.aux, health := s.settledHealth t, store := s.settledStore t }))

/-- Calibration of the auxiliary converter and its window comparators (R171, R172, R174). A request waits for what is queued
before it; the calibration begins once the running conversion and those have finished; its end takes the correction and its
instant. An event of an armed comparator in use is counted with the edge of the system reference at which it is recognised,
and disarms it, and one whose edge lies at or after the next tick waits for that tick; its rearm arms it. -/
def Obligations.AuxiliaryCalibrationAndWindows : Prop :=
  (∀ s : State,
     (∀ r, roleOk r .operator = true → auxModes.contains s.power.mode = true → s.aux.calState = 0 →
       ∃ t, exec (.auxCalStart r 1) s = .next t ∧ t.out = .answer 0 [] :: s.out ∧ t.aux.calState = 1 ∧
         t.aux.calBefore = s.aux.queue.length ∧ t.aux.queue = s.aux.queue ∧
         t = { s with aux := t.aux, out := t.out, health := s.settledHealth t, store := s.settledStore t }) ∧
     (live s = true → s.aux.calState = 1 → s.aux.conv = none → s.aux.calBefore = 0 →
       (auxSpan s = true → s.aux.calOwn = true) →
       ∃ t, exec .auxCalBegin s = .next t ∧ t.aux = { s.aux with calState := 2, sampling := none } ∧
         t = { s with aux := t.aux, health := s.settledHealth t, store := s.settledStore t }) ∧
     (∀ offset gain, live s = true → s.aux.calState = 2 →
       ∃ t, exec (.auxCalEnd offset gain) s = .next t ∧ t.aux.calState = 0 ∧ t.aux.calLast = s.time.tw ∧
         t.aux.calOffset = offset ∧ t.aux.calGain = gain ∧
         t = { s with aux := t.aux, health := s.settledHealth t, store := s.settledStore t })) ∧
  (∀ (s : State) (w : Fin 4) (q : AuxWin), live s = true → s.aux.wins[w.val]? = some q →
     (edgeLate s = true →
       ∃ t, exec (.auxWindowEvent w) s = .next t ∧ t.time = { s.time with late := s.time.late ++ [.window w.val] } ∧
         t = { s with time := t.time, health := s.settledHealth t, store := s.settledStore t }) ∧
     (edgeLate s = false → cfgAt s 0x380B w.val ≠ 0 → q.armed = true →
       ∃ t, exec (.auxWindowEvent w) s = .next t ∧
         t.aux.wins = s.aux.wins.set w.val ⟨stampIn s (frameOf s (edgeTw s)) (edgeTw s), satInc q.count, false⟩ ∧
         t = { s with aux := t.aux, units := t.units, outs := t.outs, link := t.link, ev := t.ev, fv := t.fv,
                      health := s.settledHealth t, store := s.settledStore t }) ∧
     (∃ t, exec (.auxWindowRearm w) s = .next t ∧ t.aux.wins = s.aux.wins.set w.val { q with armed := true } ∧
       t = { s with aux := t.aux, health := s.settledHealth t, store := s.settledStore t }))

/-- Requests to the auxiliary path (R166, R167, R170, R174). A launch starts an idle sequence from its entries at the first edge
of the system reference after it; it is kept with its entries while the converter calibrates, or while a calibration is
requested (notes/assumptions/96.md), and missed while a sequence runs or a launch is kept. An injected conversion joins the
queue of four, and a full queue refuses it. Another source of launches, an empty sequence, WARM and a value out of range refuse
them. -/
def Obligations.AuxiliaryRequests : Prop :=
  ∀ (s : State) (r : Role), live s = true → roleOk r .operator = true →
    (auxModes.contains s.power.mode = true →
      (cfgAt s 0x3802 0 = 1 → cfgAt s 0x3800 0 ≠ 0 →
        ∃ t, exec (.auxLaunch r 1) s = .next t ∧ t.out = .answer 0 [] :: s.out ∧
          (seqActive s = true ∨ s.aux.latched.isSome = true → t.aux = { s.aux with missed := satInc s.aux.missed }) ∧
          (seqActive s = false → s.aux.latched = none → auxCalBusy s = true →
            t.aux = { s.aux with latched := some (seqItems s) }) ∧
          (seqActive s = false → s.aux.latched = none → auxCalBusy s = false →
            t.aux.seq = seqItems s ∧ t.aux.lastLaunch = edgeAfter s ∧ t.aux.latched = none ∧ t.aux.queue = s.aux.queue ∧
            t.aux.conv = s.aux.conv) ∧
          t = { s with aux := t.aux, out := t.out, health := s.settledHealth t, store := s.settledStore t }) ∧
      (cfgAt s 0x3802 0 ≠ 1 ∨ cfgAt s 0x3800 0 = 0 → ∃ t, exec (.auxLaunch r 1) s = .next t ∧ s.AnsweredOnly t 0x0301) ∧
      (∀ v : BitVec 32, bits v.toNat 31 16 = 0 → bits v.toNat 11 8 ≤ 8 →
        (s.aux.queue.length < 4 →
          ∃ t, exec (.auxInject r v) s = .next t ∧ t.out = .answer 0 [] :: s.out ∧
            t.aux.queue = s.aux.queue ++
              [⟨1, bits v.toNat 5 0, bits v.toNat 7 6, bits v.toNat 11 8, bits v.toNat 15 12⟩] ∧
            t = { s with aux := t.aux, out := t.out, health := s.settledHealth t, store := s.settledStore t }) ∧
        (4 ≤ s.aux.queue.length → ∃ t, exec (.auxInject r v) s = .next t ∧ s.AnsweredOnly t 0x0301))) ∧
    (s.power.mode = .warm →
      (∃ t, exec (.auxLaunch r 1) s = .next t ∧ s.AnsweredOnly t 0x0301) ∧
      (∀ v : BitVec 32, bits v.toNat 31 16 = 0 → bits v.toNat 11 8 ≤ 8 →
        ∃ t, exec (.auxInject r v) s = .next t ∧ s.AnsweredOnly t 0x0301)) ∧
    (∀ v : BitVec 8, v ≠ 1 → ∃ t, exec (.auxLaunch r v) s = .next t ∧ s.AnsweredOnly t 0x0201) ∧
    (∀ v : BitVec 32, bits v.toNat 31 16 ≠ 0 ∨ 8 < bits v.toNat 11 8 →
      ∃ t, exec (.auxInject r v) s = .next t ∧ s.AnsweredOnly t 0x0201)

/-- Trigger units (R188, R192, R193, R195, R202): an armed unit of kind 5 moves to its next instant and decides the present
one, as an accepted trigger or a missed event; the end of a time hold-off ends it; a store that waits resumes with an empty
fill once its write position is free. -/
def Obligations.TriggerUnitsDecide : Prop :=
  ∀ (s : State) (u : Fin 8), live s = true →
    (u.val < s.units.length → (unitAt s u.val).armed = true → cfgAt s 0x3C02 u.val = 5 →
      (cfgAt s 0x3C0A u.val ≠ 0 ∨ (unitAt s u.val).nextM = 0) →
      ∃ t, exec (.trgTimeInstant u) s = .next t ∧ (unitAt t u.val).nextM = (unitAt s u.val).nextM + 1 ∧
        (let s' := onUnit u.val (fun x => { x with nextM := x.nextM + 1 }) s
         let ev : TrgEvent := ⟨unitInstant s u.val (unitAt s u.val).nextM, s.time.epoch, s.shift, none⟩
         (trgTest s' u.val ev = 0 → (unitAt t u.val).count = wrapInc (unitAt s u.val).count ∧
            (unitAt t u.val).missed = 0) ∧
         (trgTest s' u.val ev ≠ 0 → (unitAt t u.val).count = (unitAt s u.val).count ∧
            (unitAt t u.val).missTotal = satInc (unitAt s u.val).missTotal)) ∧
        t = { s with units := t.units, outs := t.outs, link := t.link, ev := t.ev, fv := t.fv, health := s.settledHealth t,
                     store := s.settledStore t }) ∧
    (∃ t, exec (.trgHoldoffExpiry u) s = .next t ∧ t.units = updAt (fun x => { x with holdTime := false }) u.val s.units ∧
      t = { s with units := t.units, health := s.settledHealth t, store := s.settledStore t }) ∧
    ((unitAt s u.val).waiting = true → (unitAt s u.val).blocked (storeRoom s u.val) (sampleSize s u.val) = false →
      u.val < s.units.length →
      ∃ t, exec (.captureStoreResume u) s = .next t ∧ (unitAt t u.val).waiting = false ∧ (unitAt t u.val).filled = 0 ∧
        (unitAt t u.val).store = (unitAt s u.val).store ∧
        t = { s with units := t.units, health := s.settledHealth t, store := s.settledStore t })

/-- The trigger outputs (R203): in READY and RUN a pulse asserts its output, and a pulse within one that stands extends it;
elsewhere no pulse starts; at the end the output returns low, unless a further pulse has begun by then. -/
def Obligations.TriggerPulses : Prop :=
  ∀ (s : State) (o : Fin 2) (q : TrgOut), live s = true → s.outs[o.val]? = some q →
    (∀ p l, s.power.mode = .ready ∨ s.power.mode = .run → q.starts = p :: l →
      ∃ t, exec (.trgoutPulseStart o) s = .next t ∧
        t.outs[o.val]? = some { q with level := true, starts := l, endAt := if q.level then max q.endAt p.2 else p.2 } ∧
        t = { s with outs := t.outs, health := s.settledHealth t, store := s.settledStore t }) ∧
    (s.power.mode ≠ .ready → s.power.mode ≠ .run → exec (.trgoutPulseStart o) s = .next s) ∧
    (q.level = true → (∀ p l, q.starts = p :: l → q.endAt < p.1) →
      ∃ t, exec (.trgoutPulseEnd o) s = .next t ∧ t.outs[o.val]? = some { q with level := false } ∧
        t = { s with outs := t.outs, health := s.settledHealth t, store := s.settledStore t }) ∧
    (∀ p l, q.level = true → q.starts = p :: l → p.1 ≤ q.endAt →
      ∃ t, exec (.trgoutPulseEnd o) s = .next t ∧ t.outs[o.val]? = some { q with starts := l, endAt := max q.endAt p.2 } ∧
        t = { s with outs := t.outs, health := s.settledHealth t, store := s.settledStore t })

/-- Sync and Follow_Up (R210, R218, R222, R230). The transparent clock adds its sum to a Sync that it forwards, or holds the sum
for the Follow_Up of a two-step one. A message of the module's own domain is forwarded all the same, where the other ring port
is active, and used: one that R210 discards is counted and used no further; a two-step Sync of the best master waits for its
Follow_Up; and a completed one through the timing port gives the offset of R222, which is taken, or gated. -/
def Obligations.SyncMessages : Prop :=
  ∀ (s : State) (p : Fin 4) (m : PtpEvent), live s = true → activePort s p.val = true → p.val < s.ptp.ports.length →
    (let sent := match otherPort s p.val with
       | some q => [Output.ptp q 0 m.seq (if m.twoStep then m.correction else m.correction + transitSum s p.val q m)]
       | none => []
     let sums := match otherPort s p.val with
       | some q => if m.twoStep then (m.id, transitSum s p.val q m) :: (ptpAt s p.val).held.filter (fun h => h.1 ≠ m.id)
                   else (ptpAt s p.val).held
       | none => (ptpAt s p.val).held
     let sum := match (ptpAt s p.val).held.find? (fun h => h.1 = m.id) with | some h => h.2 | none => 0
     let followed := match otherPort s p.val with | some q => [Output.ptp q 8 m.seq (m.correction + sum)] | none => []
     let rest := match otherPort s p.val with
       | some _ => (ptpAt s p.val).held.filter (fun h => h.1 ≠ m.id)
       | none => (ptpAt s p.val).held
     (ownDomain s m.head = false →
       (∃ t, exec (.syncReceive p m) s = .next t ∧ t.out = sent ++ s.out ∧
         ptpAt t p.val = { ptpAt s p.val with held := sums } ∧
         t = { s with ptp := t.ptp, out := t.out, health := s.settledHealth t, store := s.settledStore t }) ∧
       (∃ t, exec (.followUpReceive p m) s = .next t ∧ t.out = followed ++ s.out ∧
         ptpAt t p.val = { ptpAt s p.val with held := rest } ∧
         t = { s with ptp := t.ptp, out := t.out, health := s.settledHealth t, store := s.settledStore t })) ∧
     (ownDomain s m.head = true →
       (ptpBad m.head = true ∨ m.logInt < -7 ∨ 0 < m.logInt →
         ∃ t, exec (.syncReceive p m) s = .next t ∧ t.out = sent ++ s.out ∧ t.ptp.discards = satInc s.ptp.discards ∧
           ptpAt t p.val = { ptpAt s p.val with held := sums } ∧
           t = { s with ptp := { s.ptp with discards := t.ptp.discards, ports := t.ptp.ports }, out := t.out,
                        health := s.settledHealth t, store := s.settledStore t }) ∧
       (ptpBad m.head = true →
         ∃ t, exec (.followUpReceive p m) s = .next t ∧ t.out = followed ++ s.out ∧ t.ptp.discards = satInc s.ptp.discards ∧
           ptpAt t p.val = { ptpAt s p.val with held := rest } ∧
           t = { s with ptp := { s.ptp with discards := t.ptp.discards, ports := t.ptp.ports }, out := t.out,
                        health := s.settledHealth t, store := s.settledStore t }) ∧
       (ptpBad m.head = false → -7 ≤ m.logInt → m.logInt ≤ 0 → fromMaster s p.val m = true → m.twoStep = true →
         ∃ t, exec (.syncReceive p m) s = .next t ∧ t.out = sent ++ s.out ∧
           ptpAt t p.val = { ptpAt s p.val with held := sums
                                                sync := m :: (ptpAt s p.val).sync.filter fun y => y.id ≠ m.id } ∧
           t = { s with ptp := { s.ptp with ports := t.ptp.ports }, out := t.out, health := s.settledHealth t,
                        store := s.settledStore t }) ∧
       (ptpBad m.head = false → -7 ≤ m.logInt → m.logInt ≤ 0 → fromMaster s p.val m = true → m.twoStep = false →
         s.ptp.reroute.testBit p.val = false → (ptpAt s p.val).valid = true →
         (let θ := corrDiff ((timestampTw m.seconds m.nanos 0).toNat * 256) (instantIn s p.val m.ingress) - m.correction
                     - linkDelay s p.val - asymmetry s p.val
          ∃ t, exec (.syncReceive p m) s = .next t ∧ t.out = sent ++ s.out ∧ t.ptp.consec = s.ptp.consec + 1 ∧
            t.ptp.logSync = some m.logInt ∧
            (gatedBy s θ = false → t.ptp.offsets = (θ :: s.ptp.offsets).take 16 ∧ t.ptp.gated = []) ∧
            (gatedBy s θ = true → s.ptp.gated.length + 1 < 16 →
              t.ptp.offsets = s.ptp.offsets ∧ t.ptp.gated = θ :: s.ptp.gated) ∧
            t = { s with time := t.time, ptp := t.ptp, out := t.out, health := s.settledHealth t,
                         store := s.settledStore t })) ∧
       (∀ y : PtpEvent, ptpBad m.head = false → (ptpAt s p.val).sync.find? (fun y => y.id = m.id) = some y →
         fromMaster s p.val y = true → s.ptp.reroute.testBit p.val = false → (ptpAt s p.val).valid = true →
         (let θ := corrDiff ((timestampTw m.seconds m.nanos 0).toNat * 256) (instantIn s p.val y.ingress)
                     - (y.correction + m.correction) - linkDelay s p.val - asymmetry s p.val
          gatedBy s θ = false →
          ∃ t, exec (.followUpReceive p m) s = .next t ∧ t.out = followed ++ s.out ∧
            t.ptp.offsets = (θ :: s.ptp.offsets).take 16 ∧ t.ptp.consec = s.ptp.consec + 1 ∧ (ptpAt t p.val).held = rest ∧
            (ptpAt t p.val).sync = (ptpAt s p.val).sync.filter (fun y => y.id ≠ m.id) ∧
            t = { s with time := t.time, ptp := t.ptp, out := t.out, health := s.settledHealth t,
                         store := s.settledStore t }))))

/-- Masters and time-outs (R210, R218, R219, R228, R256). A timed-out Follow_Up drops what waited for it; an Announce is
forwarded with its own sequence number and enters among the port's masters, and after it, as after a receipt time-out, the best
master is the one that the comparison gives; an Announce of the same cycle comes before the time-out, which then drops no record
of its sender; the absence of offsets sets its holdover cause; Signaling and Management leave unchanged; and a Delay_Req or
Delay_Resp is counted and discarded. -/
def Obligations.MastersAndTimeouts : Prop :=
  ∀ (s : State) (p : Fin 4), live s = true → p.val < s.ptp.ports.length →
    (∀ i : SyncId,
      ∃ t, exec (.followUpTimeout ⟨p, i⟩) s = .next t ∧
        ptpAt t p.val = { ptpAt s p.val with held := (ptpAt s p.val).held.filter fun h => h.1 ≠ i
                                             sync := (ptpAt s p.val).sync.filter fun y => y.id ≠ i } ∧
        (∀ j, j ≠ p.val → ptpAt t j = ptpAt s j) ∧
        t = { s with ptp := t.ptp, health := s.settledHealth t, store := s.settledStore t }) ∧
    (∀ a : Announce, activePort s p.val = true →
      ∃ t, exec (.announceReceive p a) s = .next t ∧
        t.out = (match otherPort s p.val with | some q => [.ptp q 0xB a.seq a.correction] | none => []) ++ s.out ∧
        (ownDomain s a.head = true → ptpBad a.head = true → t.ptp = { s.ptp with discards := satInc s.ptp.discards }) ∧
        (ownDomain s a.head = true → ptpBad a.head = false →
          (ptpAt t p.val).masters = hearMaster a s.time.cyc (ptpAt s p.val).masters ∧
          t.ptp.best = bestMaster (onPtp p.val (fun x => { x with masters := hearMaster a s.time.cyc x.masters }) s)) ∧
        t = { s with power := t.power, time := t.time, cal := { s.cal with fromWarm := t.cal.fromWarm },
                     ptp := t.ptp, clocks := t.clocks, out := t.out, health := s.settledHealth t,
                     store := s.settledStore t }) ∧
    (announcedNow s p.val = true →
      ∃ t, exec (.announceReceiptTimeout p) s = .next t ∧ t = { s with health := s.settledHealth t, store := s.settledStore t }) ∧
    (announcedNow s p.val = false →
      ∃ t, exec (.announceReceiptTimeout p) s = .next t ∧
        t.ptp.best = bestMaster (onPtp p.val (fun x => { x with masters := (ptpAt t p.val).masters }) s) ∧
        (∀ b, s.ptp.best = some b → ∀ m ∈ (ptpAt t p.val).masters, m.data.parent ≠ b.parent) ∧
        (∀ m ∈ (ptpAt s p.val).masters, heardNow s m = true → m ∈ (ptpAt t p.val).masters) ∧
        t = { s with power := t.power, time := t.time, cal := { s.cal with fromWarm := t.cal.fromWarm },
                     ptp := t.ptp, clocks := t.clocks, health := s.settledHealth t,
                     store := s.settledStore t }) ∧
    (∀ b, s.ptp.best = some b → s.time.quality ≠ 0 →
      ∃ t, exec .noOffsetTimeout s = .next t ∧ t.ptp.cause.testBit 1 = true ∧ t.ptp.consec = 0 ∧ t.ptp.silent = true ∧
        (held s = false → t.time.quality = 3 ∧ t.ptp.holdStart = s.time.cycTw) ∧
        t = { s with time := t.time, ptp := t.ptp, health := s.settledHealth t, store := s.settledStore t }) ∧
    (∀ h octets, activePort s p.val = true →
      ∃ t, exec (.ptpMessageForward p ⟨h, octets⟩) s = .next t ∧
        t.out = (match otherPort s p.val with | some q => [.forward q octets] | none => []) ++ s.out ∧
        t.ptp = (if ownDomain s h = true ∧ ptpBad h = true then { s.ptp with discards := satInc s.ptp.discards } else s.ptp) ∧
        t = { s with ptp := t.ptp, out := t.out, health := s.settledHealth t, store := s.settledStore t }) ∧
    (activePort s p.val = true →
      ∃ t, exec (.delayReqReceive p) s = .next t ∧ t.ptp = { s.ptp with discards := satInc s.ptp.discards } ∧
        t = { s with ptp := t.ptp, health := s.settledHealth t, store := s.settledStore t })

/-- Link delays (R210, R212, R215 to R217, R256). A request leaves with the next sequence number and notes its instant; a request
received is answered with the turnaround and a requestReceiptTimestamp of 0; what is sent is headed and tagged as Table 9.1 has
it; an exchange that completes while the first sixteen are admitted adds its delay; a
two-step response waits for its follow-up; an exchange without a response fails and counts, the third in succession making
the delay invalid; and a message that uses what is not supported is discarded and counted. -/
def Obligations.LinkDelays : Prop :=
  ∀ (s : State) (p : Fin 4), live s = true → activePort s p.val = true → p.val < s.ptp.ports.length →
    (let vlan := if cfgAt s 0x4012 7 = 0 then none else some (cfgAt s 0x4012 7)
     let frame := fun (kind : Nat) (seq : BitVec 16) (c : Int) =>
       Output.peer p.val ⟨0x0180C200000E, vlan, 0x88F7, 2, 1, cfgAt s 0x4012 0, 0, kind, seq, c, 0⟩
    (∀ egress,
      ∃ t, exec (.pdelayReqSend p egress) s = .next t ∧ t.out = frame 2 (ptpAt s p.val).nextSeq 0 :: s.out ∧
        ptpAt t p.val = { ptpAt s p.val with
          pend := some ((ptpAt s p.val).nextSeq, instantOut s p.val egress), resp := none
          nextSeq := (ptpAt s p.val).nextSeq + 1 } ∧
        (∀ j, j ≠ p.val → ptpAt t j = ptpAt s j) ∧
        t = { s with ptp := t.ptp, out := t.out, health := s.settledHealth t, store := s.settledStore t }) ∧
    (∀ h seq ingress egress, ownDomain s h = true →
      (ptpBad h = false →
        ∃ t, exec (.pdelayReqReceive p ⟨h, seq⟩ ingress egress) s = .next t ∧
          t.out = frame 3 seq (corrDiff (instantIn s p.val ingress) (instantOut s p.val egress)) :: s.out ∧
          t = { s with out := t.out, health := s.settledHealth t, store := s.settledStore t }) ∧
      (ptpBad h = true →
        ∃ t, exec (.pdelayReqReceive p ⟨h, seq⟩ ingress egress) s = .next t ∧
          t.ptp = { s.ptp with discards := satInc s.ptp.discards } ∧
          t = { s with ptp := t.ptp, health := s.settledHealth t, store := s.settledStore t })) ∧
    (∀ m : PdelayResp, ownDomain s m.head = true →
      (ptpBad m.head = true →
        ∃ t, exec (.pdelayRespReceive p m) s = .next t ∧ t.ptp = { s.ptp with discards := satInc s.ptp.discards } ∧
          t = { s with ptp := t.ptp, health := s.settledHealth t, store := s.settledStore t }) ∧
      (∀ t1 : Int, ptpBad m.head = false → (ptpAt s p.val).pend = some (m.seq, t1) →
        (m.twoStep = true →
          ∃ t, exec (.pdelayRespReceive p m) s = .next t ∧
            ptpAt t p.val = { ptpAt s p.val with
              pend := none, resp := some (m.seq, t1, instantIn s p.val m.ingress, m.correction, m.receipt) } ∧
            t = { s with ptp := t.ptp, health := s.settledHealth t, store := s.settledStore t }) ∧
        (m.twoStep = false → 0 < (ptpAt s p.val).untested →
          ∃ t, exec (.pdelayRespReceive p m) s = .next t ∧ (ptpAt t p.val).pend = none ∧ (ptpAt t p.val).fails = 0 ∧
            (ptpAt t p.val).delays =
              (exchangeDelay t1 (instantIn s p.val m.ingress) m.correction :: (ptpAt s p.val).delays).take 16 ∧
            t = { s with power := t.power, time := t.time, cal := { s.cal with fromWarm := t.cal.fromWarm },
                         ptp := t.ptp, clocks := t.clocks, health := s.settledHealth t,
                         store := s.settledStore t }))) ∧
    (∀ h seq t1 t4 c t2 origin correction, ownDomain s h = true →
      (ptpBad h = true →
        ∃ t, exec (.pdelayRespFollowUpReceive p ⟨h, seq⟩ origin correction) s = .next t ∧
          t.ptp = { s.ptp with discards := satInc s.ptp.discards } ∧
          t = { s with ptp := t.ptp, health := s.settledHealth t, store := s.settledStore t }) ∧
      (ptpBad h = false → (ptpAt s p.val).resp = some (seq, t1, t4, c, t2) → 0 < (ptpAt s p.val).untested →
        ∃ t, exec (.pdelayRespFollowUpReceive p ⟨h, seq⟩ origin correction) s = .next t ∧ (ptpAt t p.val).resp = none ∧
          (ptpAt t p.val).fails = 0 ∧
          (ptpAt t p.val).delays =
            (exchangeDelay t1 t4 (corrDiff t2 origin + c + correction) :: (ptpAt s p.val).delays).take 16 ∧
          t = { s with power := t.power, time := t.time, cal := { s.cal with fromWarm := t.cal.fromWarm },
                       ptp := t.ptp, clocks := t.clocks, health := s.settledHealth t,
                       store := s.settledStore t })) ∧
    ((ptpAt s p.val).pend.isSome = true →
      ∃ t, exec (.pdelayRespTimeout p) s = .next t ∧ (ptpAt t p.val).pend = none ∧ (ptpAt t p.val).resp = none ∧
        (ptpAt t p.val).fails = min ((ptpAt s p.val).fails + 1) 3 ∧
        (ptpAt t p.val).valid = ((ptpAt s p.val).valid && decide ((ptpAt s p.val).fails < 2)) ∧
        t = { s with power := t.power, time := t.time, cal := { s.cal with fromWarm := t.cal.fromWarm },
                     ptp := t.ptp, clocks := t.clocks, health := s.settledHealth t,
                     store := s.settledStore t }) ∧
    ((ptpAt s p.val).pend = none →
      ∃ t, exec (.pdelayRespTimeout p) s = .next t ∧ t = { s with health := s.settledHealth t, store := s.settledStore t }))

/-- TIME_SET and REROUTE_RESOLVE (R16, R232, R235). An unset module takes a time for its tick; a pending re-route that is
confirmed, or applied with its stored asymmetry, is no longer pending, and its port goes on from the exchanges of the new
route. -/
def Obligations.TimeSetAndReroutes : Prop :=
  ∀ s : State,
    (∀ x : TW, [Mode.warm, .ready, .run, .safe].contains s.power.mode = true →
      (s.time.quality = 0 → s.cal.state = 0 → s.time.setPending = none →
        ∃ t, exec (.timeSet .custodian x) s = .next t ∧
          t.out = .answer 0 (octetsOf 8 (directTick s).toNat) :: s.out ∧
          t = { s with time := { s.time with setPending := some (x, directTick s) }, out := t.out, health := s.settledHealth t,
                       store := s.settledStore t }) ∧
      (s.time.quality ≠ 0 → ∃ t, exec (.timeSet .custodian x) s = .next t ∧ s.AnsweredOnly t 0x0301)) ∧
    (∀ (r : Role) (v : BitVec 8) (c : Instr), live s = true → roleOk r .operator = true →
      (c = .rerouteConfirm r v ∧ v.toNat.testBit 4 = false) ∨ (c = .rerouteApplyAsym r v ∧ v.toNat.testBit 4 = true) →
      bits v.toNat 7 5 = 0 → bits v.toNat 3 2 = 0 →
      (s.ptp.reroute.testBit (bits v.toNat 1 0) = false → ∃ t, exec c s = .next t ∧ s.AnsweredOnly t 0x0301) ∧
      (s.ptp.reroute.testBit (bits v.toNat 1 0) = true →
        ∃ t, exec c s = .next t ∧ t.out = .answer 0 [] :: s.out ∧
          t.ptp.reroute = s.ptp.reroute - 2 ^ bits v.toNat 1 0 ∧
          t.conf = (if v.toNat.testBit 4
            then { s.conf with
              cfg := cfgSet s.conf.cfg (key 0x4104 (bits v.toNat 1 0)) (cfgAt s 0x4107 (bits v.toNat 1 0)) }
            else s.conf) ∧
          (bits v.toNat 1 0 < s.ptp.ports.length →
            (ptpAt t (bits v.toNat 1 0)).delays = (if (ptpAt s (bits v.toNat 1 0)).rerouted = []
              then (ptpAt s (bits v.toNat 1 0)).delays else (ptpAt s (bits v.toNat 1 0)).rerouted) ∧
            (ptpAt t (bits v.toNat 1 0)).rerouted = [] ∧ (ptpAt t (bits v.toNat 1 0)).rejected = []) ∧
          t = { s with conf := t.conf, ptp := t.ptp, out := t.out, health := s.settledHealth t, store := t.store }))

/-- Event inputs and the rings (R22, R177, R239 to R244). An edge of an input in use that comes 8 ns or more after the latest one
is counted, stamped in its own frame and, where the input records, put into the ring; one that comes sooner is a glitch; an
edge stamped at or after the next tick waits for the frame that this tick begins; an unused input shows its level alone, and so
does any input from OFF to the end of BOOT (R239; notes/assumptions/84.md). A write of a slot between READ and READ + FILL
releases the records before it, oldest first; a write of another slot is refused and releases nothing; in a full ring READ's own
value, which READ + FILL then equals, releases nothing (notes/assumptions/44.md). -/
def Obligations.EventEdgesAndRings : Prop :=
  (∀ (s : State) (x : Fin 8) (b : Fin 32) (rising : Bool), live s = false →
     exec (.evEdge x b rising) s =
       .next { s with ev := { s.ev with inputs := updAt (fun q => { q with level := rising }) x.val s.ev.inputs } }) ∧
  (∀ (s : State) (x : Fin 8) (b : Fin 32) (rising : Bool) (q : EvInput), live s = true → s.ev.inputs[x.val]? = some q →
     (TW.atOrBefore s.time.nextTick (evStamp s x.val b.val rising) = true →
       ∃ t, exec (.evEdge x b rising) s = .next t ∧ t.ev = { s.ev with inputs := s.ev.inputs.set x.val { q with level := rising } } ∧
         t.time = { s.time with
           late := s.time.late ++ [.edge x.val rising (evStamp s x.val b.val rising) (evLocal s b.val) s.shift] } ∧
         t = { s with time := t.time, ev := t.ev, health := s.settledHealth t, store := s.settledStore t }) ∧
     (TW.atOrBefore s.time.nextTick (evStamp s x.val b.val rising) = false → cfgAt s 0x5200 x.val = 0 →
       ∃ t, exec (.evEdge x b rising) s = .next t ∧ t.ev = { s.ev with inputs := s.ev.inputs.set x.val { q with level := rising } } ∧
         t = { s with ev := t.ev, health := s.settledHealth t, store := s.settledStore t }) ∧
     (∀ p, TW.atOrBefore s.time.nextTick (evStamp s x.val b.val rising) = false → cfgAt s 0x5200 x.val ≠ 0 →
       q.lastPt = some p → evLocal s b.val < p + evDead →
       ∃ t, exec (.evEdge x b rising) s = .next t ∧
         t.ev = { s.ev with
           inputs := s.ev.inputs.set x.val { q with level := rising, glitches := satInc q.glitches, dropped := true } } ∧
         t = { s with ev := t.ev, health := s.settledHealth t, store := s.settledStore t }) ∧
     (TW.atOrBefore s.time.nextTick (evStamp s x.val b.val rising) = false → cfgAt s 0x5200 x.val ≠ 0 →
       (∀ p, q.lastPt = some p → p + evDead ≤ evLocal s b.val) →
       (let edge := evStamp s x.val b.val rising
        let g := frameOf s edge
        ∃ t, exec (.evEdge x b rising) s = .next t ∧
         t.ev.inputs = s.ev.inputs.set x.val
           { q with level := rising, count := wrapInc q.count, last := stampIn s g edge,
                    lastPt := some (evLocal s b.val), dropped := false } ∧
         (cfgAt s 0x5200 x.val ≠ 2 → t.ev.ring = s.ev.ring) ∧
         (cfgAt s 0x5200 x.val = 2 → s.ev.ring.recs.length + 1 < evRingSize →
           ∃ r ∈ t.ev.ring.recs, r / 2 ^ 32 = evRecord x.val rising q.dropped g.suspect / 2 ^ 32) ∧
         t = { s with ev := t.ev, units := t.units, health := s.settledHealth t, store := s.settledStore t }))) ∧
  (∀ (s : State) (r : Role) (v : BitVec 16), roleOk r .operator = true → live s = true →
     (v.toNat < auxRingSize → (v.toNat + auxRingSize - s.aux.ring.read) % auxRingSize ≤ s.aux.ring.recs.length →
       ∃ t, exec (.auxRingRead r v) s = .next t ∧ t.out = .answer 0 [] :: s.out ∧
         t.aux = { s.aux with
           ring := { s.aux.ring with
             read := v.toNat
             recs := s.aux.ring.recs.drop ((v.toNat + auxRingSize - s.aux.ring.read) % auxRingSize)
             base := t.aux.ring.base } } ∧
         t = { s with aux := t.aux, out := t.out, health := s.settledHealth t, store := s.settledStore t }) ∧
     (auxRingSize ≤ v.toNat ∨ s.aux.ring.recs.length < (v.toNat + auxRingSize - s.aux.ring.read) % auxRingSize →
       ∃ t, exec (.auxRingRead r v) s = .next t ∧ s.AnsweredOnly t 0x0301) ∧
     (v.toNat < evRingSize → (v.toNat + evRingSize - s.ev.ring.read) % evRingSize ≤ s.ev.ring.recs.length →
       ∃ t, exec (.evRingRead r v) s = .next t ∧ t.out = .answer 0 [] :: s.out ∧
         t.ev = { s.ev with
           fixed := s.ev.fixed - (v.toNat + evRingSize - s.ev.ring.read) % evRingSize
           ring := { s.ev.ring with
             read := v.toNat
             recs := s.ev.ring.recs.drop ((v.toNat + evRingSize - s.ev.ring.read) % evRingSize)
             base := t.ev.ring.base } } ∧
         t = { s with ev := t.ev, out := t.out, health := s.settledHealth t, store := s.settledStore t }) ∧
     (evRingSize ≤ v.toNat ∨ s.ev.ring.recs.length < (v.toNat + evRingSize - s.ev.ring.read) % evRingSize →
       ∃ t, exec (.evRingRead r v) s = .next t ∧ s.AnsweredOnly t 0x0301))

/-- A received trigger message (R193, R258) is accepted, counted and remembered, and left to the units that watch its code, which
decide it at the end of the engine cycle (notes/assumptions/52.md); or it is counted under the first test that it fails, without
any other effect. -/
def Obligations.TriggerMessages : Prop :=
  ∀ (s : State) (m : TrgMessage), live s = true →
    (msgTest s m = 0 →
      ∃ t, exec (.triggerMessageReceive m) s = .next t ∧ t.ev.accepted = satInc s.ev.accepted ∧
        t.ev.recent = (m.sender, m.sequence, s.time.tw) :: msgRecent s ∧ t.ev.discards = s.ev.discards ∧
        (∀ u < 8, u < s.units.length → unitAt t u = { unitAt s u with offers := (unitAt t u).offers } ∧
          ((unitAt s u).armed = true → cfgAt s 0x3C02 u = 6 → cfgAt s 0x3C03 u = m.code.toNat →
            ∃ e ∈ (unitAt t u).offers, e.t = m.instant)) ∧
        t = { s with ev := t.ev, units := t.units, health := s.settledHealth t, store := s.settledStore t }) ∧
    (msgTest s m ≠ 0 →
      ∃ t, exec (.triggerMessageReceive m) s = .next t ∧
        t.ev = { s.ev with discards := updAt satInc (msgTest s m - 1) s.ev.discards } ∧
        t = { s with ev := t.ev, health := s.settledHealth t, store := s.settledStore t })

/-- Timed actions (R245 to R249). A submission that passes the tests of Table 10.4 takes the lowest free slot, the next handle
of that slot and its fire tick, and answers handle and tick; a hoist among them takes the shadow. That an open-wire check clears
the results of its channels at its acceptance is the model's choice (notes/assumptions/82.md): Table 2.5 speaks of a direct
start. -/
def Obligations.TimedActions : Prop :=
  ∀ (s : State) (r : Role) (d : BitVec 256) (op : Op) (c : Instr) (slot : Nat),
    c = .taSubmitStartStreams r d ∨ c = .taSubmitStopStreams r d ∨ c = .taSubmitTrgArm r d ∨ c = .taSubmitHoist r d ∨
      c = .taSubmitOwc r d ∨ c = .taSubmitStepTime r d ∨ c = .taSubmitXfade r d →
    c.wf = true → descDecode d = some op → roleOk r (descRole d) = true → s.time.quality ≠ 0 →
    readyFor s (fireTick s (descInstant d)) = true → calBars s (fireTick s (descInstant d)) = false →
    TW.inWindow s.time.cycTw (descInstant d) = true →
    (2 * tf s ≤ TW.diff s.time.cycTw (fireTick s (descInstant d)) → freeSlot s = some slot →
      actionFits s op (fireTick s (descInstant d)) = true →
      (op = .hoist → roleOk r (hoistRole s) = true ∧ s.conf.hoist = none ∧
        (hoistTests s s.conf.shadow (BitVec.ofNat 128 (descArg d)) (namedCourse s (fireTick s (descInstant d)))
          (aroundTick s (fireTick s (descInstant d)))).2 = 0) →
      (op ≠ .hoist → actionCond s op (fireTick s (descInstant d)) = 0) →
      (opCode op = 6 → stepDue s (fireTick s (descInstant d)) = false) →
      ∃ t h, exec c s = .next t ∧
        h = (if s.act.lastQ.getD slot 0 = 255 then 1 else s.act.lastQ.getD slot 0 + 1) * 256 + slot ∧
        t.out = .answer 0 (octetsOf 2 h ++ octetsOf 8 (fireTick s (descInstant d)).toNat) :: s.out ∧
        t.act = { s.act with
          sched := s.act.sched ++ [⟨some slot, h, d, r, op, fireTick s (descInstant d), 0, 0, s.time.tw⟩]
          lastQ := s.act.lastQ.set slot (h / 256) } ∧
        t.conf = (if op = Op.hoist then
          { s.conf with hoist := some ⟨s.conf.shadow, BitVec.ofNat 128 (descArg d), r⟩, shadow := [] } else s.conf) ∧
        t.chans = (match op with | .owc v => (owcClear v s).chans | _ => s.chans) ∧
        t = { s with conf := t.conf, act := t.act, chans := t.chans, out := t.out, health := s.settledHealth t,
                     store := s.settledStore t }) ∧
    (TW.diff s.time.cycTw (fireTick s (descInstant d)) < 2 * tf s → (op = .hoist → roleOk r (hoistRole s) = true) →
      ∃ t, exec c s = .next t ∧ t.out = .answer 0x0501 [] :: s.out ∧
        t.act = { s.act with refusedLate := satInc s.act.refusedLate } ∧
        t = { s with act := t.act, out := t.out, health := s.settledHealth t, store := s.settledStore t })

/-- R254: TA_CANCEL removes the action with its handle, writes a record with outcome 3 and frees the slot; without such an
action it is refused with 0x0301, within TF of the fire tick with 0x0501, and below the role of the cancelled operation with
0x0105. -/
def Obligations.ActionsCancelled : Prop :=
  ∀ (s : State) (r : Role) (h : BitVec 16), s.power.mode = .calibrate ∨ s.power.mode = .ready ∨ s.power.mode = .run →
    ((∀ e ∈ s.act.sched, e.slot = none ∨ e.handle ≠ h.toNat) → roleOk r .operator = true →
      ∃ t, exec (.taCancel r h) s = .next t ∧ s.AnsweredOnly t 0x0301) ∧
    (∀ e, s.act.sched.find? (fun e => e.slot.isSome && decide (e.handle = h.toNat)) = some e →
      (roleOk r (opRole e.op) = false → ∃ t, exec (.taCancel r h) s = .next t ∧ s.AnsweredOnly t 0x0105) ∧
      (roleOk r (opRole e.op) = true → TW.diff s.time.cycTw e.fire < tf s →
        ∃ t, exec (.taCancel r h) s = .next t ∧ s.AnsweredOnly t 0x0501) ∧
      (roleOk r (opRole e.op) = true → tf s ≤ TW.diff s.time.cycTw e.fire →
        ∃ t k, exec (.taCancel r h) s = .next t ∧ t.out = .answer 0 [] :: s.out ∧
          t.act.sched = s.act.sched.filter (fun x => decide (x.slot ≠ e.slot)) ∧ e ∉ t.act.sched ∧
          (∀ slot, e.slot = some slot → slot < 256 → ∃ k, freeSlot t = some k ∧ k ≤ slot) ∧
          t.act.log.head? = some k ∧ k.outcome = 3 ∧ k.handle = e.handle ∧ k.refusal = 0 ∧
          t = { s with conf := t.conf, act := t.act, buf := t.buf, out := t.out,
                       health := s.settledHealth t, store := s.settledStore t }))

/-- Writes that wait for a tick (R29, R54, R131, R189, R268, R335, R461): where its own condition holds and the tick has room,
each is accepted for the second tick after the tick that follows, and the answer carries that tick; where its condition fails,
the answer carries its code and nothing is scheduled; and a tick without room is refused with 0x0406. A check clears the
results of its channels at once. -/
def Obligations.WritesWaitForTheirTick : Prop :=
  ∀ (s : State) (r : Role), roleOk r .operator = true → s.power.mode = .ready ∨ s.power.mode = .run →
    (let F := directTick s
     (∀ v, owcArgOk v = true → s.WaitsForTick (.owcStart r v) r (.owc v) (owcCond s F v) (owcClear v s).chans) ∧
     (∀ v, fadeArgOk v = true →
       s.WaitsForTick (.firXfadeStart r v) r (.xfade v) (fadeCond s (priorTo s F 5) F v (schedFades s (fadeGroup v)))
         s.chans) ∧
     (∀ m, m ≠ 0 → s.store.slotState ≠ 4 →
       s.WaitsForTick (.streamStart r m) r (.startStreams m) (startCond s (priorTo s F 3) F m) s.chans) ∧
     (∀ m, m ≠ 0 → s.WaitsForTick (.streamStop r m) r (.stopStreams m) (stopCond s (priorTo s F 2) m) s.chans) ∧
     (∀ v, trgArgOk v = true → s.WaitsForTick (.trgArm r v) r (.trg v) (trgCond s (priorTo s F 4) v) s.chans) ∧
     (∀ v, trgArgOk v = true → s.WaitsForTick (.trgDisarm r v) r (.trg v) (trgCond s (priorTo s F 4) v) s.chans) ∧
     (∀ d, roleOk r .custodian = true → (∀ e ∈ s.act.sched, isStep e.op = false) →
       s.WaitsForTick (.timeStep r d) r (.stepTime d) (stepCond s) s.chans))

/-- Where a received frame goes (R263 to R265): one with a bad check sequence, of another format or from the module itself
goes nowhere; one for the module is taken, or, of another type or of the wrong direction, discarded and counted; a broadcast
goes on with its HOPS reduced while they exceed 1; and any other goes on unchanged out of the other active ring port. That a
frame at a port that is not active goes nowhere, and that one of an unlisted type that is not the module's own is forwarded and
not discarded, is the model's reading (notes/assumptions/60.md). -/
def Obligations.FramesRouted : Prop :=
  ∀ (s : State) (p : Fin 4) (f : RxFrame), live s = true →
    (f.fcsOk = false ∨ activePort s p.val = false ∨ f.octets.length < 24 ∨ octetAt f.octets 0 / 16 ≠ 1 ∨ f.srcMac = moduleMac →
      ∃ t, exec (.axindFrameReceive p f) s = .next t ∧ t = { s with health := s.settledHealth t, store := s.settledStore t }) ∧
    (f.fcsOk = true → activePort s p.val = true → 24 ≤ f.octets.length → octetAt f.octets 0 / 16 = 1 → f.srcMac ≠ moduleMac →
      (hdrDest f.octets = cfgAt s 0x1001 0 → cfgAt s 0x1001 0 ≠ 0 →
        ∃ t, exec (.axindFrameReceive p f) s = .next t ∧
          t.link = (if takenTypes.contains (hdrType f.octets) = true ∧ ¬(hdrType f.octets = 0x20 ∧ hdrSource f.octets ≠ 0)
            then s.link else { s.link with discards := satInc s.link.discards }) ∧
          t = { s with link := t.link, health := s.settledHealth t, store := s.settledStore t }) ∧
      (∀ q, hdrDest f.octets = 0xFFFFF → cfgAt s 0x1001 0 ≠ 0xFFFFF → 1 < hdrHops f.octets → otherPort s p.val = some q →
        ∃ t, exec (.axindFrameReceive p f) s = .next t ∧
          t.link.ports = updAt (fun x => { x with fwd := x.fwd ++ [f.octets.set 7 (hdrHops f.octets - 1)] }) q s.link.ports ∧
          t = { s with link := t.link, health := s.settledHealth t, store := s.settledStore t }) ∧
      (∀ q, hdrDest f.octets ≠ 0xFFFFF → hdrDest f.octets ≠ cfgAt s 0x1001 0 → otherPort s p.val = some q →
        ∃ t, exec (.axindFrameReceive p f) s = .next t ∧
          t.link = { s.link with ports := updAt (fun x => { x with fwd := x.fwd ++ [f.octets] }) q s.link.ports } ∧
          t = { s with link := t.link, health := s.settledHealth t, store := s.settledStore t }))

/-- Credit and acknowledgement (R256, R276, R278). An ACK_NEXT between the present one and the next SSN acknowledges every frame
before it, another has no effect; a limit counts unless it lies before the present one; and a NAK, like the time-out, rewinds
to the oldest unacknowledged frame; an acknowledgement in the same cycle comes before the time-out. -/
def Obligations.CreditAndAcks : Prop :=
  ∀ s : State, live s = true →
    (∀ ack limit nak,
      ∃ t, exec (.creditAckReceive ack limit nak) s = .next t ∧
        t.link.ackNext = (if serialLe s.link.ackNext ack && serialLe ack s.link.ssnNext then ack else s.link.ackNext) ∧
        t.link.creditLimit = (if serialLe s.link.creditLimit limit then limit else s.link.creditLimit) ∧
        (serialLe s.link.ackNext ack = true → serialLe ack s.link.ssnNext = true →
          ∀ e ∈ t.buf.sbuf, e.sent = true → serialLt e.ssn ack = true → e.acked = true) ∧
        ((serialLe s.link.ackNext ack && serialLe ack s.link.ssnNext) = false → t.buf.sbuf = s.buf.sbuf) ∧
        (nak = true → t.buf.retx = (oldestUnacked t).map Entered.ssn) ∧
        t.link.ssnNext = s.link.ssnNext ∧
        t = { s with link := t.link, buf := t.buf, units := t.units, health := s.settledHealth t, store := s.settledStore t }) ∧
    (s.link.ackAt = some s.time.cyc →
      ∃ t, exec .retxTimeout s = .next t ∧ t = { s with health := s.settledHealth t, store := s.settledStore t }) ∧
    (s.link.ackAt ≠ some s.time.cyc →
      ∃ t, exec .retxTimeout s = .next t ∧ t.buf.retx = (oldestUnacked s).map Entered.ssn ∧
        t.link.creditUsed = (if (oldestUnacked s).isSome then s.link.ackCredit else s.link.creditUsed) ∧
        t = { s with link := { s.link with creditUsed := t.link.creditUsed }, buf := { s.buf with retx := t.buf.retx },
                     health := s.settledHealth t, store := s.settledStore t })

/-- The ring (R215, R280 to R284, Table 16.7). A break notice at the up port, but for one that ends a break, exchanges the roles
where there is an alternate port; a local fault puts the port down, and at the up port exchanges them too; a link that returns
puts its port up, which measures its link delay anew; the standby port takes the place of a ring port that is down; and own
traffic returns to the port of rank 1 by an exchange of the roles; that it does so also when the port had been replaced, the up
port then becoming standby, is the model's reading of R284 (notes/assumptions/60.md). -/
def Obligations.RingPortsChange : Prop :=
  ∀ (s : State) (p : Fin 4), live s = true → p.val < s.link.ports.length →
    (∀ detector seq clear,
      ∃ t, exec (.breakNoticeReceive p detector clear seq) s = .next t ∧
        ((portAt s p.val).role = 1 → clear = false → (∃ q < 4, (portAt s q).role = 2) →
          t.link.ports = (exchangeRoles s).link.ports ∧ t.buf.retx = (oldestUnacked s).map Entered.ssn) ∧
        ((portAt s p.val).role ≠ 1 ∨ clear = true ∨ (∀ q < 4, (portAt s q).role ≠ 2) → t.link = s.link ∧ t.buf = s.buf) ∧
        t = { s with link := t.link, buf := t.buf, health := s.settledHealth t, store := s.settledStore t }) ∧
    ((portAt s p.val).status = true →
      ∃ t, exec (.portLocalFault p) s = .next t ∧ (portAt t p.val).status = false ∧
        (portAt t p.val).faults = satInc (portAt s p.val).faults ∧ (portAt t p.val).downFrom = some s.time.pt ∧
        ((∃ q < 4, (portAt s q).role = 2) →
          (portAt t p.val).role = (if (portAt s p.val).role = 1 then 2 else (portAt s p.val).role)) ∧
        ((∀ q < 4, (portAt s q).role ≠ 2) → (portAt t p.val).role = (portAt s p.val).role) ∧
        t = { s with power := t.power, time := t.time, cal := { s.cal with fromWarm := t.cal.fromWarm },
                     clocks := t.clocks, link := t.link, buf := t.buf, ptp := t.ptp,
                     health := { s.settledHealth t with selfTest := t.health.selfTest }, store := s.settledStore t }) ∧
    ((portAt s p.val).status = false → (portAt s p.val).role ≠ 0 →
      ∃ t, exec (.portLinkReturn p) s = .next t ∧ (portAt t p.val).status = true ∧ (portAt t p.val).downFrom = none ∧
        (portAt t p.val).upFrom = some s.time.pt ∧ (portAt t p.val).role = (portAt s p.val).role ∧
        (p.val < s.ptp.ports.length → (ptpAt t p.val).valid = false ∧ (ptpAt t p.val).delays = []) ∧
        t = { s with power := t.power, time := t.time, cal := { s.cal with fromWarm := t.cal.fromWarm },
                     clocks := t.clocks, link := t.link, ptp := t.ptp, health := s.settledHealth t,
                     store := s.settledStore t }) ∧
    (∀ n, standby s = some n → (portAt s p.val).status = false → (portAt s p.val).role = 1 ∨ (portAt s p.val).role = 2 →
      ∃ t, exec (.portPromote p) s = .next t ∧ (portAt t p.val).role = 3 ∧ (portAt t n).status = true ∧
        ((portAt s p.val).role = 2 ∨ (∃ q < 4, (portAt s q).role = 2) → (portAt t n).role = 2) ∧
        ((portAt s p.val).role = 1 → (∀ q < 4, (portAt s q).role ≠ 2) → (portAt t n).role = 1) ∧
        t = { s with power := t.power, time := t.time, cal := { s.cal with fromWarm := t.cal.fromWarm },
                     clocks := t.clocks, link := t.link, buf := t.buf, ptp := t.ptp,
                     health := { s.settledHealth t with selfTest := t.health.selfTest }, store := s.settledStore t }) ∧
    (wired s p.val = true → cfgAt s 0x4901 p.val = 1 → (∀ j < p.val, wired s j = false ∨ cfgAt s 0x4901 j ≠ 1) →
      ∃ t, exec .portRevert s = .next t ∧
        ((cfgBool s 0x4909 0 && (portAt s p.val).status) = false ∨
            ((portAt s p.val).role ≠ 2 ∧ (portAt s p.val).role ≠ 3) → t.link = s.link ∧ t.ptp = s.ptp) ∧
        (cfgBool s 0x4909 0 = true → (portAt s p.val).status = true → (portAt s p.val).role = 2 →
          t.link = (exchangeRoles s).link ∧ t.ptp = s.ptp) ∧
        (∀ u, cfgBool s 0x4909 0 = true → (portAt s p.val).status = true → (portAt s p.val).role = 3 → upPort s = some u →
          (portAt t p.val).role = 1 ∧ (portAt t u).role = 3) ∧
        t = { s with power := t.power, time := t.time, cal := { s.cal with fromWarm := t.cal.fromWarm },
                     clocks := t.clocks, link := t.link, ptp := t.ptp, health := s.settledHealth t,
                     store := s.settledStore t })

/-- What a port sends next (R262, R266, R277, R278, R300): a break notice goes first, then a forwarded frame; on the up port
then the entered frame of class 4 or 5 that has the credit and the share, under the next SSN, and one of class 6 behind the
messages and answers; a trigger message within its allowance, on either ring port; a dictionary answer, once nothing of a higher
class may go; and the retransmission, which keeps its SSN. A frame that lacks credit waits. What the module sends goes in its
own Ethernet frame. That in class 5 a trigger message goes before a waiting answer, and that one control allowance holds for
both ring ports, is the model's reading (notes/assumptions/58.md). -/
def Obligations.FramesLeave : Prop :=
  ∀ (s : State) (p : Fin 4) (obs : ReadObs), live s = true → (portAt s p.val).status = true →
    (portAt s p.val).role = 1 ∨ (portAt s p.val).role = 2 →
    (∀ b l, (portAt s p.val).breaks = b :: l →
      ∃ t, exec (.frameTransmit p obs) s = .next t ∧ t.out = .tx p.val (etherFrame s (broadcast s 0x21 b)) :: s.out ∧
        t.link = { s.link with ports := updAt (fun x => { x with breaks := l }) p.val s.link.ports } ∧
        t = { s with link := t.link, out := t.out, health := s.settledHealth t, store := s.settledStore t }) ∧
    (∀ f l, (portAt s p.val).breaks = [] → (portAt s p.val).fwd = f :: l →
      ∃ t, exec (.frameTransmit p obs) s = .next t ∧ t.out = .forward p.val f :: s.out ∧
        t.link = { s.link with ports := updAt (fun x => { x with fwd := l }) p.val s.link.ports } ∧
        t = { s with link := t.link, out := t.out, health := s.settledHealth t, store := s.settledStore t }) ∧
    (∀ m l, (portAt s p.val).breaks = [] → (portAt s p.val).fwd = [] → (portAt s p.val).msgs = m :: l →
      mayControl s p.val m.length = true → (portAt s p.val).role = 2 ∨ waiting s = none →
      ∃ t, exec (.frameTransmit p obs) s = .next t ∧ t.out = .tx p.val (etherFrame s (broadcast s 0x13 m)) :: s.out ∧
        (portAt t p.val).msgs = l ∧ t.link.ctlLeft = s.link.ctlLeft - wireLen s m.length ∧
        t = { s with link := t.link, out := t.out, health := s.settledHealth t, store := s.settledStore t }) ∧
    ((portAt s p.val).role = 1 → (portAt s p.val).breaks = [] → (portAt s p.val).fwd = [] → obs = ⟨[], [], []⟩ →
      (∀ e, waiting s = some e → mayStart s p.val e = true →
        e.frame.cls = 4 ∨ e.frame.cls = 5 ∨ (e.frame.cls = 6 ∧ (portAt s p.val).msgs = [] ∧ s.link.own = []) →
        ∃ t, exec (.frameTransmit p obs) s = .next t ∧
          t.out = .tx p.val (etherFrame s (sequenced s e.frame s.link.ssnNext)) :: s.out ∧
          t.link.ssnNext = s.link.ssnNext + 1 ∧
          t.link.creditUsed = givenCredit s + BitVec.ofNat 32 e.frame.units ∧
          t = { s with streams := t.streams, link := t.link, buf := t.buf, out := t.out, health := s.settledHealth t,
                       store := s.settledStore t }) ∧
      (∀ a l, waiting s = none → (portAt s p.val).msgs = [] → s.link.own = a :: l → mayControl s p.val a.len = true →
        ∃ t, exec (.frameTransmit p obs) s = .next t ∧ t.out = .tx p.val (etherFrame s (answerOctets s a)) :: s.out ∧
          t.link.own = l ∧
          t.link.ssnNext = s.link.ssnNext ∧ t.link.creditUsed = s.link.creditUsed ∧
          t = { s with dict := t.dict, link := t.link, out := t.out, health := s.settledHealth t, store := s.settledStore t }) ∧
      (∀ r e, waiting s = none → (portAt s p.val).msgs = [] → s.link.own = [] → s.buf.retx = some r →
        s.buf.sbuf.find? (fun x => x.sent && decide (x.ssn = r)) = some e →
        ∃ t, exec (.frameTransmit p obs) s = .next t ∧
          t.out = .tx p.val (etherFrame s (sequenced s e.frame r)) :: s.out ∧
          t.link.ssnNext = s.link.ssnNext ∧ (portAt t p.val).retx = satInc (portAt s p.val).retx ∧
          t = { s with link := t.link, buf := t.buf, out := t.out, health := s.settledHealth t, store := s.settledStore t }) ∧
      (∀ e, waiting s = some e → mayStart s p.val e = false → (portAt s p.val).msgs = [] → s.link.own = [] →
        s.buf.retx = none →
        ∃ t, exec (.frameTransmit p obs) s = .next t ∧ t = { s with health := s.settledHealth t, store := s.settledStore t }))

/-- The stream buffer (R297 to R299, R302, R309). The head of the highest class queue enters behind the frames before it, once
none of them waits and fewer than 192 segments are in flight, with its lines still to be written; a line of the oldest
acknowledged frame is freed at MARK, once in an engine cycle, and a line that waits lands with it; and the oldest frame of the
reserve that fits moves to the assembly area, with a fresh copy of its framing words (R307). -/
def Obligations.StreamBufferMoves : Prop :=
  ∀ s : State, live s = true →
    (∀ obs q f l, noneWaiting s = true → segInFlight s < 192 → enterQueue s = some q → s.buf.asm[q]? = some (f :: l) →
      ∃ t e, exec (.sbufEnter obs) s = .next t ∧ t.buf.asm = s.buf.asm.set q l ∧ t.buf.sbuf = s.buf.sbuf ++ [e] ∧
        e.sent = false ∧ e.acked = false ∧ e.line = s.buf.write ∧ e.unwritten = e.lines ∧
        (obs.words = [] → e.frame = f ∧ e.lines = ceilDiv (24 + f.octets.length) 64) ∧
        t.pending = s.pending ∧ t.power = s.power ∧ t.time = s.time ∧ t.conf = s.conf ∧ t.act = s.act ∧ t.out = s.out) ∧
    (∀ e l, s.buf.sbuf = e :: l → e.acked = true → s.buf.portsAt ≠ some s.time.cyc →
      (let rest := if e.lines ≤ e.freed + 1 then l else { e with freed := e.freed + 1 } :: l
       let m := min 1 (rest.map Entered.unwritten).sum
       ∃ t, exec .sbufLineRelease s = .next t ∧ t.buf.mark = (s.buf.mark + 1) % sbufLines ∧
         t.buf.depth = s.buf.depth - 1 + m ∧ t.buf.write = (s.buf.write + m) % sbufLines ∧
         t.buf.sbuf = rest.map (fun x => { x with unwritten := x.unwritten - m }) ∧ t.buf.portsAt = some s.time.cyc ∧
         t = { s with buf := t.buf, health := s.settledHealth t, store := s.settledStore t })) ∧
    (s.buf.portsAt = some s.time.cyc →
      ∃ t, exec .sbufLineRelease s = .next t ∧ t = { s with health := s.settledHealth t, store := s.settledStore t }) ∧
    (∀ obs q f l, refillQueue s = some q → s.buf.res[q]? = some (f :: l) → q < s.buf.asm.length →
      ∃ t g, exec (.reserveRefill obs) s = .next t ∧ t.buf.res = s.buf.res.set q l ∧
        t.buf.asm = updAt (· ++ [g]) q s.buf.asm ∧ (obs.words = [] → obs.spill = [] → g = { f with moved := false }.copied) ∧
        t.pending = s.pending ∧ t.power = s.power ∧ t.time = s.time ∧ t.conf = s.conf ∧ t.act = s.act ∧ t.out = s.out)

/-- Requests that arrive for the module (R263, R264, R324, R326, R328, R329, R332, R334, R336, R337): one that no host sent is
discarded and counted, the model's reading of R264 with R329 (notes/assumptions/69.md); every other is counted, and the first
test that fails gives the answer, which is kept: no room, no key of its role, a tag that does not verify (counted); an
Observer's request that keeps the form joins the queue. The answer of a request without room is tagged under the key that
verifies it (notes/assumptions/67.md). -/
def Obligations.RequestsArrive : Prop :=
  ∀ (s : State) (p : Fin 4) (l : List Nat), live s = true → activePort s p.val = true → 24 ≤ l.length →
    octetAt l 0 / 16 = 1 → hdrType l = 0x10 → hdrDest l = cfgAt s 0x1001 0 → hdrDest l ≠ 0xFFFFF → cfgAt s 0x1001 0 ≠ 0 →
    (hdrSource l ≠ 0 →
      ∃ t, exec (.dictRequestReceive p l) s = .next t ∧ t.link = { s.link with discards := satInc s.link.discards } ∧
        t = { s with link := t.link, health := s.settledHealth t, store := s.settledStore t }) ∧
    (hdrSource l = 0 →
      (64 ≤ inFlight s →
        (let a : Answer := ⟨none, wholeBody (payloadOf l) 0x0303, verifyKey s (hopless l) (payloadOf l), none, false⟩
         ∃ t, exec (.dictRequestReceive p l) s = .next t ∧
           t.dict = { s.dict with requests := wrapInc s.dict.requests, answers := (a :: s.dict.answers).take 256 } ∧
           t.link = { s.link with own := s.link.own ++ [a] } ∧
           t = { s with dict := t.dict, link := t.link, health := s.settledHealth t, store := s.settledStore t })) ∧
      (∀ ops, inFlight s < 64 → parseRequest (payloadOf l) = some ops →
        (octetAt (payloadOf l) 0 = 0 → digestBad s (hopless l) (payloadOf l) = false →
          ∃ t q, exec (.dictRequestReceive p l) s = .next t ∧ t.dict.queue = s.dict.queue ++ [q] ∧ q.port = p.val ∧
            q.role = .observer ∧ q.header = hopless l ∧ q.payload = payloadOf l ∧
            t.dict = { s.dict with requests := wrapInc s.dict.requests, queue := t.dict.queue } ∧
            t = { s with dict := t.dict, health := s.settledHealth t, store := s.settledStore t }) ∧
        (octetAt (payloadOf l) 0 ≠ 0 → (keyOf s (roleNumbered (octetAt (payloadOf l) 0))).key = none →
          (let a : Answer := ⟨none, wholeBody (payloadOf l) 0x0107, none, none, true⟩
           ∃ t, exec (.dictRequestReceive p l) s = .next t ∧
             t.dict = { s.dict with requests := wrapInc s.dict.requests, answers := (a :: s.dict.answers).take 256 } ∧
             t.link = { s.link with own := s.link.own ++ [a] } ∧
             t = { s with dict := t.dict, link := t.link, health := s.settledHealth t, store := s.settledStore t })) ∧
        (octetAt (payloadOf l) 0 ≠ 0 → (keyOf s (roleNumbered (octetAt (payloadOf l) 0))).key ≠ none →
          verifyKey s (hopless l) (payloadOf l) = none →
          (let a : Answer := ⟨none, wholeBody (payloadOf l) 0x0106, none, none, true⟩
           ∃ t, exec (.dictRequestReceive p l) s = .next t ∧
             t.dict = { s.dict with requests := wrapInc s.dict.requests, authFails := satInc s.dict.authFails
                                    answers := (a :: s.dict.answers).take 256 } ∧
             t.link = { s.link with own := s.link.own ++ [a] } ∧
             t = { s with dict := t.dict, link := t.link, health := s.settledHealth t, store := s.settledStore t }))))

/-- Requests that run (R328, R332, R337, R338): the oldest request runs when the reserve of the frame covers its whole cost, is
charged, leaves the queue, and leaves an answer, unless it is QUIET and no record is refused; without the reserve it waits,
and so does a module without requests. -/
def Obligations.RequestsRun : Prop :=
  ∀ s : State, live s = true →
    (s.dict.queue = [] →
      ∃ t, exec .dictRequestExecute s = .next t ∧ t = { s with health := s.settledHealth t, store := s.settledStore t }) ∧
    (∀ q rest, s.dict.queue = q :: rest →
      (let a := runRequest q s
       let body := answerBody q a s.time.cycTw
       let cost := requestCost q a body
       (s.time.reserveLeft < cost →
         ∃ t, exec .dictRequestExecute s = .next t ∧ t = { s with health := s.settledHealth t, store := s.settledStore t }) ∧
       (cost ≤ s.time.reserveLeft →
         ∃ t, exec .dictRequestExecute s = .next t ∧ t.dict.queue = rest ∧
           t.time.reserveLeft = s.time.reserveLeft - cost ∧ t.pending = s.pending ∧ t.out = s.out ∧
           t.dict.replay = s.dict.replay ∧
           t.link.own = s.link.own ++ (if (octetAt q.payload 1).testBit 1 = true ∧ a.refused = false then []
             else [⟨if q.role = .observer then none else some q.tag16, body, q.key, none, true⟩]))))

/-- Keys and the replay store (R324, R325, R327). An accepted key takes effect with the next generation, and the one before it
stays for its grace; a key of zeros is out of range; the end of a grace ends the earlier key; and an expiry drops the replay
entries whose ISSUED has left the window. -/
def Obligations.KeysAndReplay : Prop :=
  ∀ s : State, live s = true →
    (∀ (which : Role) (k : BitVec 256), which ≠ .observer → k ≠ 0 →
      ∃ t, exec (.keyWrite .custodian which k) s = .next t ∧ t.out = .answer 0 [] :: s.out ∧
        keyOf t which = ⟨some k, (keyOf s which).gen + 1, (keyOf s which).key,
          s.time.pt + cfgAt s 0x1202 0 * 256000000000⟩ ∧
        (∀ r, r ≠ which → keyOf t r = keyOf s r) ∧
        t = { s with dict := t.dict, out := t.out, health := s.settledHealth t, store := s.settledStore t }) ∧
    (∀ which : Role, which ≠ .observer →
      (∃ t, exec (.keyWrite .custodian which 0) s = .next t ∧ s.AnsweredOnly t 0x0201) ∧
      (∀ k, ∃ t, exec (.keyWrite .operator which k) s = .next t ∧ s.AnsweredOnly t 0x0105)) ∧
    (∀ r, ∃ t, exec (.keyGraceExpiry r) s = .next t ∧
      (r ≠ .observer → keyOf t r = { keyOf s r with prev := none }) ∧ (∀ x, x ≠ r → keyOf t x = keyOf s x) ∧
      t = { s with dict := t.dict, health := s.settledHealth t, store := s.settledStore t }) ∧
    (∃ t, exec .replayEntryExpiry s = .next t ∧
      t.dict = { s.dict with replay := s.dict.replay.filter fun e => issuedOk s e.issued } ∧
      t = { s with dict := t.dict, health := s.settledHealth t, store := s.settledStore t })

/-- Writes of entries (R319, R322, R323, R339, R354, R360, R430). A pair that names nothing, a read-only entry, a role too low
and a value too wide are refused, in this order; a staged entry takes its value into the shadow; a stored entry takes it at
once; and IDENTITY_SERIAL_MATCH is a guard. A counter, a peak and a lost-record count takes 0 alone; what 0 makes of a peak, the
present value, is the model's reading (notes/assumptions/72.md). -/
def Obligations.EntryWrites : Prop :=
  (∀ (s : State) (r : Role), live s = true →
    ∀ p ∈ [(key 0x1220 0, { s with dict.authFails := 0 }), (key 0x1220 1, { s with dict.duplicates := 0 }),
        (key 0x3804 1, { s with aux.missed := 0 }), (key 0x3820 4, { s with aux.ring.lost := 0 }),
        (key 0x5210 4, { s with ev.ring.lost := 0 }), (key 0x4B01 0, { s with buf.overrun := false }),
        (key 0x4B01 1, { s with buf.overrunCycles := 0 }), (key 0x4B00 6, { s with buf.peak := s.buf.depth }),
        (key 0x4B05 2, { s with buf.reservePeak := reserveFill s })],
      ∃ row, lookup (keyIdx p.1) (keySub p.1) = some row ∧ (roleOk r row.role = true →
        (∃ t, exec (.registerWrite r p.1 0) s = .next t ∧ s.Accepted t p.2) ∧
        (∀ v, 0 < v → v < 2 ^ (8 * row.ty.size) → ∃ t, exec (.registerWrite r p.1 v) s = .next t ∧ s.AnsweredOnly t 0x0201))) ∧
  (∀ (s : State) (r : Role) (c : Fin 128), live s = true → roleOk r .operator = true →
    (∃ t, exec (.registerWrite r (chanKey 4 c.val) 0) s = .next t ∧
      s.Accepted t { s with chans := updAt (fun x => { x with ovrCount := 0 }) c.val s.chans }) ∧
    (∀ v, 0 < v → v < 2 ^ 32 → ∃ t, exec (.registerWrite r (chanKey 4 c.val) v) s = .next t ∧ s.AnsweredOnly t 0x0201)) ∧
  ∀ (s : State) (r : Role) (k v : Nat), live s = true →
    (lookup (keyIdx k) (keySub k) = none →
      (∃ t, exec (.registerWrite r k v) s = .next t ∧ s.AnsweredOnly t (if indexNamed (keyIdx k) then 0x0102 else 0x0101)) ∧
      (∃ t, exec (.stagedWrite r k v) s = .next t ∧ s.AnsweredOnly t (if indexNamed (keyIdx k) then 0x0102 else 0x0101))) ∧
    (∀ row, lookup (keyIdx k) (keySub k) = some row →
      (row.acc = .ro → ∃ t, exec (.registerWrite r k v) s = .next t ∧ s.AnsweredOnly t 0x0103) ∧
      (row.acc ≠ .ro → roleOk r row.role = false →
        (∃ t, exec (.registerWrite r k v) s = .next t ∧ s.AnsweredOnly t 0x0105) ∧
        (∃ t, exec (.stagedWrite r k v) s = .next t ∧ s.AnsweredOnly t 0x0105)) ∧
      (row.acc ≠ .ro → roleOk r row.role = true → 2 ^ (8 * row.ty.size) ≤ v →
        (∃ t, exec (.registerWrite r k v) s = .next t ∧ s.AnsweredOnly t 0x0202) ∧
        (∃ t, exec (.stagedWrite r k v) s = .next t ∧ s.AnsweredOnly t 0x0202)) ∧
      (row.acc = .rws → roleOk r row.role = true → v < 2 ^ (8 * row.ty.size) → valueTest row k v s = 0 →
        ∃ t, exec (.stagedWrite r k v) s = .next t ∧ t.out = .answer 0 [] :: s.out ∧
          t.conf = { s.conf with shadow := kvSet s.conf.shadow k (normalForm row.ty v) } ∧
          t = { s with conf := t.conf, out := t.out, health := s.settledHealth t, store := s.settledStore t }) ∧
      (row.acc = .rw → storedRw (keyIdx k) = true → roleOk r row.role = true → v < 2 ^ (8 * row.ty.size) →
        valueTest row k v s = 0 →
        ∃ t, exec (.registerWrite r k v) s = .next t ∧ t.out = .answer 0 [] :: s.out ∧
          t.conf = { s.conf with cfg := cfgSet s.conf.cfg k v } ∧
          t = { s with conf := t.conf, out := t.out, health := s.settledHealth t, store := t.store })) ∧
    (∃ t, exec (.identitySerialMatch .custodian moduleSerial) s = .next t ∧ s.AnsweredOnly t 0) ∧
    (∀ w, w ≠ moduleSerial → ∃ t, exec (.identitySerialMatch .custodian w) s = .next t ∧ s.AnsweredOnly t 0x0201)

/-- Three writes with a rule of their own (R30, R202, R406): TIME_EPOCH, the Custodian's, in READY, after which the event records
that stand keep their place before later ones (notes/assumptions/84.md); the clearing of a unit's
missed events by a write of 0; and PENNANT_DIP, which lowers a pennant whose condition has ended, and is refused while it
lasts or in the engine cycle of a raise. -/
def Obligations.SingleWrites : Prop :=
  ∀ (s : State) (r : Role), live s = true →
    (∀ v : BitVec 16,
      (r ≠ .custodian → ∃ t, exec (.timeEpochWrite r v) s = .next t ∧ s.AnsweredOnly t 0x0105) ∧
      (s.power.mode = .ready →
        ∃ t, exec (.timeEpochWrite .custodian v) s = .next t ∧ t.out = .answer 0 [] :: s.out ∧
          t = { s with time := { s.time with epoch := v }, ev := { s.ev with fixed := s.ev.ring.recs.length }, out := t.out,
                       health := s.settledHealth t, store := s.settledStore t }) ∧
      (s.power.mode ≠ .ready → ∃ t, exec (.timeEpochWrite .custodian v) s = .next t ∧ s.AnsweredOnly t 0x0301)) ∧
    (∀ u : Fin 8, roleOk r .operator = true →
      (∃ t, exec (.trgMissClear r u 0) s = .next t ∧ t.out = .answer 0 [] :: s.out ∧
        t.units = updAt (fun x => { x with missTotal := 0, missBy := List.replicate 8 0, log := [] }) u.val s.units ∧
        t = { s with units := t.units, out := t.out, health := s.settledHealth t, store := s.settledStore t }) ∧
      (∀ v : BitVec 32, v ≠ 0 → ∃ t, exec (.trgMissClear r u v) s = .next t ∧ s.AnsweredOnly t 0x0201)) ∧
    (∀ n : BitVec 8, roleOk r .operator = true →
      (63 < n.toNat → ∃ t, exec (.pennantDip r n) s = .next t ∧ s.AnsweredOnly t 0x0201) ∧
      (n.toNat ≤ 63 → pnLevel s n.toNat = true ∨
          (s.health.pennants.getD n.toNat Pennant.init).cycle = some s.time.cyc →
        ∃ t, exec (.pennantDip r n) s = .next t ∧ s.AnsweredOnly t 0x0301) ∧
      (n.toNat ≤ 63 → pnLevel s n.toNat = false →
        (s.health.pennants.getD n.toNat Pennant.init).cycle ≠ some s.time.cyc → (n = 0 → halfMastNow s = false) →
        ∃ t, exec (.pennantDip r n) s = .next t ∧ t.out = .answer 0 [] :: s.out ∧
          (∀ q, t.health.pennants[n.toNat]? = some q → q.raised = false ∧ q.count = 0) ∧
          t = { s with out := t.out, health := s.settledHealth t, store := s.settledStore t }))

/-- The shadow and the hoist (R340, R341). An accepted hoist takes the shadow whole as its content, waits for the second tick
after the tick that follows, and leaves an empty shadow; a second one is refused while it waits; and SHADOW_DISCARD removes
the entries that it names. -/
def Obligations.ShadowAndHoist : Prop :=
  ∀ (s : State) (r : Role),
    (∀ k : BitVec 128, s.power.mode = .ready ∨ s.power.mode = .run → roleOk r (hoistRole s) = true →
      calBars s (directTick s) = false →
      (s.conf.hoist = none → (hoistTests s s.conf.shadow k (directCourse s) (aroundTick s (directTick s))).2 = 0 →
        ∃ t, exec (.hoist r k) s = .next t ∧ t.out = .answer 0 (octetsOf 8 (directTick s).toNat) :: s.out ∧
          t.conf = { s.conf with hoist := some ⟨s.conf.shadow, k, r⟩, shadow := [] } ∧
          t.act = { s.act with sched := s.act.sched ++ [⟨none, 0, 0, r, .hoist, directTick s, 0, 3, s.time.tw⟩] } ∧
          t = { s with conf := t.conf, act := t.act, out := t.out, health := s.settledHealth t, store := s.settledStore t }) ∧
      (s.conf.hoist.isSome = true → ∃ t, exec (.hoist r k) s = .next t ∧ s.AnsweredOnly t 0x0304)) ∧
    (live s = true → (∀ p ∈ s.conf.shadow, roleOk r (writeRole p.1) = true) → roleOk r .operator = true →
      (∃ t, exec (.shadowDiscard r 0xFFFFFFFF) s = .next t ∧ t.out = .answer 0 [] :: s.out ∧
        t = { s with conf := { s.conf with shadow := [] }, out := t.out, health := s.settledHealth t, store := s.settledStore t }) ∧
      (∀ v : BitVec 32, v.toNat < 2 ^ 24 → roleOk r (writeRole v.toNat) = true →
        ∃ t, exec (.shadowDiscard r v) s = .next t ∧ t.out = .answer 0 [] :: s.out ∧
          t.conf = { s.conf with shadow := s.conf.shadow.filter fun p => decide (p.1 ≠ v.toNat) } ∧
          t = { s with conf := t.conf, out := t.out, health := s.settledHealth t, store := s.settledStore t }))

/-- Writes of the stores end (R353 to R355, R359). A bank that reads back right is valid and its image goes on to the slot
memory; one that does not is written once more, and a second failure makes it faulty; a mirror that reads back right is
valid, and one that does not is repeated up to three times, unless the bus has taken the slot memory for unreadable: three
transfers in a row without acknowledgement lead to 100 kHz, three more to that (R357); and a copy of the keep region is valid or
has no content. -/
def Obligations.StoreWrites : Prop :=
  ∀ s : State,
    (∀ target im second, live s = true → s.store.writing = some (target, im, second) →
      (s.store.again = false →
        ∃ t, exec (.imageWriteDone true) s = .next t ∧ t.store.banks = s.store.banks.set target (some im) ∧
          t.store.writing = none ∧ t.store.faulty = s.store.faulty ∧
          (slotWritable s = true → t.store.mirroring.isSome = true) ∧
          t = { s with health := s.settledHealth t, store := t.store }) ∧
      (∃ t, exec (.imageWriteDone false) s = .next t ∧ t.store.banks = s.store.banks ∧
        (second = false → t.store.writing = some (target, im, true) ∧ t.store.faulty = s.store.faulty) ∧
        (second = true → t.store.writing = none ∧ t.store.faulty = s.store.faulty.set target true) ∧
        t = { s with health := s.settledHealth t, store := t.store })) ∧
    (∀ target im n, live s = true → s.store.mirroring = some (target, im, n) →
      (∀ l, s.store.mirrorNext = none → (s.store.slotBus.run l).unreadable = false →
        ∃ t, exec (.slotMirrorDone ⟨l, true⟩) s = .next t ∧ t.store.slotBanks = s.store.slotBanks.set target (some im) ∧
          t.store.mirroring = none ∧ t.store.mirrorLast = im.writtenTw ∧ t.store.slotBus = s.store.slotBus.run l ∧
          t = { s with health := s.settledHealth t, store := t.store }) ∧
      (∀ l, n < 3 → (s.store.slotBus.run l).unreadable = false →
        ∃ t, exec (.slotMirrorDone ⟨l, false⟩) s = .next t ∧ t.store.mirroring = some (target, im, n + 1) ∧
          t.store.slotBanks = s.store.slotBanks ∧ t.store.slotBus = s.store.slotBus.run l ∧
          t = { s with health := s.settledHealth t, store := t.store }) ∧
      (∀ l ok, s.store.mirrorNext = none → (ok = false ∧ 3 ≤ n) ∨ (s.store.slotBus.run l).unreadable = true →
        ∃ t, exec (.slotMirrorDone ⟨l, ok⟩) s = .next t ∧ t.store.mirroring = none ∧ t.store.mirrorState = 3 ∧
          t.store.slotBanks = s.store.slotBanks ∧ t = { s with health := s.settledHealth t, store := t.store })) ∧
    (∀ (b : SlotBus), b.unreadable = false →
      b.run [true] = { b with fails := 0 } ∧
      (b.fails = 0 → b.run [false, false] = { b with fails := 2 } ∧
        b.run [false, false, false] = (if b.slow then { b with fails := 0, unreadable := true } else { b with slow := true, fails := 0 }) ∧
        b.run [false, false, true] = b)) ∧
    (∀ target rec ok, s.power.mode.clocked = true → s.store.keepWriting = some (target, rec) →
      ∃ t, exec (.keepRegionWriteDone ok) s = .next t ∧
        t.store.keep = s.store.keep.set target (if ok then some rec else none) ∧
        t = { s with health := s.settledHealth t, store := t.store })

/-- The clock sources (R374 to R379). A source that stops is neither running nor qualified and is counted; where it was in use,
a switch to another source begins; where the OCXO stops in use, the module is bound for SAFE, which only BOOT then ends; 1 ms of
edges make a source running; a measurement of REFCLK10 counts towards its ten in the window or starts them anew; and the end of
a switch puts its destination in use, with the OCXO's tuning voltage held at its mean in a switch to the OCXO (R377). Under rule
1 OCXO_TUNE_HELD stays 0 and the voltage is the factory value, the model's reading (notes/assumptions/65.md). -/
def Obligations.ClockSources : Prop :=
  ∀ s : State, s.power.mode.clocked = true →
    (∀ src, (srcAt s src).running = true →
      ∃ t, exec (.sourceStop src) s = .next t ∧ srcAt t src = ⟨false, false, 0⟩ ∧ t.clocks.stops = satInc s.clocks.stops ∧
        (s.clocks.switching = none → s.clocks.inUse ≠ src → t.clocks.switching = none) ∧
        (s.clocks.switching = none → s.clocks.inUse = src → src ≠ .ocxo → s.clocks.ocxo.running = true →
          ∃ w, t.clocks.switching = some w ∧ w.dest ≠ src ∧ w.fromStopped = true) ∧
        (src = .ocxo → s.clocks.inUse = .ocxo →
          s.power.mode = .calibrate ∨ s.power.mode = .ready ∨ s.power.mode = .run → t.power.safeDue = true) ∧
        (src = .ocxo → t.power.bootOnly = true ∧ t.clocks.ocxoDown = true) ∧
        t = { s with power := t.power, cal := { s.cal with fromWarm := t.cal.fromWarm }, clocks := t.clocks
                     health := s.settledHealth t, store := s.settledStore t }) ∧
    (∀ src, s.clocks.recovered.length = 4 →
      ∃ t, exec (.sourceRunning src) s = .next t ∧ srcAt t src = { srcAt s src with running := true } ∧
        (∀ x, x ≠ src → srcAt t x = srcAt s x) ∧ (src ≠ .ocxo → t.power = s.power) ∧ (src = .ocxo → t.clocks.ocxoDown = false) ∧
        t = { s with power := t.power, clocks := t.clocks, health := s.settledHealth t, store := s.settledStore t }) ∧
    (∀ ppb : Int, s.clocks.refclk.running = true → s.clocks.ocxo.running = true →
      ∃ t, exec (.refclk10Measure ppb) s = .next t ∧
        (let n := if -2000 ≤ ppb ∧ ppb ≤ 2000 then min (s.clocks.refclk.good + 1) 10 else 0
         t.clocks = { s.clocks with refclk := ⟨true, decide (10 ≤ n), n⟩, refOffset := some ppb }) ∧
        t = { s with clocks := t.clocks, health := s.settledHealth t, store := s.settledStore t }) ∧
    (∀ w, s.clocks.switching = some w →
      ∃ t, exec .sourceSwitchComplete s = .next t ∧ t.clocks.inUse = w.dest ∧ t.clocks.switches = satInc s.clocks.switches ∧
        t.clocks.lastSwitch = s.time.tw ∧ t.clocks.tuneHeld = decide (w.dest = .ocxo ∧ cfgAt s 0x5800 0 ≠ 1) ∧
        t.clocks.tune = (if cfgAt s 0x5800 0 = 1 then tuneNominal else if w.dest = .ocxo then tuneMean s else s.clocks.tune) ∧
        (w.port = s.ptp.timingPort → t.clocks.switching = none ∧
          t = { s with clocks := t.clocks, health := s.settledHealth t, store := s.settledStore t }) ∧
        t = { s with power := t.power, cal := { s.cal with fromWarm := t.cal.fromWarm }, clocks := t.clocks
                     health := s.settledHealth t, store := s.settledStore t })

/-- Levels and gating (R382, R384). The end of a level change puts the level in force; a block that goes idle under a request
is gated; and a request that runs out fails and is counted. A domain without a request ignores both. -/
def Obligations.LevelsAndGates : Prop :=
  ∀ s : State, live s = true →
    (∀ windowNs l, s.clocks.perfTarget = some l →
      ∃ t, exec (.perfLevelChangeDone windowNs) s = .next t ∧
        t.clocks = { s.clocks with perfNow := l, perfTarget := none, perfLast := some windowNs } ∧
        t = { s with clocks := t.clocks, health := s.settledHealth t, store := s.settledStore t }) ∧
    (∀ d : Fin 11,
      (∃ t, exec (.gateIdleSignal d) s = .next t ∧
        t.clocks.gateState = (if gateOf s d.val = 1 then s.clocks.gateState.set d.val 2 else s.clocks.gateState) ∧
        t = { s with clocks := { s.clocks with gateState := t.clocks.gateState },
                     health := s.settledHealth t, store := s.settledStore t }) ∧
      (∃ t, exec (.gateTimeout d) s = .next t ∧
        (gateOf s d.val = 1 → t.clocks.gateState = s.clocks.gateState.set d.val 0 ∧
          t.clocks.gateFails = updAt satInc d.val s.clocks.gateFails) ∧
        (gateOf s d.val ≠ 1 → t.clocks = s.clocks) ∧
        t = { s with clocks := t.clocks, health := s.settledHealth t, store := s.settledStore t }))
end

