-- ==== Sys2Proof/Laws/Config.lean ====
section
/-! SUPPORT. The configuration stores: every operation keeps the canonical form (R350, R433), and what is read after a
write. -/

namespace Sys2Proof.Machine

theorem kvSorted_weaken (a b : Option Nat) (l : KV) (h : kvSorted a l = true)
    (hab : ∀ x y, b = some x → a = some y → x ≤ y) (hn : a = none → b = none) : kvSorted b l = true := by
  cases l with
  | nil => rfl
  | cons p l =>
    simp only [kvSorted, Bool.and_eq_true] at h ⊢
    refine ⟨?_, h.2⟩
    cases b with
    | none => rfl
    | some x =>
      cases a with
      | none => exact absurd (hn rfl) (by simp)
      | some y => have := hab x y rfl rfl; simp only [decide_eq_true_eq] at h ⊢; omega

theorem kvSet_sorted (lo : Option Nat) (l : KV) (k v : Nat) (h : kvSorted lo l = true) (hk : ∀ b, lo = some b → b < k) :
    kvSorted lo (kvSet l k v) = true := by
  induction l generalizing lo with
  | nil => cases lo <;> simp_all [kvSet, kvSorted]
  | cons p l ih =>
    obtain ⟨k', v'⟩ := p
    simp only [kvSorted, Bool.and_eq_true] at h
    unfold kvSet
    split
    · rename_i hlt
      simp only [kvSorted, Bool.and_eq_true, decide_eq_true_eq]
      exact ⟨by cases lo <;> simp_all, hlt, h.2⟩
    · split
      · rename_i he; subst he
        simp only [kvSorted, Bool.and_eq_true]; exact h
      · simp only [kvSorted, Bool.and_eq_true]
        exact ⟨h.1, ih (some k') h.2 (by rintro b ⟨⟩; omega)⟩

theorem kvDel_sorted (lo : Option Nat) (l : KV) (k : Nat) (h : kvSorted lo l = true) : kvSorted lo (kvDel l k) = true := by
  induction l generalizing lo with
  | nil => rfl
  | cons p l ih =>
    obtain ⟨k', v'⟩ := p
    have h' := h
    simp only [kvSorted, Bool.and_eq_true] at h'
    unfold kvDel
    split
    · refine kvSorted_weaken (some k') lo l h'.2 ?_ (by simp)
      rintro x y rfl ⟨⟩
      have := h'.1
      simp only [decide_eq_true_eq] at this; omega
    · simp only [kvSorted, Bool.and_eq_true]
      exact ⟨h'.1, ih (some k') h'.2⟩

theorem kvDel_all (p : Nat × Nat → Bool) (l : KV) (k : Nat) (h : l.all p = true) : (kvDel l k).all p = true := by
  induction l with
  | nil => rfl
  | cons q l ih =>
    obtain ⟨k', v'⟩ := q
    simp only [List.all_cons, Bool.and_eq_true] at h
    unfold kvDel
    split
    · exact h.2
    · simp only [List.all_cons, Bool.and_eq_true]; exact ⟨h.1, ih h.2⟩

theorem kvSet_all (p : Nat × Nat → Bool) (l : KV) (k v : Nat) (h : l.all p = true) (hp : p (k, v) = true) :
    (kvSet l k v).all p = true := by
  induction l with
  | nil => simp [kvSet, hp]
  | cons q l ih =>
    obtain ⟨k', v'⟩ := q
    simp only [List.all_cons, Bool.and_eq_true] at h
    unfold kvSet
    split
    · simp only [List.all_cons, Bool.and_eq_true]; exact ⟨hp, h⟩
    · split
      · simp only [List.all_cons, Bool.and_eq_true]; exact ⟨hp, h.2⟩
      · simp only [List.all_cons, Bool.and_eq_true]; exact ⟨h.1, ih h.2⟩

/-- Committing a value keeps the canonical form. -/
theorem cfgSet_wf (c : KV) (k v : Nat) (h : cfgWf c = true) : cfgWf (cfgSet c k v) = true := by
  unfold cfgWf at h ⊢
  simp only [Bool.and_eq_true] at h ⊢
  unfold cfgSet
  split
  · exact ⟨kvDel_sorted _ _ _ h.1, kvDel_all _ _ _ h.2⟩
  · rename_i hv
    exact ⟨kvSet_sorted _ _ _ _ h.1 (by simp), kvSet_all _ _ _ _ h.2 (by simpa using hv)⟩

theorem foldl_cfgSet_wf {α : Type} (f : KV → α → KV) (hf : ∀ c a, cfgWf c = true → cfgWf (f c a) = true) (l : List α) (c : KV)
    (h : cfgWf c = true) : cfgWf (l.foldl f c) = true := by
  induction l generalizing c with
  | nil => exact h
  | cons a l ih => exact ih _ (hf _ _ h)

/-- Applying a content keeps the canonical form. -/
theorem cfgApply_wf (c content : KV) (h : cfgWf c = true) : cfgWf (cfgApply c content) = true :=
  foldl_cfgSet_wf _ (fun _ _ => cfgSet_wf _ _ _) _ _ h

/-- A configuration read from records has the canonical form. -/
theorem cfgOfRecords_wf (l : KV) : cfgWf (cfgOfRecords l) = true := by
  refine foldl_cfgSet_wf _ (fun c a h => ?_) _ _ rfl
  split
  · exact cfgSet_wf _ _ _ h
  · exact h

theorem slotOverride_wf (l c : KV) (h : cfgWf c = true) : cfgWf (slotOverride l c) = true := by
  refine foldl_cfgSet_wf _ (fun c a h => ?_) _ _ h
  split
  · exact cfgSet_wf _ _ _ h
  · exact h

theorem slotFallback_wf (c : KV) (h : cfgWf c = true) : cfgWf (slotFallback c) = true :=
  foldl_cfgSet_wf _ (fun _ _ => cfgSet_wf _ _ _) _ _ h

/-- The image's configuration, with the slot's part, is in the canonical form. -/
theorem bootImageCfg_wf (own : KV) (code : Nat) (im : Option Image) (h : cfgWf own = true) :
    cfgWf (bootImageCfg own code im) = true := by
  unfold bootImageCfg
  split
  · exact slotFallback_wf _ h
  · dsimp only
    split
    · exact cfgSet_wf _ _ _ (cfgSet_wf _ _ _ (cfgOfRecords_wf _))
    · split
      · exact cfgSet_wf _ _ _ (slotOverride_wf _ _ h)
      · split
        · exact cfgSet_wf _ _ _ (slotFallback_wf _ h)
        · exact slotOverride_wf _ _ h

/-- BOOT loads a configuration in the canonical form. -/
theorem bootCfg_wf (own : KV) (code : Nat) (im : Option Image) (h : cfgWf own = true) : cfgWf (bootCfg own code im) = true := by
  have k := bootImageCfg_wf own code im h
  unfold bootCfg
  dsimp only
  split
  · exact k
  · exact cfgSet_wf _ _ _ k

theorem kvGet_kvSet_same (l : KV) (k v : Nat) : kvGet (kvSet l k v) k = some v := by
  induction l with
  | nil => simp [kvSet, kvGet]
  | cons p l ih =>
    obtain ⟨k', v'⟩ := p
    unfold kvSet
    split
    · simp [kvGet]
    · split
      · simp [kvGet]
      · rename_i h1 h2; simp [kvGet, ih, Ne.symm h2]

theorem kvGet_kvSet_other (l : KV) (k j v : Nat) (h : j ≠ k) : kvGet (kvSet l k v) j = kvGet l j := by
  induction l with
  | nil => simp [kvSet, kvGet, Ne.symm h]
  | cons p l ih =>
    obtain ⟨k', v'⟩ := p
    unfold kvSet
    split
    · simp [kvGet, Ne.symm h]
    · split
      · rename_i h2; subst h2; simp [kvGet, Ne.symm h]
      · simp [kvGet, ih]

theorem kvGet_below (l : KV) (b k : Nat) (h : kvSorted (some b) l = true) (hk : k ≤ b) : kvGet l k = none := by
  induction l generalizing b with
  | nil => rfl
  | cons p l ih =>
    obtain ⟨k', v'⟩ := p
    simp only [kvSorted, Bool.and_eq_true, decide_eq_true_eq] at h
    simp only [kvGet]
    rw [if_neg (by omega), ih k' h.2 (by omega)]

theorem kvGet_kvDel_same (lo : Option Nat) (l : KV) (k : Nat) (h : kvSorted lo l = true) : kvGet (kvDel l k) k = none := by
  induction l generalizing lo with
  | nil => rfl
  | cons p l ih =>
    obtain ⟨k', v'⟩ := p
    simp only [kvSorted, Bool.and_eq_true] at h
    unfold kvDel
    split
    · rename_i he; subst he; exact kvGet_below _ _ _ h.2 (le_refl _)
    · rename_i hne; simp only [kvGet, if_neg hne]; exact ih _ h.2

theorem kvGet_kvDel_other (l : KV) (k j : Nat) (h : j ≠ k) : kvGet (kvDel l k) j = kvGet l j := by
  induction l with
  | nil => rfl
  | cons p l ih =>
    obtain ⟨k', v'⟩ := p
    unfold kvDel
    split
    · rename_i he; subst he; simp [kvGet, Ne.symm h]
    · simp [kvGet, ih]

/-- A committed value reads back. -/
theorem cfgGet_cfgSet_same (c : KV) (k v : Nat) (h : cfgWf c = true) : cfgGet (cfgSet c k v) k = v := by
  unfold cfgWf at h
  simp only [Bool.and_eq_true] at h
  unfold cfgSet cfgGet
  split
  · rename_i hv; rw [kvGet_kvDel_same _ _ _ h.1]; exact hv.symm
  · rw [kvGet_kvSet_same]; rfl

/-- Every other entry keeps its value. -/
theorem cfgGet_cfgSet_other (c : KV) (k j v : Nat) (h : j ≠ k) : cfgGet (cfgSet c k v) j = cfgGet c j := by
  unfold cfgSet cfgGet
  split
  · rw [kvGet_kvDel_other _ _ _ h]
  · rw [kvGet_kvSet_other _ _ _ _ h]

end Sys2Proof.Machine
end

