-- ==== Sys2Proof/Laws/Frames.lean ====
section
/-! SUPPORT. The frame of every operation over the state: which parts of the state it leaves as they are. One lemma for
each operation; simp uses its parts. -/

namespace Sys2Proof.Machine

@[simp] theorem forNat_pending (n : Nat) (f : Nat → State → State) (s : State) (h : ∀ k s, (f k s).pending = s.pending) :
    (forNat n f s).pending = s.pending := by
  unfold forNat; generalize List.range n = l; induction l generalizing s with
  | nil => rfl
  | cons a l ih => simp [List.foldl, ih, h]

@[simp] theorem forList_pending {α : Type} (l : List α) (f : α → State → State) (s : State) (h : ∀ k s, (f k s).pending = s.pending) :
    (forList l f s).pending = s.pending := by
  unfold forList; induction l generalizing s with
  | nil => rfl
  | cons a l ih => simp [List.foldl, ih, h]

@[simp] theorem whenever_pending (b : Bool) (f : State → State) (s : State) (h : ∀ s, (f s).pending = s.pending) :
    (whenever b f s).pending = s.pending := by
  unfold whenever; split <;> simp [h]

@[simp] theorem iteS_pending (c : Prop) [Decidable c] (a b : State) : (if c then a else b).pending = if c then a.pending else b.pending := by
  split <;> rfl

@[simp] theorem forNat_power (n : Nat) (f : Nat → State → State) (s : State) (h : ∀ k s, (f k s).power = s.power) :
    (forNat n f s).power = s.power := by
  unfold forNat; generalize List.range n = l; induction l generalizing s with
  | nil => rfl
  | cons a l ih => simp [List.foldl, ih, h]

@[simp] theorem forList_power {α : Type} (l : List α) (f : α → State → State) (s : State) (h : ∀ k s, (f k s).power = s.power) :
    (forList l f s).power = s.power := by
  unfold forList; induction l generalizing s with
  | nil => rfl
  | cons a l ih => simp [List.foldl, ih, h]

@[simp] theorem whenever_power (b : Bool) (f : State → State) (s : State) (h : ∀ s, (f s).power = s.power) :
    (whenever b f s).power = s.power := by
  unfold whenever; split <;> simp [h]

@[simp] theorem iteS_power (c : Prop) [Decidable c] (a b : State) : (if c then a else b).power = if c then a.power else b.power := by
  split <;> rfl

@[simp] theorem forNat_time (n : Nat) (f : Nat → State → State) (s : State) (h : ∀ k s, (f k s).time = s.time) :
    (forNat n f s).time = s.time := by
  unfold forNat; generalize List.range n = l; induction l generalizing s with
  | nil => rfl
  | cons a l ih => simp [List.foldl, ih, h]

@[simp] theorem forList_time {α : Type} (l : List α) (f : α → State → State) (s : State) (h : ∀ k s, (f k s).time = s.time) :
    (forList l f s).time = s.time := by
  unfold forList; induction l generalizing s with
  | nil => rfl
  | cons a l ih => simp [List.foldl, ih, h]

@[simp] theorem whenever_time (b : Bool) (f : State → State) (s : State) (h : ∀ s, (f s).time = s.time) :
    (whenever b f s).time = s.time := by
  unfold whenever; split <;> simp [h]

@[simp] theorem iteS_time (c : Prop) [Decidable c] (a b : State) : (if c then a else b).time = if c then a.time else b.time := by
  split <;> rfl

@[simp] theorem forNat_act (n : Nat) (f : Nat → State → State) (s : State) (h : ∀ k s, (f k s).act = s.act) :
    (forNat n f s).act = s.act := by
  unfold forNat; generalize List.range n = l; induction l generalizing s with
  | nil => rfl
  | cons a l ih => simp [List.foldl, ih, h]

@[simp] theorem forList_act {α : Type} (l : List α) (f : α → State → State) (s : State) (h : ∀ k s, (f k s).act = s.act) :
    (forList l f s).act = s.act := by
  unfold forList; induction l generalizing s with
  | nil => rfl
  | cons a l ih => simp [List.foldl, ih, h]

@[simp] theorem whenever_act (b : Bool) (f : State → State) (s : State) (h : ∀ s, (f s).act = s.act) :
    (whenever b f s).act = s.act := by
  unfold whenever; split <;> simp [h]

@[simp] theorem iteS_act (c : Prop) [Decidable c] (a b : State) : (if c then a else b).act = if c then a.act else b.act := by
  split <;> rfl

@[simp] theorem forNat_dict (n : Nat) (f : Nat → State → State) (s : State) (h : ∀ k s, (f k s).dict = s.dict) :
    (forNat n f s).dict = s.dict := by
  unfold forNat; generalize List.range n = l; induction l generalizing s with
  | nil => rfl
  | cons a l ih => simp [List.foldl, ih, h]

@[simp] theorem forList_dict {α : Type} (l : List α) (f : α → State → State) (s : State) (h : ∀ k s, (f k s).dict = s.dict) :
    (forList l f s).dict = s.dict := by
  unfold forList; induction l generalizing s with
  | nil => rfl
  | cons a l ih => simp [List.foldl, ih, h]

@[simp] theorem whenever_dict (b : Bool) (f : State → State) (s : State) (h : ∀ s, (f s).dict = s.dict) :
    (whenever b f s).dict = s.dict := by
  unfold whenever; split <;> simp [h]

@[simp] theorem iteS_dict (c : Prop) [Decidable c] (a b : State) : (if c then a else b).dict = if c then a.dict else b.dict := by
  split <;> rfl

@[simp] theorem forNat_store (n : Nat) (f : Nat → State → State) (s : State) (h : ∀ k s, (f k s).store = s.store) :
    (forNat n f s).store = s.store := by
  unfold forNat; generalize List.range n = l; induction l generalizing s with
  | nil => rfl
  | cons a l ih => simp [List.foldl, ih, h]

@[simp] theorem forList_store {α : Type} (l : List α) (f : α → State → State) (s : State) (h : ∀ k s, (f k s).store = s.store) :
    (forList l f s).store = s.store := by
  unfold forList; induction l generalizing s with
  | nil => rfl
  | cons a l ih => simp [List.foldl, ih, h]

@[simp] theorem whenever_store (b : Bool) (f : State → State) (s : State) (h : ∀ s, (f s).store = s.store) :
    (whenever b f s).store = s.store := by
  unfold whenever; split <;> simp [h]

@[simp] theorem iteS_store (c : Prop) [Decidable c] (a b : State) : (if c then a else b).store = if c then a.store else b.store := by
  split <;> rfl

@[simp] theorem forNat_health (n : Nat) (f : Nat → State → State) (s : State) (h : ∀ k s, (f k s).health = s.health) :
    (forNat n f s).health = s.health := by
  unfold forNat; generalize List.range n = l; induction l generalizing s with
  | nil => rfl
  | cons a l ih => simp [List.foldl, ih, h]

@[simp] theorem forList_health {α : Type} (l : List α) (f : α → State → State) (s : State) (h : ∀ k s, (f k s).health = s.health) :
    (forList l f s).health = s.health := by
  unfold forList; induction l generalizing s with
  | nil => rfl
  | cons a l ih => simp [List.foldl, ih, h]

@[simp] theorem whenever_health (b : Bool) (f : State → State) (s : State) (h : ∀ s, (f s).health = s.health) :
    (whenever b f s).health = s.health := by
  unfold whenever; split <;> simp [h]

@[simp] theorem iteS_health (c : Prop) [Decidable c] (a b : State) : (if c then a else b).health = if c then a.health else b.health := by
  split <;> rfl

@[simp] theorem forNat_clocks (n : Nat) (f : Nat → State → State) (s : State) (h : ∀ k s, (f k s).clocks = s.clocks) :
    (forNat n f s).clocks = s.clocks := by
  unfold forNat; generalize List.range n = l; induction l generalizing s with
  | nil => rfl
  | cons a l ih => simp [List.foldl, ih, h]

@[simp] theorem forList_clocks {α : Type} (l : List α) (f : α → State → State) (s : State) (h : ∀ k s, (f k s).clocks = s.clocks) :
    (forList l f s).clocks = s.clocks := by
  unfold forList; induction l generalizing s with
  | nil => rfl
  | cons a l ih => simp [List.foldl, ih, h]

@[simp] theorem whenever_clocks (b : Bool) (f : State → State) (s : State) (h : ∀ s, (f s).clocks = s.clocks) :
    (whenever b f s).clocks = s.clocks := by
  unfold whenever; split <;> simp [h]

@[simp] theorem iteS_clocks (c : Prop) [Decidable c] (a b : State) : (if c then a else b).clocks = if c then a.clocks else b.clocks := by
  split <;> rfl

@[simp] theorem forNat_chans (n : Nat) (f : Nat → State → State) (s : State) (h : ∀ k s, (f k s).chans = s.chans) :
    (forNat n f s).chans = s.chans := by
  unfold forNat; generalize List.range n = l; induction l generalizing s with
  | nil => rfl
  | cons a l ih => simp [List.foldl, ih, h]

@[simp] theorem forList_chans {α : Type} (l : List α) (f : α → State → State) (s : State) (h : ∀ k s, (f k s).chans = s.chans) :
    (forList l f s).chans = s.chans := by
  unfold forList; induction l generalizing s with
  | nil => rfl
  | cons a l ih => simp [List.foldl, ih, h]

@[simp] theorem whenever_chans (b : Bool) (f : State → State) (s : State) (h : ∀ s, (f s).chans = s.chans) :
    (whenever b f s).chans = s.chans := by
  unfold whenever; split <;> simp [h]

@[simp] theorem iteS_chans (c : Prop) [Decidable c] (a b : State) : (if c then a else b).chans = if c then a.chans else b.chans := by
  split <;> rfl

@[simp] theorem forNat_dies (n : Nat) (f : Nat → State → State) (s : State) (h : ∀ k s, (f k s).dies = s.dies) :
    (forNat n f s).dies = s.dies := by
  unfold forNat; generalize List.range n = l; induction l generalizing s with
  | nil => rfl
  | cons a l ih => simp [List.foldl, ih, h]

@[simp] theorem forList_dies {α : Type} (l : List α) (f : α → State → State) (s : State) (h : ∀ k s, (f k s).dies = s.dies) :
    (forList l f s).dies = s.dies := by
  unfold forList; induction l generalizing s with
  | nil => rfl
  | cons a l ih => simp [List.foldl, ih, h]

@[simp] theorem whenever_dies (b : Bool) (f : State → State) (s : State) (h : ∀ s, (f s).dies = s.dies) :
    (whenever b f s).dies = s.dies := by
  unfold whenever; split <;> simp [h]

@[simp] theorem iteS_dies (c : Prop) [Decidable c] (a b : State) : (if c then a else b).dies = if c then a.dies else b.dies := by
  split <;> rfl

@[simp] theorem forNat_ref (n : Nat) (f : Nat → State → State) (s : State) (h : ∀ k s, (f k s).ref = s.ref) :
    (forNat n f s).ref = s.ref := by
  unfold forNat; generalize List.range n = l; induction l generalizing s with
  | nil => rfl
  | cons a l ih => simp [List.foldl, ih, h]

@[simp] theorem forList_ref {α : Type} (l : List α) (f : α → State → State) (s : State) (h : ∀ k s, (f k s).ref = s.ref) :
    (forList l f s).ref = s.ref := by
  unfold forList; induction l generalizing s with
  | nil => rfl
  | cons a l ih => simp [List.foldl, ih, h]

@[simp] theorem whenever_ref (b : Bool) (f : State → State) (s : State) (h : ∀ s, (f s).ref = s.ref) :
    (whenever b f s).ref = s.ref := by
  unfold whenever; split <;> simp [h]

@[simp] theorem iteS_ref (c : Prop) [Decidable c] (a b : State) : (if c then a else b).ref = if c then a.ref else b.ref := by
  split <;> rfl

@[simp] theorem forNat_cal (n : Nat) (f : Nat → State → State) (s : State) (h : ∀ k s, (f k s).cal = s.cal) :
    (forNat n f s).cal = s.cal := by
  unfold forNat; generalize List.range n = l; induction l generalizing s with
  | nil => rfl
  | cons a l ih => simp [List.foldl, ih, h]

@[simp] theorem forList_cal {α : Type} (l : List α) (f : α → State → State) (s : State) (h : ∀ k s, (f k s).cal = s.cal) :
    (forList l f s).cal = s.cal := by
  unfold forList; induction l generalizing s with
  | nil => rfl
  | cons a l ih => simp [List.foldl, ih, h]

@[simp] theorem whenever_cal (b : Bool) (f : State → State) (s : State) (h : ∀ s, (f s).cal = s.cal) :
    (whenever b f s).cal = s.cal := by
  unfold whenever; split <;> simp [h]

@[simp] theorem iteS_cal (c : Prop) [Decidable c] (a b : State) : (if c then a else b).cal = if c then a.cal else b.cal := by
  split <;> rfl

@[simp] theorem forNat_groups (n : Nat) (f : Nat → State → State) (s : State) (h : ∀ k s, (f k s).groups = s.groups) :
    (forNat n f s).groups = s.groups := by
  unfold forNat; generalize List.range n = l; induction l generalizing s with
  | nil => rfl
  | cons a l ih => simp [List.foldl, ih, h]

@[simp] theorem forList_groups {α : Type} (l : List α) (f : α → State → State) (s : State) (h : ∀ k s, (f k s).groups = s.groups) :
    (forList l f s).groups = s.groups := by
  unfold forList; induction l generalizing s with
  | nil => rfl
  | cons a l ih => simp [List.foldl, ih, h]

@[simp] theorem whenever_groups (b : Bool) (f : State → State) (s : State) (h : ∀ s, (f s).groups = s.groups) :
    (whenever b f s).groups = s.groups := by
  unfold whenever; split <;> simp [h]

@[simp] theorem iteS_groups (c : Prop) [Decidable c] (a b : State) : (if c then a else b).groups = if c then a.groups else b.groups := by
  split <;> rfl

@[simp] theorem forNat_map (n : Nat) (f : Nat → State → State) (s : State) (h : ∀ k s, (f k s).map = s.map) :
    (forNat n f s).map = s.map := by
  unfold forNat; generalize List.range n = l; induction l generalizing s with
  | nil => rfl
  | cons a l ih => simp [List.foldl, ih, h]

@[simp] theorem forList_map {α : Type} (l : List α) (f : α → State → State) (s : State) (h : ∀ k s, (f k s).map = s.map) :
    (forList l f s).map = s.map := by
  unfold forList; induction l generalizing s with
  | nil => rfl
  | cons a l ih => simp [List.foldl, ih, h]

@[simp] theorem whenever_map (b : Bool) (f : State → State) (s : State) (h : ∀ s, (f s).map = s.map) :
    (whenever b f s).map = s.map := by
  unfold whenever; split <;> simp [h]

@[simp] theorem iteS_map (c : Prop) [Decidable c] (a b : State) : (if c then a else b).map = if c then a.map else b.map := by
  split <;> rfl

@[simp] theorem forNat_streams (n : Nat) (f : Nat → State → State) (s : State) (h : ∀ k s, (f k s).streams = s.streams) :
    (forNat n f s).streams = s.streams := by
  unfold forNat; generalize List.range n = l; induction l generalizing s with
  | nil => rfl
  | cons a l ih => simp [List.foldl, ih, h]

@[simp] theorem forList_streams {α : Type} (l : List α) (f : α → State → State) (s : State) (h : ∀ k s, (f k s).streams = s.streams) :
    (forList l f s).streams = s.streams := by
  unfold forList; induction l generalizing s with
  | nil => rfl
  | cons a l ih => simp [List.foldl, ih, h]

@[simp] theorem whenever_streams (b : Bool) (f : State → State) (s : State) (h : ∀ s, (f s).streams = s.streams) :
    (whenever b f s).streams = s.streams := by
  unfold whenever; split <;> simp [h]

@[simp] theorem iteS_streams (c : Prop) [Decidable c] (a b : State) : (if c then a else b).streams = if c then a.streams else b.streams := by
  split <;> rfl

@[simp] theorem forNat_frame (n : Nat) (f : Nat → State → State) (s : State) (h : ∀ k s, (f k s).frame = s.frame) :
    (forNat n f s).frame = s.frame := by
  unfold forNat; generalize List.range n = l; induction l generalizing s with
  | nil => rfl
  | cons a l ih => simp [List.foldl, ih, h]

@[simp] theorem forList_frame {α : Type} (l : List α) (f : α → State → State) (s : State) (h : ∀ k s, (f k s).frame = s.frame) :
    (forList l f s).frame = s.frame := by
  unfold forList; induction l generalizing s with
  | nil => rfl
  | cons a l ih => simp [List.foldl, ih, h]

@[simp] theorem whenever_frame (b : Bool) (f : State → State) (s : State) (h : ∀ s, (f s).frame = s.frame) :
    (whenever b f s).frame = s.frame := by
  unfold whenever; split <;> simp [h]

@[simp] theorem iteS_frame (c : Prop) [Decidable c] (a b : State) : (if c then a else b).frame = if c then a.frame else b.frame := by
  split <;> rfl

@[simp] theorem forNat_buf (n : Nat) (f : Nat → State → State) (s : State) (h : ∀ k s, (f k s).buf = s.buf) :
    (forNat n f s).buf = s.buf := by
  unfold forNat; generalize List.range n = l; induction l generalizing s with
  | nil => rfl
  | cons a l ih => simp [List.foldl, ih, h]

@[simp] theorem forList_buf {α : Type} (l : List α) (f : α → State → State) (s : State) (h : ∀ k s, (f k s).buf = s.buf) :
    (forList l f s).buf = s.buf := by
  unfold forList; induction l generalizing s with
  | nil => rfl
  | cons a l ih => simp [List.foldl, ih, h]

@[simp] theorem whenever_buf (b : Bool) (f : State → State) (s : State) (h : ∀ s, (f s).buf = s.buf) :
    (whenever b f s).buf = s.buf := by
  unfold whenever; split <;> simp [h]

@[simp] theorem iteS_buf (c : Prop) [Decidable c] (a b : State) : (if c then a else b).buf = if c then a.buf else b.buf := by
  split <;> rfl

@[simp] theorem forNat_link (n : Nat) (f : Nat → State → State) (s : State) (h : ∀ k s, (f k s).link = s.link) :
    (forNat n f s).link = s.link := by
  unfold forNat; generalize List.range n = l; induction l generalizing s with
  | nil => rfl
  | cons a l ih => simp [List.foldl, ih, h]

@[simp] theorem forList_link {α : Type} (l : List α) (f : α → State → State) (s : State) (h : ∀ k s, (f k s).link = s.link) :
    (forList l f s).link = s.link := by
  unfold forList; induction l generalizing s with
  | nil => rfl
  | cons a l ih => simp [List.foldl, ih, h]

@[simp] theorem whenever_link (b : Bool) (f : State → State) (s : State) (h : ∀ s, (f s).link = s.link) :
    (whenever b f s).link = s.link := by
  unfold whenever; split <;> simp [h]

@[simp] theorem iteS_link (c : Prop) [Decidable c] (a b : State) : (if c then a else b).link = if c then a.link else b.link := by
  split <;> rfl

@[simp] theorem forNat_units (n : Nat) (f : Nat → State → State) (s : State) (h : ∀ k s, (f k s).units = s.units) :
    (forNat n f s).units = s.units := by
  unfold forNat; generalize List.range n = l; induction l generalizing s with
  | nil => rfl
  | cons a l ih => simp [List.foldl, ih, h]

@[simp] theorem forList_units {α : Type} (l : List α) (f : α → State → State) (s : State) (h : ∀ k s, (f k s).units = s.units) :
    (forList l f s).units = s.units := by
  unfold forList; induction l generalizing s with
  | nil => rfl
  | cons a l ih => simp [List.foldl, ih, h]

@[simp] theorem whenever_units (b : Bool) (f : State → State) (s : State) (h : ∀ s, (f s).units = s.units) :
    (whenever b f s).units = s.units := by
  unfold whenever; split <;> simp [h]

@[simp] theorem iteS_units (c : Prop) [Decidable c] (a b : State) : (if c then a else b).units = if c then a.units else b.units := by
  split <;> rfl

@[simp] theorem forNat_outs (n : Nat) (f : Nat → State → State) (s : State) (h : ∀ k s, (f k s).outs = s.outs) :
    (forNat n f s).outs = s.outs := by
  unfold forNat; generalize List.range n = l; induction l generalizing s with
  | nil => rfl
  | cons a l ih => simp [List.foldl, ih, h]

@[simp] theorem forList_outs {α : Type} (l : List α) (f : α → State → State) (s : State) (h : ∀ k s, (f k s).outs = s.outs) :
    (forList l f s).outs = s.outs := by
  unfold forList; induction l generalizing s with
  | nil => rfl
  | cons a l ih => simp [List.foldl, ih, h]

@[simp] theorem whenever_outs (b : Bool) (f : State → State) (s : State) (h : ∀ s, (f s).outs = s.outs) :
    (whenever b f s).outs = s.outs := by
  unfold whenever; split <;> simp [h]

@[simp] theorem iteS_outs (c : Prop) [Decidable c] (a b : State) : (if c then a else b).outs = if c then a.outs else b.outs := by
  split <;> rfl

@[simp] theorem forNat_aux (n : Nat) (f : Nat → State → State) (s : State) (h : ∀ k s, (f k s).aux = s.aux) :
    (forNat n f s).aux = s.aux := by
  unfold forNat; generalize List.range n = l; induction l generalizing s with
  | nil => rfl
  | cons a l ih => simp [List.foldl, ih, h]

@[simp] theorem forList_aux {α : Type} (l : List α) (f : α → State → State) (s : State) (h : ∀ k s, (f k s).aux = s.aux) :
    (forList l f s).aux = s.aux := by
  unfold forList; induction l generalizing s with
  | nil => rfl
  | cons a l ih => simp [List.foldl, ih, h]

@[simp] theorem whenever_aux (b : Bool) (f : State → State) (s : State) (h : ∀ s, (f s).aux = s.aux) :
    (whenever b f s).aux = s.aux := by
  unfold whenever; split <;> simp [h]

@[simp] theorem iteS_aux (c : Prop) [Decidable c] (a b : State) : (if c then a else b).aux = if c then a.aux else b.aux := by
  split <;> rfl

@[simp] theorem forNat_ev (n : Nat) (f : Nat → State → State) (s : State) (h : ∀ k s, (f k s).ev = s.ev) :
    (forNat n f s).ev = s.ev := by
  unfold forNat; generalize List.range n = l; induction l generalizing s with
  | nil => rfl
  | cons a l ih => simp [List.foldl, ih, h]

@[simp] theorem forList_ev {α : Type} (l : List α) (f : α → State → State) (s : State) (h : ∀ k s, (f k s).ev = s.ev) :
    (forList l f s).ev = s.ev := by
  unfold forList; induction l generalizing s with
  | nil => rfl
  | cons a l ih => simp [List.foldl, ih, h]

@[simp] theorem whenever_ev (b : Bool) (f : State → State) (s : State) (h : ∀ s, (f s).ev = s.ev) :
    (whenever b f s).ev = s.ev := by
  unfold whenever; split <;> simp [h]

@[simp] theorem iteS_ev (c : Prop) [Decidable c] (a b : State) : (if c then a else b).ev = if c then a.ev else b.ev := by
  split <;> rfl

@[simp] theorem forNat_ptp (n : Nat) (f : Nat → State → State) (s : State) (h : ∀ k s, (f k s).ptp = s.ptp) :
    (forNat n f s).ptp = s.ptp := by
  unfold forNat; generalize List.range n = l; induction l generalizing s with
  | nil => rfl
  | cons a l ih => simp [List.foldl, ih, h]

@[simp] theorem forList_ptp {α : Type} (l : List α) (f : α → State → State) (s : State) (h : ∀ k s, (f k s).ptp = s.ptp) :
    (forList l f s).ptp = s.ptp := by
  unfold forList; induction l generalizing s with
  | nil => rfl
  | cons a l ih => simp [List.foldl, ih, h]

@[simp] theorem whenever_ptp (b : Bool) (f : State → State) (s : State) (h : ∀ s, (f s).ptp = s.ptp) :
    (whenever b f s).ptp = s.ptp := by
  unfold whenever; split <;> simp [h]

@[simp] theorem iteS_ptp (c : Prop) [Decidable c] (a b : State) : (if c then a else b).ptp = if c then a.ptp else b.ptp := by
  split <;> rfl

@[simp] theorem forNat_modPhase (n : Nat) (f : Nat → State → State) (s : State) (h : ∀ k s, (f k s).modPhase = s.modPhase) :
    (forNat n f s).modPhase = s.modPhase := by
  unfold forNat; generalize List.range n = l; induction l generalizing s with
  | nil => rfl
  | cons a l ih => simp [List.foldl, ih, h]

@[simp] theorem forList_modPhase {α : Type} (l : List α) (f : α → State → State) (s : State) (h : ∀ k s, (f k s).modPhase = s.modPhase) :
    (forList l f s).modPhase = s.modPhase := by
  unfold forList; induction l generalizing s with
  | nil => rfl
  | cons a l ih => simp [List.foldl, ih, h]

@[simp] theorem whenever_modPhase (b : Bool) (f : State → State) (s : State) (h : ∀ s, (f s).modPhase = s.modPhase) :
    (whenever b f s).modPhase = s.modPhase := by
  unfold whenever; split <;> simp [h]

@[simp] theorem iteS_modPhase (c : Prop) [Decidable c] (a b : State) : (if c then a else b).modPhase = if c then a.modPhase else b.modPhase := by
  split <;> rfl

@[simp] theorem forNat_shift (n : Nat) (f : Nat → State → State) (s : State) (h : ∀ k s, (f k s).shift = s.shift) :
    (forNat n f s).shift = s.shift := by
  unfold forNat; generalize List.range n = l; induction l generalizing s with
  | nil => rfl
  | cons a l ih => simp [List.foldl, ih, h]

@[simp] theorem forList_shift {α : Type} (l : List α) (f : α → State → State) (s : State) (h : ∀ k s, (f k s).shift = s.shift) :
    (forList l f s).shift = s.shift := by
  unfold forList; induction l generalizing s with
  | nil => rfl
  | cons a l ih => simp [List.foldl, ih, h]

@[simp] theorem whenever_shift (b : Bool) (f : State → State) (s : State) (h : ∀ s, (f s).shift = s.shift) :
    (whenever b f s).shift = s.shift := by
  unfold whenever; split <;> simp [h]

@[simp] theorem iteS_shift (c : Prop) [Decidable c] (a b : State) : (if c then a else b).shift = if c then a.shift else b.shift := by
  split <;> rfl

@[simp] theorem forNat_segIdent (n : Nat) (f : Nat → State → State) (s : State) (h : ∀ k s, (f k s).segIdent = s.segIdent) :
    (forNat n f s).segIdent = s.segIdent := by
  unfold forNat; generalize List.range n = l; induction l generalizing s with
  | nil => rfl
  | cons a l ih => simp [List.foldl, ih, h]

@[simp] theorem forList_segIdent {α : Type} (l : List α) (f : α → State → State) (s : State) (h : ∀ k s, (f k s).segIdent = s.segIdent) :
    (forList l f s).segIdent = s.segIdent := by
  unfold forList; induction l generalizing s with
  | nil => rfl
  | cons a l ih => simp [List.foldl, ih, h]

@[simp] theorem whenever_segIdent (b : Bool) (f : State → State) (s : State) (h : ∀ s, (f s).segIdent = s.segIdent) :
    (whenever b f s).segIdent = s.segIdent := by
  unfold whenever; split <;> simp [h]

@[simp] theorem iteS_segIdent (c : Prop) [Decidable c] (a b : State) : (if c then a else b).segIdent = if c then a.segIdent else b.segIdent := by
  split <;> rfl

@[simp] theorem forNat_fv (n : Nat) (f : Nat → State → State) (s : State) (h : ∀ k s, (f k s).fv = s.fv) :
    (forNat n f s).fv = s.fv := by
  unfold forNat; generalize List.range n = l; induction l generalizing s with
  | nil => rfl
  | cons a l ih => simp [List.foldl, ih, h]

@[simp] theorem forList_fv {α : Type} (l : List α) (f : α → State → State) (s : State) (h : ∀ k s, (f k s).fv = s.fv) :
    (forList l f s).fv = s.fv := by
  unfold forList; induction l generalizing s with
  | nil => rfl
  | cons a l ih => simp [List.foldl, ih, h]

@[simp] theorem whenever_fv (b : Bool) (f : State → State) (s : State) (h : ∀ s, (f s).fv = s.fv) :
    (whenever b f s).fv = s.fv := by
  unfold whenever; split <;> simp [h]

@[simp] theorem iteS_fv (c : Prop) [Decidable c] (a b : State) : (if c then a else b).fv = if c then a.fv else b.fv := by
  split <;> rfl

@[simp] theorem forNat_out (n : Nat) (f : Nat → State → State) (s : State) (h : ∀ k s, (f k s).out = s.out) :
    (forNat n f s).out = s.out := by
  unfold forNat; generalize List.range n = l; induction l generalizing s with
  | nil => rfl
  | cons a l ih => simp [List.foldl, ih, h]

@[simp] theorem forList_out {α : Type} (l : List α) (f : α → State → State) (s : State) (h : ∀ k s, (f k s).out = s.out) :
    (forList l f s).out = s.out := by
  unfold forList; induction l generalizing s with
  | nil => rfl
  | cons a l ih => simp [List.foldl, ih, h]

@[simp] theorem whenever_out (b : Bool) (f : State → State) (s : State) (h : ∀ s, (f s).out = s.out) :
    (whenever b f s).out = s.out := by
  unfold whenever; split <;> simp [h]

@[simp] theorem iteS_out (c : Prop) [Decidable c] (a b : State) : (if c then a else b).out = if c then a.out else b.out := by
  split <;> rfl

@[simp] theorem forNat_conf (n : Nat) (f : Nat → State → State) (s : State) (h : ∀ k s, (f k s).conf = s.conf) :
    (forNat n f s).conf = s.conf := by
  unfold forNat; generalize List.range n = l; induction l generalizing s with
  | nil => rfl
  | cons a l ih => simp [List.foldl, ih, h]

@[simp] theorem forList_conf {α : Type} (l : List α) (f : α → State → State) (s : State) (h : ∀ k s, (f k s).conf = s.conf) :
    (forList l f s).conf = s.conf := by
  unfold forList; induction l generalizing s with
  | nil => rfl
  | cons a l ih => simp [List.foldl, ih, h]

@[simp] theorem whenever_conf (b : Bool) (f : State → State) (s : State) (h : ∀ s, (f s).conf = s.conf) :
    (whenever b f s).conf = s.conf := by
  unfold whenever; split <;> simp [h]

@[simp] theorem iteS_conf (c : Prop) [Decidable c] (a b : State) : (if c then a else b).conf = if c then a.conf else b.conf := by
  split <;> rfl

@[simp] theorem forNat_time_tw (n : Nat) (f : Nat → State → State) (s : State) (h : ∀ k s, (f k s).time.tw = s.time.tw) :
    (forNat n f s).time.tw = s.time.tw := by
  unfold forNat; generalize List.range n = l; induction l generalizing s with
  | nil => rfl
  | cons a l ih => simp [List.foldl, ih, h]

@[simp] theorem forList_time_tw {α : Type} (l : List α) (f : α → State → State) (s : State) (h : ∀ k s, (f k s).time.tw = s.time.tw) :
    (forList l f s).time.tw = s.time.tw := by
  unfold forList; induction l generalizing s with
  | nil => rfl
  | cons a l ih => simp [List.foldl, ih, h]

@[simp] theorem whenever_time_tw (b : Bool) (f : State → State) (s : State) (h : ∀ s, (f s).time.tw = s.time.tw) :
    (whenever b f s).time.tw = s.time.tw := by
  unfold whenever; split <;> simp [h]

@[simp] theorem iteS_time_tw (c : Prop) [Decidable c] (a b : State) : (if c then a else b).time.tw = if c then a.time.tw else b.time.tw := by
  split <;> rfl

@[simp] theorem forNat_time_quality (n : Nat) (f : Nat → State → State) (s : State) (h : ∀ k s, (f k s).time.quality = s.time.quality) :
    (forNat n f s).time.quality = s.time.quality := by
  unfold forNat; generalize List.range n = l; induction l generalizing s with
  | nil => rfl
  | cons a l ih => simp [List.foldl, ih, h]

@[simp] theorem forList_time_quality {α : Type} (l : List α) (f : α → State → State) (s : State) (h : ∀ k s, (f k s).time.quality = s.time.quality) :
    (forList l f s).time.quality = s.time.quality := by
  unfold forList; induction l generalizing s with
  | nil => rfl
  | cons a l ih => simp [List.foldl, ih, h]

@[simp] theorem whenever_time_quality (b : Bool) (f : State → State) (s : State) (h : ∀ s, (f s).time.quality = s.time.quality) :
    (whenever b f s).time.quality = s.time.quality := by
  unfold whenever; split <;> simp [h]

@[simp] theorem iteS_time_quality (c : Prop) [Decidable c] (a b : State) : (if c then a else b).time.quality = if c then a.time.quality else b.time.quality := by
  split <;> rfl

@[simp] theorem forNat_time_epoch (n : Nat) (f : Nat → State → State) (s : State) (h : ∀ k s, (f k s).time.epoch = s.time.epoch) :
    (forNat n f s).time.epoch = s.time.epoch := by
  unfold forNat; generalize List.range n = l; induction l generalizing s with
  | nil => rfl
  | cons a l ih => simp [List.foldl, ih, h]

@[simp] theorem forList_time_epoch {α : Type} (l : List α) (f : α → State → State) (s : State) (h : ∀ k s, (f k s).time.epoch = s.time.epoch) :
    (forList l f s).time.epoch = s.time.epoch := by
  unfold forList; induction l generalizing s with
  | nil => rfl
  | cons a l ih => simp [List.foldl, ih, h]

@[simp] theorem whenever_time_epoch (b : Bool) (f : State → State) (s : State) (h : ∀ s, (f s).time.epoch = s.time.epoch) :
    (whenever b f s).time.epoch = s.time.epoch := by
  unfold whenever; split <;> simp [h]

@[simp] theorem iteS_time_epoch (c : Prop) [Decidable c] (a b : State) : (if c then a else b).time.epoch = if c then a.time.epoch else b.time.epoch := by
  split <;> rfl

@[simp] theorem forNat_conf_cfg (n : Nat) (f : Nat → State → State) (s : State) (h : ∀ k s, (f k s).conf.cfg = s.conf.cfg) :
    (forNat n f s).conf.cfg = s.conf.cfg := by
  unfold forNat; generalize List.range n = l; induction l generalizing s with
  | nil => rfl
  | cons a l ih => simp [List.foldl, ih, h]

@[simp] theorem forList_conf_cfg {α : Type} (l : List α) (f : α → State → State) (s : State) (h : ∀ k s, (f k s).conf.cfg = s.conf.cfg) :
    (forList l f s).conf.cfg = s.conf.cfg := by
  unfold forList; induction l generalizing s with
  | nil => rfl
  | cons a l ih => simp [List.foldl, ih, h]

@[simp] theorem whenever_conf_cfg (b : Bool) (f : State → State) (s : State) (h : ∀ s, (f s).conf.cfg = s.conf.cfg) :
    (whenever b f s).conf.cfg = s.conf.cfg := by
  unfold whenever; split <;> simp [h]

@[simp] theorem iteS_conf_cfg (c : Prop) [Decidable c] (a b : State) : (if c then a else b).conf.cfg = if c then a.conf.cfg else b.conf.cfg := by
  split <;> rfl

@[simp] theorem forNat_power_vmain (n : Nat) (f : Nat → State → State) (s : State) (h : ∀ k s, (f k s).power.vmain = s.power.vmain) :
    (forNat n f s).power.vmain = s.power.vmain := by
  unfold forNat; generalize List.range n = l; induction l generalizing s with
  | nil => rfl
  | cons a l ih => simp [List.foldl, ih, h]

@[simp] theorem forList_power_vmain {α : Type} (l : List α) (f : α → State → State) (s : State) (h : ∀ k s, (f k s).power.vmain = s.power.vmain) :
    (forList l f s).power.vmain = s.power.vmain := by
  unfold forList; induction l generalizing s with
  | nil => rfl
  | cons a l ih => simp [List.foldl, ih, h]

@[simp] theorem whenever_power_vmain (b : Bool) (f : State → State) (s : State) (h : ∀ s, (f s).power.vmain = s.power.vmain) :
    (whenever b f s).power.vmain = s.power.vmain := by
  unfold whenever; split <;> simp [h]

@[simp] theorem iteS_power_vmain (c : Prop) [Decidable c] (a b : State) : (if c then a else b).power.vmain = if c then a.power.vmain else b.power.vmain := by
  split <;> rfl

@[simp] theorem forNat_power_mode (n : Nat) (f : Nat → State → State) (s : State) (h : ∀ k s, (f k s).power.mode = s.power.mode) :
    (forNat n f s).power.mode = s.power.mode := by
  unfold forNat; generalize List.range n = l; induction l generalizing s with
  | nil => rfl
  | cons a l ih => simp [List.foldl, ih, h]

@[simp] theorem forList_power_mode {α : Type} (l : List α) (f : α → State → State) (s : State) (h : ∀ k s, (f k s).power.mode = s.power.mode) :
    (forList l f s).power.mode = s.power.mode := by
  unfold forList; induction l generalizing s with
  | nil => rfl
  | cons a l ih => simp [List.foldl, ih, h]

@[simp] theorem whenever_power_mode (b : Bool) (f : State → State) (s : State) (h : ∀ s, (f s).power.mode = s.power.mode) :
    (whenever b f s).power.mode = s.power.mode := by
  unfold whenever; split <;> simp [h]

@[simp] theorem iteS_power_mode (c : Prop) [Decidable c] (a b : State) : (if c then a else b).power.mode = if c then a.power.mode else b.power.mode := by
  split <;> rfl

@[simp] theorem iteTimeEng_tw (c : Prop) [Decidable c] (a b : TimeEng) : (if c then a else b).tw = if c then a.tw else b.tw := by
  split <;> rfl

@[simp] theorem iteTimeEng_quality (c : Prop) [Decidable c] (a b : TimeEng) : (if c then a else b).quality = if c then a.quality else b.quality := by
  split <;> rfl

@[simp] theorem iteTimeEng_epoch (c : Prop) [Decidable c] (a b : TimeEng) : (if c then a else b).epoch = if c then a.epoch else b.epoch := by
  split <;> rfl

@[simp] theorem iteConf_cfg (c : Prop) [Decidable c] (a b : Conf) : (if c then a else b).cfg = if c then a.cfg else b.cfg := by
  split <;> rfl

@[simp] theorem itePower_vmain (c : Prop) [Decidable c] (a b : Power) : (if c then a else b).vmain = if c then a.vmain else b.vmain := by
  split <;> rfl

@[simp] theorem itePower_mode (c : Prop) [Decidable c] (a b : Power) : (if c then a else b).mode = if c then a.mode else b.mode := by
  split <;> rfl

@[simp] theorem cfgPut_frame (idx sub v : Nat) (s : State) :
    (cfgPut idx sub v s).pending = s.pending ∧ (cfgPut idx sub v s).power = s.power ∧
    (cfgPut idx sub v s).time = s.time ∧ (cfgPut idx sub v s).act = s.act ∧ (cfgPut idx sub v s).dict = s.dict ∧
    (cfgPut idx sub v s).store = s.store ∧ (cfgPut idx sub v s).health = s.health ∧
    (cfgPut idx sub v s).clocks = s.clocks ∧ (cfgPut idx sub v s).chans = s.chans ∧
    (cfgPut idx sub v s).dies = s.dies ∧ (cfgPut idx sub v s).ref = s.ref ∧ (cfgPut idx sub v s).cal = s.cal ∧
    (cfgPut idx sub v s).groups = s.groups ∧ (cfgPut idx sub v s).map = s.map ∧
    (cfgPut idx sub v s).streams = s.streams ∧ (cfgPut idx sub v s).frame = s.frame ∧
    (cfgPut idx sub v s).buf = s.buf ∧ (cfgPut idx sub v s).link = s.link ∧ (cfgPut idx sub v s).units = s.units ∧
    (cfgPut idx sub v s).outs = s.outs ∧ (cfgPut idx sub v s).aux = s.aux ∧ (cfgPut idx sub v s).ev = s.ev ∧
    (cfgPut idx sub v s).ptp = s.ptp ∧ (cfgPut idx sub v s).modPhase = s.modPhase ∧
    (cfgPut idx sub v s).shift = s.shift ∧ (cfgPut idx sub v s).segIdent = s.segIdent ∧
    (cfgPut idx sub v s).fv = s.fv ∧ (cfgPut idx sub v s).out = s.out := by
  simp [cfgPut]

@[simp] theorem onChan_frame (c : Nat) (f : Chan → Chan) (s : State) :
    (onChan c f s).pending = s.pending ∧ (onChan c f s).power = s.power ∧ (onChan c f s).time = s.time ∧
    (onChan c f s).conf = s.conf ∧ (onChan c f s).act = s.act ∧ (onChan c f s).dict = s.dict ∧
    (onChan c f s).store = s.store ∧ (onChan c f s).health = s.health ∧ (onChan c f s).clocks = s.clocks ∧
    (onChan c f s).dies = s.dies ∧ (onChan c f s).ref = s.ref ∧ (onChan c f s).cal = s.cal ∧
    (onChan c f s).groups = s.groups ∧ (onChan c f s).map = s.map ∧ (onChan c f s).streams = s.streams ∧
    (onChan c f s).frame = s.frame ∧ (onChan c f s).buf = s.buf ∧ (onChan c f s).link = s.link ∧
    (onChan c f s).units = s.units ∧ (onChan c f s).outs = s.outs ∧ (onChan c f s).aux = s.aux ∧
    (onChan c f s).ev = s.ev ∧ (onChan c f s).ptp = s.ptp ∧ (onChan c f s).modPhase = s.modPhase ∧
    (onChan c f s).shift = s.shift ∧ (onChan c f s).segIdent = s.segIdent ∧ (onChan c f s).fv = s.fv ∧
    (onChan c f s).out = s.out := by
  simp [onChan]

@[simp] theorem onChans_frame (f : Nat → Chan → Chan) (s : State) :
    (onChans f s).pending = s.pending ∧ (onChans f s).power = s.power ∧ (onChans f s).time = s.time ∧
    (onChans f s).conf = s.conf ∧ (onChans f s).act = s.act ∧ (onChans f s).dict = s.dict ∧
    (onChans f s).store = s.store ∧ (onChans f s).health = s.health ∧ (onChans f s).clocks = s.clocks ∧
    (onChans f s).dies = s.dies ∧ (onChans f s).ref = s.ref ∧ (onChans f s).cal = s.cal ∧
    (onChans f s).groups = s.groups ∧ (onChans f s).map = s.map ∧ (onChans f s).streams = s.streams ∧
    (onChans f s).frame = s.frame ∧ (onChans f s).buf = s.buf ∧ (onChans f s).link = s.link ∧
    (onChans f s).units = s.units ∧ (onChans f s).outs = s.outs ∧ (onChans f s).aux = s.aux ∧
    (onChans f s).ev = s.ev ∧ (onChans f s).ptp = s.ptp ∧ (onChans f s).modPhase = s.modPhase ∧
    (onChans f s).shift = s.shift ∧ (onChans f s).segIdent = s.segIdent ∧ (onChans f s).fv = s.fv ∧
    (onChans f s).out = s.out := by
  simp [onChans]

@[simp] theorem onDie_frame (g : Nat) (f : Die → Die) (s : State) :
    (onDie g f s).pending = s.pending ∧ (onDie g f s).power = s.power ∧ (onDie g f s).time = s.time ∧
    (onDie g f s).conf = s.conf ∧ (onDie g f s).act = s.act ∧ (onDie g f s).dict = s.dict ∧
    (onDie g f s).store = s.store ∧ (onDie g f s).health = s.health ∧ (onDie g f s).clocks = s.clocks ∧
    (onDie g f s).chans = s.chans ∧ (onDie g f s).ref = s.ref ∧ (onDie g f s).cal = s.cal ∧
    (onDie g f s).groups = s.groups ∧ (onDie g f s).map = s.map ∧ (onDie g f s).streams = s.streams ∧
    (onDie g f s).frame = s.frame ∧ (onDie g f s).buf = s.buf ∧ (onDie g f s).link = s.link ∧
    (onDie g f s).units = s.units ∧ (onDie g f s).outs = s.outs ∧ (onDie g f s).aux = s.aux ∧
    (onDie g f s).ev = s.ev ∧ (onDie g f s).ptp = s.ptp ∧ (onDie g f s).modPhase = s.modPhase ∧
    (onDie g f s).shift = s.shift ∧ (onDie g f s).segIdent = s.segIdent ∧ (onDie g f s).fv = s.fv ∧
    (onDie g f s).out = s.out := by
  simp [onDie]

@[simp] theorem onSlice_frame (g k : Nat) (f : Slice → Slice) (s : State) :
    (onSlice g k f s).pending = s.pending ∧ (onSlice g k f s).power = s.power ∧ (onSlice g k f s).time = s.time ∧
    (onSlice g k f s).conf = s.conf ∧ (onSlice g k f s).act = s.act ∧ (onSlice g k f s).dict = s.dict ∧
    (onSlice g k f s).store = s.store ∧ (onSlice g k f s).health = s.health ∧ (onSlice g k f s).clocks = s.clocks ∧
    (onSlice g k f s).chans = s.chans ∧ (onSlice g k f s).ref = s.ref ∧ (onSlice g k f s).cal = s.cal ∧
    (onSlice g k f s).groups = s.groups ∧ (onSlice g k f s).map = s.map ∧ (onSlice g k f s).streams = s.streams ∧
    (onSlice g k f s).frame = s.frame ∧ (onSlice g k f s).buf = s.buf ∧ (onSlice g k f s).link = s.link ∧
    (onSlice g k f s).units = s.units ∧ (onSlice g k f s).outs = s.outs ∧ (onSlice g k f s).aux = s.aux ∧
    (onSlice g k f s).ev = s.ev ∧ (onSlice g k f s).ptp = s.ptp ∧ (onSlice g k f s).modPhase = s.modPhase ∧
    (onSlice g k f s).shift = s.shift ∧ (onSlice g k f s).segIdent = s.segIdent ∧ (onSlice g k f s).fv = s.fv ∧
    (onSlice g k f s).out = s.out := by
  simp [onSlice]

@[simp] theorem onGroup_frame (g : Nat) (f : Group → Group) (s : State) :
    (onGroup g f s).pending = s.pending ∧ (onGroup g f s).power = s.power ∧ (onGroup g f s).time = s.time ∧
    (onGroup g f s).conf = s.conf ∧ (onGroup g f s).act = s.act ∧ (onGroup g f s).dict = s.dict ∧
    (onGroup g f s).store = s.store ∧ (onGroup g f s).health = s.health ∧ (onGroup g f s).clocks = s.clocks ∧
    (onGroup g f s).chans = s.chans ∧ (onGroup g f s).dies = s.dies ∧ (onGroup g f s).ref = s.ref ∧
    (onGroup g f s).cal = s.cal ∧ (onGroup g f s).map = s.map ∧ (onGroup g f s).streams = s.streams ∧
    (onGroup g f s).frame = s.frame ∧ (onGroup g f s).buf = s.buf ∧ (onGroup g f s).link = s.link ∧
    (onGroup g f s).units = s.units ∧ (onGroup g f s).outs = s.outs ∧ (onGroup g f s).aux = s.aux ∧
    (onGroup g f s).ev = s.ev ∧ (onGroup g f s).ptp = s.ptp ∧ (onGroup g f s).modPhase = s.modPhase ∧
    (onGroup g f s).shift = s.shift ∧ (onGroup g f s).segIdent = s.segIdent ∧ (onGroup g f s).fv = s.fv ∧
    (onGroup g f s).out = s.out := by
  simp [onGroup]

@[simp] theorem onStream_frame (n : Nat) (f : Stream → Stream) (s : State) :
    (onStream n f s).pending = s.pending ∧ (onStream n f s).power = s.power ∧ (onStream n f s).time = s.time ∧
    (onStream n f s).conf = s.conf ∧ (onStream n f s).act = s.act ∧ (onStream n f s).dict = s.dict ∧
    (onStream n f s).store = s.store ∧ (onStream n f s).health = s.health ∧ (onStream n f s).clocks = s.clocks ∧
    (onStream n f s).chans = s.chans ∧ (onStream n f s).dies = s.dies ∧ (onStream n f s).ref = s.ref ∧
    (onStream n f s).cal = s.cal ∧ (onStream n f s).groups = s.groups ∧ (onStream n f s).map = s.map ∧
    (onStream n f s).frame = s.frame ∧ (onStream n f s).buf = s.buf ∧ (onStream n f s).link = s.link ∧
    (onStream n f s).units = s.units ∧ (onStream n f s).outs = s.outs ∧ (onStream n f s).aux = s.aux ∧
    (onStream n f s).ev = s.ev ∧ (onStream n f s).ptp = s.ptp ∧ (onStream n f s).modPhase = s.modPhase ∧
    (onStream n f s).shift = s.shift ∧ (onStream n f s).segIdent = s.segIdent ∧ (onStream n f s).fv = s.fv ∧
    (onStream n f s).out = s.out := by
  simp [onStream]

@[simp] theorem onPort_frame (p : Nat) (f : Port → Port) (s : State) :
    (onPort p f s).pending = s.pending ∧ (onPort p f s).power = s.power ∧ (onPort p f s).time = s.time ∧
    (onPort p f s).conf = s.conf ∧ (onPort p f s).act = s.act ∧ (onPort p f s).dict = s.dict ∧
    (onPort p f s).store = s.store ∧ (onPort p f s).health = s.health ∧ (onPort p f s).clocks = s.clocks ∧
    (onPort p f s).chans = s.chans ∧ (onPort p f s).dies = s.dies ∧ (onPort p f s).ref = s.ref ∧
    (onPort p f s).cal = s.cal ∧ (onPort p f s).groups = s.groups ∧ (onPort p f s).map = s.map ∧
    (onPort p f s).streams = s.streams ∧ (onPort p f s).frame = s.frame ∧ (onPort p f s).buf = s.buf ∧
    (onPort p f s).units = s.units ∧ (onPort p f s).outs = s.outs ∧ (onPort p f s).aux = s.aux ∧
    (onPort p f s).ev = s.ev ∧ (onPort p f s).ptp = s.ptp ∧ (onPort p f s).modPhase = s.modPhase ∧
    (onPort p f s).shift = s.shift ∧ (onPort p f s).segIdent = s.segIdent ∧ (onPort p f s).fv = s.fv ∧
    (onPort p f s).out = s.out := by
  simp [onPort]

@[simp] theorem onUnit_frame (u : Nat) (f : Unit → Unit) (s : State) :
    (onUnit u f s).pending = s.pending ∧ (onUnit u f s).power = s.power ∧ (onUnit u f s).time = s.time ∧
    (onUnit u f s).conf = s.conf ∧ (onUnit u f s).act = s.act ∧ (onUnit u f s).dict = s.dict ∧
    (onUnit u f s).store = s.store ∧ (onUnit u f s).health = s.health ∧ (onUnit u f s).clocks = s.clocks ∧
    (onUnit u f s).chans = s.chans ∧ (onUnit u f s).dies = s.dies ∧ (onUnit u f s).ref = s.ref ∧
    (onUnit u f s).cal = s.cal ∧ (onUnit u f s).groups = s.groups ∧ (onUnit u f s).map = s.map ∧
    (onUnit u f s).streams = s.streams ∧ (onUnit u f s).frame = s.frame ∧ (onUnit u f s).buf = s.buf ∧
    (onUnit u f s).link = s.link ∧ (onUnit u f s).outs = s.outs ∧ (onUnit u f s).aux = s.aux ∧
    (onUnit u f s).ev = s.ev ∧ (onUnit u f s).ptp = s.ptp ∧ (onUnit u f s).modPhase = s.modPhase ∧
    (onUnit u f s).shift = s.shift ∧ (onUnit u f s).segIdent = s.segIdent ∧ (onUnit u f s).fv = s.fv ∧
    (onUnit u f s).out = s.out := by
  simp [onUnit]

@[simp] theorem onPtp_frame (p : Nat) (f : PtpPort → PtpPort) (s : State) :
    (onPtp p f s).pending = s.pending ∧ (onPtp p f s).power = s.power ∧ (onPtp p f s).time = s.time ∧
    (onPtp p f s).conf = s.conf ∧ (onPtp p f s).act = s.act ∧ (onPtp p f s).dict = s.dict ∧
    (onPtp p f s).store = s.store ∧ (onPtp p f s).health = s.health ∧ (onPtp p f s).clocks = s.clocks ∧
    (onPtp p f s).chans = s.chans ∧ (onPtp p f s).dies = s.dies ∧ (onPtp p f s).ref = s.ref ∧
    (onPtp p f s).cal = s.cal ∧ (onPtp p f s).groups = s.groups ∧ (onPtp p f s).map = s.map ∧
    (onPtp p f s).streams = s.streams ∧ (onPtp p f s).frame = s.frame ∧ (onPtp p f s).buf = s.buf ∧
    (onPtp p f s).link = s.link ∧ (onPtp p f s).units = s.units ∧ (onPtp p f s).outs = s.outs ∧
    (onPtp p f s).aux = s.aux ∧ (onPtp p f s).ev = s.ev ∧ (onPtp p f s).modPhase = s.modPhase ∧
    (onPtp p f s).shift = s.shift ∧ (onPtp p f s).segIdent = s.segIdent ∧ (onPtp p f s).fv = s.fv ∧
    (onPtp p f s).out = s.out := by
  simp [onPtp]

@[simp] theorem emit_frame (o : Output) (s : State) :
    (emit o s).pending = s.pending ∧ (emit o s).power = s.power ∧ (emit o s).time = s.time ∧
    (emit o s).conf = s.conf ∧ (emit o s).act = s.act ∧ (emit o s).dict = s.dict ∧ (emit o s).store = s.store ∧
    (emit o s).health = s.health ∧ (emit o s).clocks = s.clocks ∧ (emit o s).chans = s.chans ∧
    (emit o s).dies = s.dies ∧ (emit o s).ref = s.ref ∧ (emit o s).cal = s.cal ∧ (emit o s).groups = s.groups ∧
    (emit o s).map = s.map ∧ (emit o s).streams = s.streams ∧ (emit o s).frame = s.frame ∧ (emit o s).buf = s.buf ∧
    (emit o s).link = s.link ∧ (emit o s).units = s.units ∧ (emit o s).outs = s.outs ∧ (emit o s).aux = s.aux ∧
    (emit o s).ev = s.ev ∧ (emit o s).ptp = s.ptp ∧ (emit o s).modPhase = s.modPhase ∧ (emit o s).shift = s.shift ∧
    (emit o s).segIdent = s.segIdent ∧ (emit o s).fv = s.fv := by
  simp [emit]

@[simp] theorem fresh_frame (s : State) :
    (fresh s).2.pending = s.pending ∧ (fresh s).2.power = s.power ∧ (fresh s).2.time = s.time ∧
    (fresh s).2.conf = s.conf ∧ (fresh s).2.act = s.act ∧ (fresh s).2.dict = s.dict ∧ (fresh s).2.store = s.store ∧
    (fresh s).2.health = s.health ∧ (fresh s).2.clocks = s.clocks ∧ (fresh s).2.chans = s.chans ∧
    (fresh s).2.dies = s.dies ∧ (fresh s).2.ref = s.ref ∧ (fresh s).2.cal = s.cal ∧ (fresh s).2.groups = s.groups ∧
    (fresh s).2.map = s.map ∧ (fresh s).2.streams = s.streams ∧ (fresh s).2.frame = s.frame ∧
    (fresh s).2.buf = s.buf ∧ (fresh s).2.link = s.link ∧ (fresh s).2.units = s.units ∧ (fresh s).2.outs = s.outs ∧
    (fresh s).2.aux = s.aux ∧ (fresh s).2.ev = s.ev ∧ (fresh s).2.ptp = s.ptp ∧ (fresh s).2.modPhase = s.modPhase ∧
    (fresh s).2.shift = s.shift ∧ (fresh s).2.segIdent = s.segIdent ∧ (fresh s).2.out = s.out := by
  simp [fresh]

@[simp] theorem refuse_frame (code : Nat) (s : State) :
    (refuse code s).st.pending = s.pending ∧ (refuse code s).st.power = s.power ∧ (refuse code s).st.time = s.time ∧
    (refuse code s).st.conf = s.conf ∧ (refuse code s).st.act = s.act ∧ (refuse code s).st.dict = s.dict ∧
    (refuse code s).st.store = s.store ∧ (refuse code s).st.health = s.health ∧ (refuse code s).st.clocks = s.clocks ∧
    (refuse code s).st.chans = s.chans ∧ (refuse code s).st.dies = s.dies ∧ (refuse code s).st.ref = s.ref ∧
    (refuse code s).st.cal = s.cal ∧ (refuse code s).st.groups = s.groups ∧ (refuse code s).st.map = s.map ∧
    (refuse code s).st.streams = s.streams ∧ (refuse code s).st.frame = s.frame ∧ (refuse code s).st.buf = s.buf ∧
    (refuse code s).st.link = s.link ∧ (refuse code s).st.units = s.units ∧ (refuse code s).st.outs = s.outs ∧
    (refuse code s).st.aux = s.aux ∧ (refuse code s).st.ev = s.ev ∧ (refuse code s).st.ptp = s.ptp ∧
    (refuse code s).st.modPhase = s.modPhase ∧ (refuse code s).st.shift = s.shift ∧
    (refuse code s).st.segIdent = s.segIdent ∧ (refuse code s).st.fv = s.fv ∧ (refuse code s).st.out = s.out := by
  simp [refuse]

@[simp] theorem accept_frame (s : State) :
    (accept s).st.pending = s.pending ∧ (accept s).st.power = s.power ∧ (accept s).st.time = s.time ∧
    (accept s).st.conf = s.conf ∧ (accept s).st.act = s.act ∧ (accept s).st.dict = s.dict ∧
    (accept s).st.store = s.store ∧ (accept s).st.health = s.health ∧ (accept s).st.clocks = s.clocks ∧
    (accept s).st.chans = s.chans ∧ (accept s).st.dies = s.dies ∧ (accept s).st.ref = s.ref ∧
    (accept s).st.cal = s.cal ∧ (accept s).st.groups = s.groups ∧ (accept s).st.map = s.map ∧
    (accept s).st.streams = s.streams ∧ (accept s).st.frame = s.frame ∧ (accept s).st.buf = s.buf ∧
    (accept s).st.link = s.link ∧ (accept s).st.units = s.units ∧ (accept s).st.outs = s.outs ∧
    (accept s).st.aux = s.aux ∧ (accept s).st.ev = s.ev ∧ (accept s).st.ptp = s.ptp ∧
    (accept s).st.modPhase = s.modPhase ∧ (accept s).st.shift = s.shift ∧ (accept s).st.segIdent = s.segIdent ∧
    (accept s).st.fv = s.fv ∧ (accept s).st.out = s.out := by
  simp [accept]

@[simp] theorem raisePn_frame (nn : Nat) (s : State) :
    (raisePn nn s).pending = s.pending ∧ (raisePn nn s).power = s.power ∧ (raisePn nn s).time = s.time ∧
    (raisePn nn s).conf = s.conf ∧ (raisePn nn s).act = s.act ∧ (raisePn nn s).dict = s.dict ∧
    (raisePn nn s).store = s.store ∧ (raisePn nn s).clocks = s.clocks ∧ (raisePn nn s).chans = s.chans ∧
    (raisePn nn s).dies = s.dies ∧ (raisePn nn s).ref = s.ref ∧ (raisePn nn s).cal = s.cal ∧
    (raisePn nn s).groups = s.groups ∧ (raisePn nn s).map = s.map ∧ (raisePn nn s).streams = s.streams ∧
    (raisePn nn s).frame = s.frame ∧ (raisePn nn s).buf = s.buf ∧ (raisePn nn s).link = s.link ∧
    (raisePn nn s).units = s.units ∧ (raisePn nn s).outs = s.outs ∧ (raisePn nn s).aux = s.aux ∧
    (raisePn nn s).ev = s.ev ∧ (raisePn nn s).ptp = s.ptp ∧ (raisePn nn s).modPhase = s.modPhase ∧
    (raisePn nn s).shift = s.shift ∧ (raisePn nn s).segIdent = s.segIdent ∧ (raisePn nn s).fv = s.fv ∧
    (raisePn nn s).out = s.out := by
  simp [raisePn]

@[simp] theorem risePn_frame (nn : Nat) (s : State) :
    (risePn nn s).pending = s.pending ∧ (risePn nn s).power = s.power ∧ (risePn nn s).time = s.time ∧
    (risePn nn s).conf = s.conf ∧ (risePn nn s).act = s.act ∧ (risePn nn s).dict = s.dict ∧
    (risePn nn s).store = s.store ∧ (risePn nn s).clocks = s.clocks ∧ (risePn nn s).chans = s.chans ∧
    (risePn nn s).dies = s.dies ∧ (risePn nn s).ref = s.ref ∧ (risePn nn s).cal = s.cal ∧
    (risePn nn s).groups = s.groups ∧ (risePn nn s).map = s.map ∧ (risePn nn s).streams = s.streams ∧
    (risePn nn s).frame = s.frame ∧ (risePn nn s).buf = s.buf ∧ (risePn nn s).link = s.link ∧
    (risePn nn s).units = s.units ∧ (risePn nn s).outs = s.outs ∧ (risePn nn s).aux = s.aux ∧
    (risePn nn s).ev = s.ev ∧ (risePn nn s).ptp = s.ptp ∧ (risePn nn s).modPhase = s.modPhase ∧
    (risePn nn s).shift = s.shift ∧ (risePn nn s).segIdent = s.segIdent ∧ (risePn nn s).fv = s.fv ∧
    (risePn nn s).out = s.out := by
  simp [risePn]

@[simp] theorem keepSave_frame (s : State) :
    (keepSave s).pending = s.pending ∧ (keepSave s).power = s.power ∧ (keepSave s).time = s.time ∧
    (keepSave s).conf = s.conf ∧ (keepSave s).act = s.act ∧ (keepSave s).dict = s.dict ∧
    (keepSave s).health = s.health ∧ (keepSave s).clocks = s.clocks ∧ (keepSave s).chans = s.chans ∧
    (keepSave s).dies = s.dies ∧ (keepSave s).ref = s.ref ∧ (keepSave s).cal = s.cal ∧
    (keepSave s).groups = s.groups ∧ (keepSave s).map = s.map ∧ (keepSave s).streams = s.streams ∧
    (keepSave s).frame = s.frame ∧ (keepSave s).buf = s.buf ∧ (keepSave s).link = s.link ∧
    (keepSave s).units = s.units ∧ (keepSave s).outs = s.outs ∧ (keepSave s).aux = s.aux ∧ (keepSave s).ev = s.ev ∧
    (keepSave s).ptp = s.ptp ∧ (keepSave s).modPhase = s.modPhase ∧ (keepSave s).shift = s.shift ∧
    (keepSave s).segIdent = s.segIdent ∧ (keepSave s).fv = s.fv ∧ (keepSave s).out = s.out := by
  unfold keepSave; (repeat' split) <;> simp

@[simp] theorem halfMastStep_frame (s : State) :
    (halfMastStep s).pending = s.pending ∧ (halfMastStep s).power = s.power ∧ (halfMastStep s).time = s.time ∧
    (halfMastStep s).conf = s.conf ∧ (halfMastStep s).act = s.act ∧ (halfMastStep s).dict = s.dict ∧
    (halfMastStep s).clocks = s.clocks ∧ (halfMastStep s).chans = s.chans ∧ (halfMastStep s).dies = s.dies ∧
    (halfMastStep s).ref = s.ref ∧ (halfMastStep s).cal = s.cal ∧ (halfMastStep s).groups = s.groups ∧
    (halfMastStep s).map = s.map ∧ (halfMastStep s).streams = s.streams ∧ (halfMastStep s).frame = s.frame ∧
    (halfMastStep s).buf = s.buf ∧ (halfMastStep s).link = s.link ∧ (halfMastStep s).units = s.units ∧
    (halfMastStep s).outs = s.outs ∧ (halfMastStep s).aux = s.aux ∧ (halfMastStep s).ev = s.ev ∧
    (halfMastStep s).ptp = s.ptp ∧ (halfMastStep s).modPhase = s.modPhase ∧ (halfMastStep s).shift = s.shift ∧
    (halfMastStep s).segIdent = s.segIdent ∧ (halfMastStep s).fv = s.fv ∧ (halfMastStep s).out = s.out := by
  simp [halfMastStep]

@[simp] theorem levelStep_frame (nn : Nat) (s : State) :
    (levelStep nn s).pending = s.pending ∧ (levelStep nn s).power = s.power ∧ (levelStep nn s).time = s.time ∧
    (levelStep nn s).conf = s.conf ∧ (levelStep nn s).act = s.act ∧ (levelStep nn s).dict = s.dict ∧
    (levelStep nn s).store = s.store ∧ (levelStep nn s).clocks = s.clocks ∧ (levelStep nn s).chans = s.chans ∧
    (levelStep nn s).dies = s.dies ∧ (levelStep nn s).ref = s.ref ∧ (levelStep nn s).cal = s.cal ∧
    (levelStep nn s).groups = s.groups ∧ (levelStep nn s).map = s.map ∧ (levelStep nn s).streams = s.streams ∧
    (levelStep nn s).frame = s.frame ∧ (levelStep nn s).buf = s.buf ∧ (levelStep nn s).link = s.link ∧
    (levelStep nn s).units = s.units ∧ (levelStep nn s).outs = s.outs ∧ (levelStep nn s).aux = s.aux ∧
    (levelStep nn s).ev = s.ev ∧ (levelStep nn s).ptp = s.ptp ∧ (levelStep nn s).modPhase = s.modPhase ∧
    (levelStep nn s).shift = s.shift ∧ (levelStep nn s).segIdent = s.segIdent ∧ (levelStep nn s).fv = s.fv ∧
    (levelStep nn s).out = s.out := by
  simp [levelStep]

@[simp] theorem nextCyc_frame (s : State) :
    (nextCyc s).pending = s.pending ∧ (nextCyc s).power = s.power ∧ (nextCyc s).time = s.time ∧
    (nextCyc s).conf = s.conf ∧ (nextCyc s).act = s.act ∧ (nextCyc s).dict = s.dict ∧ (nextCyc s).store = s.store ∧
    (nextCyc s).clocks = s.clocks ∧ (nextCyc s).chans = s.chans ∧ (nextCyc s).dies = s.dies ∧
    (nextCyc s).ref = s.ref ∧ (nextCyc s).cal = s.cal ∧ (nextCyc s).groups = s.groups ∧ (nextCyc s).map = s.map ∧
    (nextCyc s).streams = s.streams ∧ (nextCyc s).frame = s.frame ∧ (nextCyc s).buf = s.buf ∧
    (nextCyc s).link = s.link ∧ (nextCyc s).units = s.units ∧ (nextCyc s).outs = s.outs ∧ (nextCyc s).aux = s.aux ∧
    (nextCyc s).ev = s.ev ∧ (nextCyc s).ptp = s.ptp ∧ (nextCyc s).modPhase = s.modPhase ∧
    (nextCyc s).shift = s.shift ∧ (nextCyc s).segIdent = s.segIdent ∧ (nextCyc s).fv = s.fv ∧ (nextCyc s).out = s.out := by
  simp [nextCyc]

@[simp] theorem settle_frame (s : State) :
    (settle s).pending = s.pending ∧ (settle s).power = s.power ∧ (settle s).time = s.time ∧
    (settle s).conf = s.conf ∧ (settle s).act = s.act ∧ (settle s).dict = s.dict ∧ (settle s).clocks = s.clocks ∧
    (settle s).chans = s.chans ∧ (settle s).dies = s.dies ∧ (settle s).ref = s.ref ∧ (settle s).cal = s.cal ∧
    (settle s).groups = s.groups ∧ (settle s).map = s.map ∧ (settle s).streams = s.streams ∧
    (settle s).frame = s.frame ∧ (settle s).buf = s.buf ∧ (settle s).link = s.link ∧ (settle s).units = s.units ∧
    (settle s).outs = s.outs ∧ (settle s).aux = s.aux ∧ (settle s).ev = s.ev ∧ (settle s).ptp = s.ptp ∧
    (settle s).modPhase = s.modPhase ∧ (settle s).shift = s.shift ∧ (settle s).segIdent = s.segIdent ∧
    (settle s).fv = s.fv ∧ (settle s).out = s.out := by
  simp [settle]

@[simp] theorem openFrame_frame (s : State) :
    (openFrame s).pending = s.pending ∧ (openFrame s).power = s.power ∧ (openFrame s).conf = s.conf ∧
    (openFrame s).act = s.act ∧ (openFrame s).dict = s.dict ∧ (openFrame s).store = s.store ∧
    (openFrame s).health = s.health ∧ (openFrame s).clocks = s.clocks ∧ (openFrame s).chans = s.chans ∧
    (openFrame s).dies = s.dies ∧ (openFrame s).ref = s.ref ∧ (openFrame s).cal = s.cal ∧
    (openFrame s).groups = s.groups ∧ (openFrame s).map = s.map ∧ (openFrame s).streams = s.streams ∧
    (openFrame s).frame = s.frame ∧ (openFrame s).buf = s.buf ∧ (openFrame s).link = s.link ∧
    (openFrame s).units = s.units ∧ (openFrame s).outs = s.outs ∧ (openFrame s).aux = s.aux ∧
    (openFrame s).ev = s.ev ∧ (openFrame s).ptp = s.ptp ∧ (openFrame s).modPhase = s.modPhase ∧
    (openFrame s).shift = s.shift ∧ (openFrame s).segIdent = s.segIdent ∧ (openFrame s).fv = s.fv ∧
    (openFrame s).out = s.out ∧ (openFrame s).time.tw = s.time.tw ∧ (openFrame s).time.quality = s.time.quality ∧
    (openFrame s).time.epoch = s.time.epoch := by
  simp [openFrame]

@[simp] theorem landLines_frame (m : Nat) (s : State) :
    (landLines m s).pending = s.pending ∧ (landLines m s).power = s.power ∧ (landLines m s).time = s.time ∧
    (landLines m s).conf = s.conf ∧ (landLines m s).act = s.act ∧ (landLines m s).dict = s.dict ∧
    (landLines m s).store = s.store ∧ (landLines m s).health = s.health ∧ (landLines m s).clocks = s.clocks ∧
    (landLines m s).chans = s.chans ∧ (landLines m s).dies = s.dies ∧ (landLines m s).ref = s.ref ∧
    (landLines m s).cal = s.cal ∧ (landLines m s).groups = s.groups ∧ (landLines m s).map = s.map ∧
    (landLines m s).streams = s.streams ∧ (landLines m s).frame = s.frame ∧ (landLines m s).link = s.link ∧
    (landLines m s).units = s.units ∧ (landLines m s).outs = s.outs ∧ (landLines m s).aux = s.aux ∧
    (landLines m s).ev = s.ev ∧ (landLines m s).ptp = s.ptp ∧ (landLines m s).modPhase = s.modPhase ∧
    (landLines m s).shift = s.shift ∧ (landLines m s).segIdent = s.segIdent ∧ (landLines m s).fv = s.fv ∧
    (landLines m s).out = s.out := by
  simp [landLines]

@[simp] theorem ignoreWrites_frame (n : Nat) (s : State) :
    (ignoreWrites n s).pending = s.pending ∧ (ignoreWrites n s).power = s.power ∧ (ignoreWrites n s).time = s.time ∧
    (ignoreWrites n s).conf = s.conf ∧ (ignoreWrites n s).act = s.act ∧ (ignoreWrites n s).dict = s.dict ∧
    (ignoreWrites n s).store = s.store ∧ (ignoreWrites n s).clocks = s.clocks ∧ (ignoreWrites n s).chans = s.chans ∧
    (ignoreWrites n s).dies = s.dies ∧ (ignoreWrites n s).ref = s.ref ∧ (ignoreWrites n s).cal = s.cal ∧
    (ignoreWrites n s).groups = s.groups ∧ (ignoreWrites n s).map = s.map ∧ (ignoreWrites n s).streams = s.streams ∧
    (ignoreWrites n s).frame = s.frame ∧ (ignoreWrites n s).link = s.link ∧ (ignoreWrites n s).units = s.units ∧
    (ignoreWrites n s).outs = s.outs ∧ (ignoreWrites n s).aux = s.aux ∧ (ignoreWrites n s).ev = s.ev ∧
    (ignoreWrites n s).ptp = s.ptp ∧ (ignoreWrites n s).modPhase = s.modPhase ∧ (ignoreWrites n s).shift = s.shift ∧
    (ignoreWrites n s).segIdent = s.segIdent ∧ (ignoreWrites n s).fv = s.fv ∧ (ignoreWrites n s).out = s.out := by
  simp [ignoreWrites]

@[simp] theorem writeCycles_frame (n : Nat) (s : State) :
    (writeCycles n s).pending = s.pending ∧ (writeCycles n s).power = s.power ∧ (writeCycles n s).time = s.time ∧
    (writeCycles n s).conf = s.conf ∧ (writeCycles n s).act = s.act ∧ (writeCycles n s).dict = s.dict ∧
    (writeCycles n s).store = s.store ∧ (writeCycles n s).clocks = s.clocks ∧ (writeCycles n s).chans = s.chans ∧
    (writeCycles n s).dies = s.dies ∧ (writeCycles n s).ref = s.ref ∧ (writeCycles n s).cal = s.cal ∧
    (writeCycles n s).groups = s.groups ∧ (writeCycles n s).map = s.map ∧ (writeCycles n s).streams = s.streams ∧
    (writeCycles n s).frame = s.frame ∧ (writeCycles n s).link = s.link ∧ (writeCycles n s).units = s.units ∧
    (writeCycles n s).outs = s.outs ∧ (writeCycles n s).aux = s.aux ∧ (writeCycles n s).ev = s.ev ∧
    (writeCycles n s).ptp = s.ptp ∧ (writeCycles n s).modPhase = s.modPhase ∧ (writeCycles n s).shift = s.shift ∧
    (writeCycles n s).segIdent = s.segIdent ∧ (writeCycles n s).fv = s.fv ∧ (writeCycles n s).out = s.out := by
  simp [writeCycles]

@[simp] theorem toTick_frame (s : State) :
    (toTick s).pending = s.pending ∧ (toTick s).power = s.power ∧ (toTick s).conf = s.conf ∧ (toTick s).act = s.act ∧
    (toTick s).dict = s.dict ∧ (toTick s).store = s.store ∧ (toTick s).clocks = s.clocks ∧
    (toTick s).chans = s.chans ∧ (toTick s).dies = s.dies ∧ (toTick s).ref = s.ref ∧ (toTick s).cal = s.cal ∧
    (toTick s).groups = s.groups ∧ (toTick s).map = s.map ∧ (toTick s).streams = s.streams ∧
    (toTick s).frame = s.frame ∧ (toTick s).link = s.link ∧ (toTick s).units = s.units ∧ (toTick s).outs = s.outs ∧
    (toTick s).aux = s.aux ∧ (toTick s).ev = s.ev ∧ (toTick s).ptp = s.ptp ∧ (toTick s).modPhase = s.modPhase ∧
    (toTick s).shift = s.shift ∧ (toTick s).segIdent = s.segIdent ∧ (toTick s).fv = s.fv ∧ (toTick s).out = s.out := by
  simp [toTick]

@[simp] theorem idleCycle_frame (s : State) :
    (idleCycle s).pending = s.pending ∧ (idleCycle s).power = s.power ∧ (idleCycle s).conf = s.conf ∧
    (idleCycle s).act = s.act ∧ (idleCycle s).dict = s.dict ∧ (idleCycle s).store = s.store ∧
    (idleCycle s).clocks = s.clocks ∧ (idleCycle s).chans = s.chans ∧ (idleCycle s).dies = s.dies ∧
    (idleCycle s).ref = s.ref ∧ (idleCycle s).cal = s.cal ∧ (idleCycle s).groups = s.groups ∧
    (idleCycle s).map = s.map ∧ (idleCycle s).streams = s.streams ∧ (idleCycle s).frame = s.frame ∧
    (idleCycle s).link = s.link ∧ (idleCycle s).units = s.units ∧ (idleCycle s).outs = s.outs ∧
    (idleCycle s).aux = s.aux ∧ (idleCycle s).ev = s.ev ∧ (idleCycle s).ptp = s.ptp ∧
    (idleCycle s).modPhase = s.modPhase ∧ (idleCycle s).shift = s.shift ∧ (idleCycle s).segIdent = s.segIdent ∧
    (idleCycle s).fv = s.fv ∧ (idleCycle s).out = s.out := by
  unfold idleCycle; (repeat' split) <;> simp

@[simp] theorem imageStart_frame (s : State) :
    (imageStart s).pending = s.pending ∧ (imageStart s).power = s.power ∧ (imageStart s).time = s.time ∧
    (imageStart s).conf = s.conf ∧ (imageStart s).act = s.act ∧ (imageStart s).dict = s.dict ∧
    (imageStart s).health = s.health ∧ (imageStart s).clocks = s.clocks ∧ (imageStart s).chans = s.chans ∧
    (imageStart s).dies = s.dies ∧ (imageStart s).ref = s.ref ∧ (imageStart s).cal = s.cal ∧
    (imageStart s).groups = s.groups ∧ (imageStart s).map = s.map ∧ (imageStart s).streams = s.streams ∧
    (imageStart s).frame = s.frame ∧ (imageStart s).buf = s.buf ∧ (imageStart s).link = s.link ∧
    (imageStart s).units = s.units ∧ (imageStart s).outs = s.outs ∧ (imageStart s).aux = s.aux ∧
    (imageStart s).ev = s.ev ∧ (imageStart s).ptp = s.ptp ∧ (imageStart s).modPhase = s.modPhase ∧
    (imageStart s).shift = s.shift ∧ (imageStart s).segIdent = s.segIdent ∧ (imageStart s).fv = s.fv ∧
    (imageStart s).out = s.out := by
  simp [imageStart]

@[simp] theorem imageSave_frame (s : State) :
    (imageSave s).pending = s.pending ∧ (imageSave s).power = s.power ∧ (imageSave s).time = s.time ∧
    (imageSave s).conf = s.conf ∧ (imageSave s).act = s.act ∧ (imageSave s).dict = s.dict ∧
    (imageSave s).health = s.health ∧ (imageSave s).clocks = s.clocks ∧ (imageSave s).chans = s.chans ∧
    (imageSave s).dies = s.dies ∧ (imageSave s).ref = s.ref ∧ (imageSave s).cal = s.cal ∧
    (imageSave s).groups = s.groups ∧ (imageSave s).map = s.map ∧ (imageSave s).streams = s.streams ∧
    (imageSave s).frame = s.frame ∧ (imageSave s).buf = s.buf ∧ (imageSave s).link = s.link ∧
    (imageSave s).units = s.units ∧ (imageSave s).outs = s.outs ∧ (imageSave s).aux = s.aux ∧
    (imageSave s).ev = s.ev ∧ (imageSave s).ptp = s.ptp ∧ (imageSave s).modPhase = s.modPhase ∧
    (imageSave s).shift = s.shift ∧ (imageSave s).segIdent = s.segIdent ∧ (imageSave s).fv = s.fv ∧
    (imageSave s).out = s.out := by
  unfold imageSave; (repeat' split) <;> simp

@[simp] theorem mirrorStart_frame (im : Image) (s : State) :
    (mirrorStart im s).pending = s.pending ∧ (mirrorStart im s).power = s.power ∧ (mirrorStart im s).time = s.time ∧
    (mirrorStart im s).conf = s.conf ∧ (mirrorStart im s).act = s.act ∧ (mirrorStart im s).dict = s.dict ∧
    (mirrorStart im s).health = s.health ∧ (mirrorStart im s).clocks = s.clocks ∧ (mirrorStart im s).chans = s.chans ∧
    (mirrorStart im s).dies = s.dies ∧ (mirrorStart im s).ref = s.ref ∧ (mirrorStart im s).cal = s.cal ∧
    (mirrorStart im s).groups = s.groups ∧ (mirrorStart im s).map = s.map ∧ (mirrorStart im s).streams = s.streams ∧
    (mirrorStart im s).frame = s.frame ∧ (mirrorStart im s).buf = s.buf ∧ (mirrorStart im s).link = s.link ∧
    (mirrorStart im s).units = s.units ∧ (mirrorStart im s).outs = s.outs ∧ (mirrorStart im s).aux = s.aux ∧
    (mirrorStart im s).ev = s.ev ∧ (mirrorStart im s).ptp = s.ptp ∧ (mirrorStart im s).modPhase = s.modPhase ∧
    (mirrorStart im s).shift = s.shift ∧ (mirrorStart im s).segIdent = s.segIdent ∧ (mirrorStart im s).fv = s.fv ∧
    (mirrorStart im s).out = s.out := by
  simp [mirrorStart]

@[simp] theorem mirrorImage_frame (im : Image) (s : State) :
    (mirrorImage im s).pending = s.pending ∧ (mirrorImage im s).power = s.power ∧ (mirrorImage im s).time = s.time ∧
    (mirrorImage im s).conf = s.conf ∧ (mirrorImage im s).act = s.act ∧ (mirrorImage im s).dict = s.dict ∧
    (mirrorImage im s).health = s.health ∧ (mirrorImage im s).clocks = s.clocks ∧ (mirrorImage im s).chans = s.chans ∧
    (mirrorImage im s).dies = s.dies ∧ (mirrorImage im s).ref = s.ref ∧ (mirrorImage im s).cal = s.cal ∧
    (mirrorImage im s).groups = s.groups ∧ (mirrorImage im s).map = s.map ∧ (mirrorImage im s).streams = s.streams ∧
    (mirrorImage im s).frame = s.frame ∧ (mirrorImage im s).buf = s.buf ∧ (mirrorImage im s).link = s.link ∧
    (mirrorImage im s).units = s.units ∧ (mirrorImage im s).outs = s.outs ∧ (mirrorImage im s).aux = s.aux ∧
    (mirrorImage im s).ev = s.ev ∧ (mirrorImage im s).ptp = s.ptp ∧ (mirrorImage im s).modPhase = s.modPhase ∧
    (mirrorImage im s).shift = s.shift ∧ (mirrorImage im s).segIdent = s.segIdent ∧ (mirrorImage im s).fv = s.fv ∧
    (mirrorImage im s).out = s.out := by
  simp [mirrorImage]

@[simp] theorem imageWriteDone_frame (ok : Bool) (s : State) :
    (imageWriteDone ok s).pending = s.pending ∧ (imageWriteDone ok s).power = s.power ∧
    (imageWriteDone ok s).time = s.time ∧ (imageWriteDone ok s).conf = s.conf ∧ (imageWriteDone ok s).act = s.act ∧
    (imageWriteDone ok s).dict = s.dict ∧ (imageWriteDone ok s).clocks = s.clocks ∧
    (imageWriteDone ok s).chans = s.chans ∧ (imageWriteDone ok s).dies = s.dies ∧ (imageWriteDone ok s).ref = s.ref ∧
    (imageWriteDone ok s).cal = s.cal ∧ (imageWriteDone ok s).groups = s.groups ∧ (imageWriteDone ok s).map = s.map ∧
    (imageWriteDone ok s).streams = s.streams ∧ (imageWriteDone ok s).frame = s.frame ∧
    (imageWriteDone ok s).buf = s.buf ∧ (imageWriteDone ok s).link = s.link ∧ (imageWriteDone ok s).units = s.units ∧
    (imageWriteDone ok s).outs = s.outs ∧ (imageWriteDone ok s).aux = s.aux ∧ (imageWriteDone ok s).ev = s.ev ∧
    (imageWriteDone ok s).ptp = s.ptp ∧ (imageWriteDone ok s).modPhase = s.modPhase ∧
    (imageWriteDone ok s).shift = s.shift ∧ (imageWriteDone ok s).segIdent = s.segIdent ∧
    (imageWriteDone ok s).fv = s.fv ∧ (imageWriteDone ok s).out = s.out := by
  unfold imageWriteDone; (repeat' split) <;> simp

@[simp] theorem mirrorFollow_frame (s : State) :
    (mirrorFollow s).pending = s.pending ∧ (mirrorFollow s).power = s.power ∧ (mirrorFollow s).time = s.time ∧
    (mirrorFollow s).conf = s.conf ∧ (mirrorFollow s).act = s.act ∧ (mirrorFollow s).dict = s.dict ∧
    (mirrorFollow s).health = s.health ∧ (mirrorFollow s).clocks = s.clocks ∧ (mirrorFollow s).chans = s.chans ∧
    (mirrorFollow s).dies = s.dies ∧ (mirrorFollow s).ref = s.ref ∧ (mirrorFollow s).cal = s.cal ∧
    (mirrorFollow s).groups = s.groups ∧ (mirrorFollow s).map = s.map ∧ (mirrorFollow s).streams = s.streams ∧
    (mirrorFollow s).frame = s.frame ∧ (mirrorFollow s).buf = s.buf ∧ (mirrorFollow s).link = s.link ∧
    (mirrorFollow s).units = s.units ∧ (mirrorFollow s).outs = s.outs ∧ (mirrorFollow s).aux = s.aux ∧
    (mirrorFollow s).ev = s.ev ∧ (mirrorFollow s).ptp = s.ptp ∧ (mirrorFollow s).modPhase = s.modPhase ∧
    (mirrorFollow s).shift = s.shift ∧ (mirrorFollow s).segIdent = s.segIdent ∧ (mirrorFollow s).fv = s.fv ∧
    (mirrorFollow s).out = s.out := by
  unfold mirrorFollow; (repeat' split) <;> simp

@[simp] theorem slotMirrorDone_frame (o : MirrorEnd) (s : State) :
    (slotMirrorDone o s).pending = s.pending ∧ (slotMirrorDone o s).power = s.power ∧
    (slotMirrorDone o s).time = s.time ∧ (slotMirrorDone o s).conf = s.conf ∧ (slotMirrorDone o s).act = s.act ∧
    (slotMirrorDone o s).dict = s.dict ∧ (slotMirrorDone o s).clocks = s.clocks ∧
    (slotMirrorDone o s).chans = s.chans ∧ (slotMirrorDone o s).dies = s.dies ∧ (slotMirrorDone o s).ref = s.ref ∧
    (slotMirrorDone o s).cal = s.cal ∧ (slotMirrorDone o s).groups = s.groups ∧ (slotMirrorDone o s).map = s.map ∧
    (slotMirrorDone o s).streams = s.streams ∧ (slotMirrorDone o s).frame = s.frame ∧
    (slotMirrorDone o s).buf = s.buf ∧ (slotMirrorDone o s).link = s.link ∧ (slotMirrorDone o s).units = s.units ∧
    (slotMirrorDone o s).outs = s.outs ∧ (slotMirrorDone o s).aux = s.aux ∧ (slotMirrorDone o s).ev = s.ev ∧
    (slotMirrorDone o s).ptp = s.ptp ∧ (slotMirrorDone o s).modPhase = s.modPhase ∧
    (slotMirrorDone o s).shift = s.shift ∧ (slotMirrorDone o s).segIdent = s.segIdent ∧
    (slotMirrorDone o s).fv = s.fv ∧ (slotMirrorDone o s).out = s.out := by
  unfold slotMirrorDone; (repeat' split) <;> simp

@[simp] theorem keepWriteDone_frame (ok : Bool) (s : State) :
    (keepWriteDone ok s).pending = s.pending ∧ (keepWriteDone ok s).power = s.power ∧
    (keepWriteDone ok s).time = s.time ∧ (keepWriteDone ok s).conf = s.conf ∧ (keepWriteDone ok s).act = s.act ∧
    (keepWriteDone ok s).dict = s.dict ∧ (keepWriteDone ok s).health = s.health ∧
    (keepWriteDone ok s).clocks = s.clocks ∧ (keepWriteDone ok s).chans = s.chans ∧
    (keepWriteDone ok s).dies = s.dies ∧ (keepWriteDone ok s).ref = s.ref ∧ (keepWriteDone ok s).cal = s.cal ∧
    (keepWriteDone ok s).groups = s.groups ∧ (keepWriteDone ok s).map = s.map ∧
    (keepWriteDone ok s).streams = s.streams ∧ (keepWriteDone ok s).frame = s.frame ∧
    (keepWriteDone ok s).buf = s.buf ∧ (keepWriteDone ok s).link = s.link ∧ (keepWriteDone ok s).units = s.units ∧
    (keepWriteDone ok s).outs = s.outs ∧ (keepWriteDone ok s).aux = s.aux ∧ (keepWriteDone ok s).ev = s.ev ∧
    (keepWriteDone ok s).ptp = s.ptp ∧ (keepWriteDone ok s).modPhase = s.modPhase ∧
    (keepWriteDone ok s).shift = s.shift ∧ (keepWriteDone ok s).segIdent = s.segIdent ∧
    (keepWriteDone ok s).fv = s.fv ∧ (keepWriteDone ok s).out = s.out := by
  unfold keepWriteDone; (repeat' split) <;> simp

@[simp] theorem schedDirect_frame (op : Op) (r : Role) (F : TW) (s : State) :
    (schedDirect op r F s).pending = s.pending ∧ (schedDirect op r F s).power = s.power ∧
    (schedDirect op r F s).time = s.time ∧ (schedDirect op r F s).conf = s.conf ∧
    (schedDirect op r F s).dict = s.dict ∧ (schedDirect op r F s).store = s.store ∧
    (schedDirect op r F s).health = s.health ∧ (schedDirect op r F s).clocks = s.clocks ∧
    (schedDirect op r F s).chans = s.chans ∧ (schedDirect op r F s).dies = s.dies ∧
    (schedDirect op r F s).ref = s.ref ∧ (schedDirect op r F s).cal = s.cal ∧
    (schedDirect op r F s).groups = s.groups ∧ (schedDirect op r F s).map = s.map ∧
    (schedDirect op r F s).streams = s.streams ∧ (schedDirect op r F s).frame = s.frame ∧
    (schedDirect op r F s).buf = s.buf ∧ (schedDirect op r F s).link = s.link ∧
    (schedDirect op r F s).units = s.units ∧ (schedDirect op r F s).outs = s.outs ∧
    (schedDirect op r F s).aux = s.aux ∧ (schedDirect op r F s).ev = s.ev ∧ (schedDirect op r F s).ptp = s.ptp ∧
    (schedDirect op r F s).modPhase = s.modPhase ∧ (schedDirect op r F s).shift = s.shift ∧
    (schedDirect op r F s).segIdent = s.segIdent ∧ (schedDirect op r F s).fv = s.fv ∧
    (schedDirect op r F s).out = s.out := by
  simp [schedDirect]

@[simp] theorem acceptDirect_frame (op : Op) (r : Role) (cond : Nat) (F : TW) (s : State) :
    (acceptDirect op r cond F s).st.pending = s.pending ∧ (acceptDirect op r cond F s).st.power = s.power ∧
    (acceptDirect op r cond F s).st.time = s.time ∧ (acceptDirect op r cond F s).st.conf = s.conf ∧
    (acceptDirect op r cond F s).st.dict = s.dict ∧ (acceptDirect op r cond F s).st.store = s.store ∧
    (acceptDirect op r cond F s).st.health = s.health ∧ (acceptDirect op r cond F s).st.clocks = s.clocks ∧
    (acceptDirect op r cond F s).st.chans = s.chans ∧ (acceptDirect op r cond F s).st.dies = s.dies ∧
    (acceptDirect op r cond F s).st.ref = s.ref ∧ (acceptDirect op r cond F s).st.cal = s.cal ∧
    (acceptDirect op r cond F s).st.groups = s.groups ∧ (acceptDirect op r cond F s).st.map = s.map ∧
    (acceptDirect op r cond F s).st.streams = s.streams ∧ (acceptDirect op r cond F s).st.frame = s.frame ∧
    (acceptDirect op r cond F s).st.buf = s.buf ∧ (acceptDirect op r cond F s).st.link = s.link ∧
    (acceptDirect op r cond F s).st.units = s.units ∧ (acceptDirect op r cond F s).st.outs = s.outs ∧
    (acceptDirect op r cond F s).st.aux = s.aux ∧ (acceptDirect op r cond F s).st.ev = s.ev ∧
    (acceptDirect op r cond F s).st.ptp = s.ptp ∧ (acceptDirect op r cond F s).st.modPhase = s.modPhase ∧
    (acceptDirect op r cond F s).st.shift = s.shift ∧ (acceptDirect op r cond F s).st.segIdent = s.segIdent ∧
    (acceptDirect op r cond F s).st.fv = s.fv ∧ (acceptDirect op r cond F s).st.out = s.out := by
  unfold acceptDirect; (repeat' split) <;> simp

@[simp] theorem hoistTrace_frame (f : Option AdmitFail) (code : Nat) (s : State) :
    (hoistTrace f code s).pending = s.pending ∧ (hoistTrace f code s).power = s.power ∧
    (hoistTrace f code s).time = s.time ∧ (hoistTrace f code s).act = s.act ∧ (hoistTrace f code s).dict = s.dict ∧
    (hoistTrace f code s).store = s.store ∧ (hoistTrace f code s).clocks = s.clocks ∧
    (hoistTrace f code s).chans = s.chans ∧ (hoistTrace f code s).dies = s.dies ∧ (hoistTrace f code s).ref = s.ref ∧
    (hoistTrace f code s).cal = s.cal ∧ (hoistTrace f code s).groups = s.groups ∧ (hoistTrace f code s).map = s.map ∧
    (hoistTrace f code s).streams = s.streams ∧ (hoistTrace f code s).frame = s.frame ∧
    (hoistTrace f code s).buf = s.buf ∧ (hoistTrace f code s).link = s.link ∧ (hoistTrace f code s).units = s.units ∧
    (hoistTrace f code s).outs = s.outs ∧ (hoistTrace f code s).aux = s.aux ∧ (hoistTrace f code s).ev = s.ev ∧
    (hoistTrace f code s).ptp = s.ptp ∧ (hoistTrace f code s).modPhase = s.modPhase ∧
    (hoistTrace f code s).shift = s.shift ∧ (hoistTrace f code s).segIdent = s.segIdent ∧
    (hoistTrace f code s).fv = s.fv ∧ (hoistTrace f code s).out = s.out ∧ (hoistTrace f code s).conf.cfg = s.conf.cfg := by
  unfold hoistTrace; (repeat' split) <;> simp

@[simp] theorem hoistTake_frame (k : BitVec 128) (r : Role) (s : State) :
    (hoistTake k r s).pending = s.pending ∧ (hoistTake k r s).power = s.power ∧ (hoistTake k r s).time = s.time ∧
    (hoistTake k r s).act = s.act ∧ (hoistTake k r s).dict = s.dict ∧ (hoistTake k r s).store = s.store ∧
    (hoistTake k r s).health = s.health ∧ (hoistTake k r s).clocks = s.clocks ∧ (hoistTake k r s).chans = s.chans ∧
    (hoistTake k r s).dies = s.dies ∧ (hoistTake k r s).ref = s.ref ∧ (hoistTake k r s).cal = s.cal ∧
    (hoistTake k r s).groups = s.groups ∧ (hoistTake k r s).map = s.map ∧ (hoistTake k r s).streams = s.streams ∧
    (hoistTake k r s).frame = s.frame ∧ (hoistTake k r s).buf = s.buf ∧ (hoistTake k r s).link = s.link ∧
    (hoistTake k r s).units = s.units ∧ (hoistTake k r s).outs = s.outs ∧ (hoistTake k r s).aux = s.aux ∧
    (hoistTake k r s).ev = s.ev ∧ (hoistTake k r s).ptp = s.ptp ∧ (hoistTake k r s).modPhase = s.modPhase ∧
    (hoistTake k r s).shift = s.shift ∧ (hoistTake k r s).segIdent = s.segIdent ∧ (hoistTake k r s).fv = s.fv ∧
    (hoistTake k r s).out = s.out ∧ (hoistTake k r s).conf.cfg = s.conf.cfg := by
  simp [hoistTake]

@[simp] theorem placeFrame_frame (q : Nat) (f : Frame) (s : State) :
    (placeFrame q f s).pending = s.pending ∧ (placeFrame q f s).power = s.power ∧ (placeFrame q f s).time = s.time ∧
    (placeFrame q f s).conf = s.conf ∧ (placeFrame q f s).act = s.act ∧ (placeFrame q f s).dict = s.dict ∧
    (placeFrame q f s).store = s.store ∧ (placeFrame q f s).health = s.health ∧ (placeFrame q f s).clocks = s.clocks ∧
    (placeFrame q f s).chans = s.chans ∧ (placeFrame q f s).dies = s.dies ∧ (placeFrame q f s).ref = s.ref ∧
    (placeFrame q f s).cal = s.cal ∧ (placeFrame q f s).groups = s.groups ∧ (placeFrame q f s).map = s.map ∧
    (placeFrame q f s).streams = s.streams ∧ (placeFrame q f s).frame = s.frame ∧ (placeFrame q f s).link = s.link ∧
    (placeFrame q f s).units = s.units ∧ (placeFrame q f s).outs = s.outs ∧ (placeFrame q f s).aux = s.aux ∧
    (placeFrame q f s).ev = s.ev ∧ (placeFrame q f s).ptp = s.ptp ∧ (placeFrame q f s).modPhase = s.modPhase ∧
    (placeFrame q f s).shift = s.shift ∧ (placeFrame q f s).segIdent = s.segIdent ∧ (placeFrame q f s).fv = s.fv ∧
    (placeFrame q f s).out = s.out := by
  simp [placeFrame]

@[simp] theorem formFrame_frame (q : Nat) (f : Frame) (s : State) :
    (formFrame q f s).pending = s.pending ∧ (formFrame q f s).power = s.power ∧ (formFrame q f s).time = s.time ∧
    (formFrame q f s).conf = s.conf ∧ (formFrame q f s).act = s.act ∧ (formFrame q f s).dict = s.dict ∧
    (formFrame q f s).store = s.store ∧ (formFrame q f s).health = s.health ∧ (formFrame q f s).clocks = s.clocks ∧
    (formFrame q f s).chans = s.chans ∧ (formFrame q f s).dies = s.dies ∧ (formFrame q f s).ref = s.ref ∧
    (formFrame q f s).cal = s.cal ∧ (formFrame q f s).groups = s.groups ∧ (formFrame q f s).map = s.map ∧
    (formFrame q f s).streams = s.streams ∧ (formFrame q f s).frame = s.frame ∧ (formFrame q f s).link = s.link ∧
    (formFrame q f s).units = s.units ∧ (formFrame q f s).outs = s.outs ∧ (formFrame q f s).aux = s.aux ∧
    (formFrame q f s).ev = s.ev ∧ (formFrame q f s).ptp = s.ptp ∧ (formFrame q f s).modPhase = s.modPhase ∧
    (formFrame q f s).shift = s.shift ∧ (formFrame q f s).segIdent = s.segIdent ∧ (formFrame q f s).fv = s.fv ∧
    (formFrame q f s).out = s.out := by
  simp [formFrame]

@[simp] theorem logCompletion_frame (k : Completion) (s : State) :
    (logCompletion k s).pending = s.pending ∧ (logCompletion k s).power = s.power ∧
    (logCompletion k s).time = s.time ∧ (logCompletion k s).conf = s.conf ∧ (logCompletion k s).dict = s.dict ∧
    (logCompletion k s).store = s.store ∧ (logCompletion k s).health = s.health ∧
    (logCompletion k s).clocks = s.clocks ∧ (logCompletion k s).chans = s.chans ∧ (logCompletion k s).dies = s.dies ∧
    (logCompletion k s).ref = s.ref ∧ (logCompletion k s).cal = s.cal ∧ (logCompletion k s).groups = s.groups ∧
    (logCompletion k s).map = s.map ∧ (logCompletion k s).streams = s.streams ∧ (logCompletion k s).frame = s.frame ∧
    (logCompletion k s).buf = s.buf ∧ (logCompletion k s).link = s.link ∧ (logCompletion k s).units = s.units ∧
    (logCompletion k s).outs = s.outs ∧ (logCompletion k s).aux = s.aux ∧ (logCompletion k s).ev = s.ev ∧
    (logCompletion k s).ptp = s.ptp ∧ (logCompletion k s).modPhase = s.modPhase ∧
    (logCompletion k s).shift = s.shift ∧ (logCompletion k s).segIdent = s.segIdent ∧ (logCompletion k s).fv = s.fv ∧
    (logCompletion k s).out = s.out := by
  simp [logCompletion]

@[simp] theorem oweCompletion_frame (k : Completion) (s : State) :
    (oweCompletion k s).pending = s.pending ∧ (oweCompletion k s).power = s.power ∧
    (oweCompletion k s).time = s.time ∧ (oweCompletion k s).conf = s.conf ∧ (oweCompletion k s).dict = s.dict ∧
    (oweCompletion k s).store = s.store ∧ (oweCompletion k s).health = s.health ∧
    (oweCompletion k s).clocks = s.clocks ∧ (oweCompletion k s).chans = s.chans ∧ (oweCompletion k s).dies = s.dies ∧
    (oweCompletion k s).ref = s.ref ∧ (oweCompletion k s).cal = s.cal ∧ (oweCompletion k s).groups = s.groups ∧
    (oweCompletion k s).map = s.map ∧ (oweCompletion k s).streams = s.streams ∧ (oweCompletion k s).frame = s.frame ∧
    (oweCompletion k s).buf = s.buf ∧ (oweCompletion k s).link = s.link ∧ (oweCompletion k s).units = s.units ∧
    (oweCompletion k s).outs = s.outs ∧ (oweCompletion k s).aux = s.aux ∧ (oweCompletion k s).ev = s.ev ∧
    (oweCompletion k s).ptp = s.ptp ∧ (oweCompletion k s).modPhase = s.modPhase ∧
    (oweCompletion k s).shift = s.shift ∧ (oweCompletion k s).segIdent = s.segIdent ∧ (oweCompletion k s).fv = s.fv ∧
    (oweCompletion k s).out = s.out := by
  simp [oweCompletion]

@[simp] theorem sendCompletions_frame (s : State) :
    (sendCompletions s).pending = s.pending ∧ (sendCompletions s).power = s.power ∧
    (sendCompletions s).time = s.time ∧ (sendCompletions s).conf = s.conf ∧ (sendCompletions s).dict = s.dict ∧
    (sendCompletions s).store = s.store ∧ (sendCompletions s).health = s.health ∧
    (sendCompletions s).clocks = s.clocks ∧ (sendCompletions s).chans = s.chans ∧ (sendCompletions s).dies = s.dies ∧
    (sendCompletions s).ref = s.ref ∧ (sendCompletions s).cal = s.cal ∧ (sendCompletions s).groups = s.groups ∧
    (sendCompletions s).map = s.map ∧ (sendCompletions s).streams = s.streams ∧ (sendCompletions s).frame = s.frame ∧
    (sendCompletions s).link = s.link ∧ (sendCompletions s).units = s.units ∧ (sendCompletions s).outs = s.outs ∧
    (sendCompletions s).aux = s.aux ∧ (sendCompletions s).ev = s.ev ∧ (sendCompletions s).ptp = s.ptp ∧
    (sendCompletions s).modPhase = s.modPhase ∧ (sendCompletions s).shift = s.shift ∧
    (sendCompletions s).segIdent = s.segIdent ∧ (sendCompletions s).fv = s.fv ∧ (sendCompletions s).out = s.out := by
  simp [sendCompletions]

@[simp] theorem completeNow_frame (k : Completion) (s : State) :
    (completeNow k s).pending = s.pending ∧ (completeNow k s).power = s.power ∧ (completeNow k s).time = s.time ∧
    (completeNow k s).conf = s.conf ∧ (completeNow k s).dict = s.dict ∧ (completeNow k s).store = s.store ∧
    (completeNow k s).health = s.health ∧ (completeNow k s).clocks = s.clocks ∧ (completeNow k s).chans = s.chans ∧
    (completeNow k s).dies = s.dies ∧ (completeNow k s).ref = s.ref ∧ (completeNow k s).cal = s.cal ∧
    (completeNow k s).groups = s.groups ∧ (completeNow k s).map = s.map ∧ (completeNow k s).streams = s.streams ∧
    (completeNow k s).frame = s.frame ∧ (completeNow k s).link = s.link ∧ (completeNow k s).units = s.units ∧
    (completeNow k s).outs = s.outs ∧ (completeNow k s).aux = s.aux ∧ (completeNow k s).ev = s.ev ∧
    (completeNow k s).ptp = s.ptp ∧ (completeNow k s).modPhase = s.modPhase ∧ (completeNow k s).shift = s.shift ∧
    (completeNow k s).segIdent = s.segIdent ∧ (completeNow k s).fv = s.fv ∧ (completeNow k s).out = s.out := by
  simp [completeNow]

@[simp] theorem sendLate_frame (s : State) :
    (sendLate s).pending = s.pending ∧ (sendLate s).power = s.power ∧ (sendLate s).time = s.time ∧
    (sendLate s).conf = s.conf ∧ (sendLate s).act = s.act ∧ (sendLate s).dict = s.dict ∧
    (sendLate s).store = s.store ∧ (sendLate s).health = s.health ∧ (sendLate s).clocks = s.clocks ∧
    (sendLate s).chans = s.chans ∧ (sendLate s).dies = s.dies ∧ (sendLate s).ref = s.ref ∧ (sendLate s).cal = s.cal ∧
    (sendLate s).groups = s.groups ∧ (sendLate s).map = s.map ∧ (sendLate s).streams = s.streams ∧
    (sendLate s).frame = s.frame ∧ (sendLate s).link = s.link ∧ (sendLate s).units = s.units ∧
    (sendLate s).outs = s.outs ∧ (sendLate s).aux = s.aux ∧ (sendLate s).ev = s.ev ∧ (sendLate s).ptp = s.ptp ∧
    (sendLate s).modPhase = s.modPhase ∧ (sendLate s).shift = s.shift ∧ (sendLate s).segIdent = s.segIdent ∧
    (sendLate s).fv = s.fv ∧ (sendLate s).out = s.out := by
  simp [sendLate]

@[simp] theorem closeBlocks_frame (c : KV) (ens : Nat) (l : List (Nat × Bool)) (s : State) :
    (closeBlocks c ens l s).pending = s.pending ∧ (closeBlocks c ens l s).power = s.power ∧
    (closeBlocks c ens l s).time = s.time ∧ (closeBlocks c ens l s).conf = s.conf ∧
    (closeBlocks c ens l s).act = s.act ∧ (closeBlocks c ens l s).dict = s.dict ∧
    (closeBlocks c ens l s).store = s.store ∧ (closeBlocks c ens l s).health = s.health ∧
    (closeBlocks c ens l s).clocks = s.clocks ∧ (closeBlocks c ens l s).chans = s.chans ∧
    (closeBlocks c ens l s).dies = s.dies ∧ (closeBlocks c ens l s).ref = s.ref ∧
    (closeBlocks c ens l s).cal = s.cal ∧ (closeBlocks c ens l s).groups = s.groups ∧
    (closeBlocks c ens l s).map = s.map ∧ (closeBlocks c ens l s).frame = s.frame ∧
    (closeBlocks c ens l s).link = s.link ∧ (closeBlocks c ens l s).units = s.units ∧
    (closeBlocks c ens l s).outs = s.outs ∧ (closeBlocks c ens l s).aux = s.aux ∧ (closeBlocks c ens l s).ev = s.ev ∧
    (closeBlocks c ens l s).ptp = s.ptp ∧ (closeBlocks c ens l s).modPhase = s.modPhase ∧
    (closeBlocks c ens l s).shift = s.shift ∧ (closeBlocks c ens l s).segIdent = s.segIdent ∧
    (closeBlocks c ens l s).fv = s.fv ∧ (closeBlocks c ens l s).out = s.out := by
  simp [closeBlocks]

@[simp] theorem interimClose_frame (st : Nat) (s : State) :
    (interimClose st s).pending = s.pending ∧ (interimClose st s).power = s.power ∧
    (interimClose st s).time = s.time ∧ (interimClose st s).conf = s.conf ∧ (interimClose st s).act = s.act ∧
    (interimClose st s).dict = s.dict ∧ (interimClose st s).store = s.store ∧ (interimClose st s).health = s.health ∧
    (interimClose st s).clocks = s.clocks ∧ (interimClose st s).chans = s.chans ∧ (interimClose st s).dies = s.dies ∧
    (interimClose st s).ref = s.ref ∧ (interimClose st s).cal = s.cal ∧ (interimClose st s).groups = s.groups ∧
    (interimClose st s).map = s.map ∧ (interimClose st s).frame = s.frame ∧ (interimClose st s).link = s.link ∧
    (interimClose st s).units = s.units ∧ (interimClose st s).outs = s.outs ∧ (interimClose st s).aux = s.aux ∧
    (interimClose st s).ev = s.ev ∧ (interimClose st s).ptp = s.ptp ∧ (interimClose st s).modPhase = s.modPhase ∧
    (interimClose st s).shift = s.shift ∧ (interimClose st s).segIdent = s.segIdent ∧ (interimClose st s).fv = s.fv ∧
    (interimClose st s).out = s.out := by
  simp only [interimClose]; (repeat' split) <;> simp

@[simp] theorem logServe_frame (e : Nat) (was s : State) :
    (logServe e was s).pending = s.pending ∧ (logServe e was s).power = s.power ∧ (logServe e was s).time = s.time ∧
    (logServe e was s).conf = s.conf ∧ (logServe e was s).act = s.act ∧ (logServe e was s).dict = s.dict ∧
    (logServe e was s).store = s.store ∧ (logServe e was s).health = s.health ∧ (logServe e was s).clocks = s.clocks ∧
    (logServe e was s).dies = s.dies ∧ (logServe e was s).ref = s.ref ∧ (logServe e was s).cal = s.cal ∧
    (logServe e was s).groups = s.groups ∧ (logServe e was s).map = s.map ∧ (logServe e was s).streams = s.streams ∧
    (logServe e was s).frame = s.frame ∧ (logServe e was s).buf = s.buf ∧ (logServe e was s).link = s.link ∧
    (logServe e was s).units = s.units ∧ (logServe e was s).outs = s.outs ∧ (logServe e was s).aux = s.aux ∧
    (logServe e was s).ev = s.ev ∧ (logServe e was s).ptp = s.ptp ∧ (logServe e was s).modPhase = s.modPhase ∧
    (logServe e was s).shift = s.shift ∧ (logServe e was s).segIdent = s.segIdent ∧ (logServe e was s).fv = s.fv ∧
    (logServe e was s).out = s.out := by
  simp [logServe]

@[simp] theorem logSwitch_frame (e : Nat) (was s : State) :
    (logSwitch e was s).pending = s.pending ∧ (logSwitch e was s).power = s.power ∧
    (logSwitch e was s).time = s.time ∧ (logSwitch e was s).conf = s.conf ∧ (logSwitch e was s).act = s.act ∧
    (logSwitch e was s).dict = s.dict ∧ (logSwitch e was s).store = s.store ∧ (logSwitch e was s).health = s.health ∧
    (logSwitch e was s).clocks = s.clocks ∧ (logSwitch e was s).chans = s.chans ∧ (logSwitch e was s).dies = s.dies ∧
    (logSwitch e was s).cal = s.cal ∧ (logSwitch e was s).groups = s.groups ∧ (logSwitch e was s).map = s.map ∧
    (logSwitch e was s).streams = s.streams ∧ (logSwitch e was s).frame = s.frame ∧ (logSwitch e was s).buf = s.buf ∧
    (logSwitch e was s).link = s.link ∧ (logSwitch e was s).units = s.units ∧ (logSwitch e was s).outs = s.outs ∧
    (logSwitch e was s).aux = s.aux ∧ (logSwitch e was s).ev = s.ev ∧ (logSwitch e was s).ptp = s.ptp ∧
    (logSwitch e was s).modPhase = s.modPhase ∧ (logSwitch e was s).shift = s.shift ∧
    (logSwitch e was s).segIdent = s.segIdent ∧ (logSwitch e was s).fv = s.fv ∧ (logSwitch e was s).out = s.out := by
  simp [logSwitch]

@[simp] theorem setConv_frame (on : Bool) (g : Nat) (s : State) :
    (setConv on g s).pending = s.pending ∧ (setConv on g s).power = s.power ∧ (setConv on g s).time = s.time ∧
    (setConv on g s).conf = s.conf ∧ (setConv on g s).act = s.act ∧ (setConv on g s).dict = s.dict ∧
    (setConv on g s).store = s.store ∧ (setConv on g s).health = s.health ∧ (setConv on g s).clocks = s.clocks ∧
    (setConv on g s).chans = s.chans ∧ (setConv on g s).ref = s.ref ∧ (setConv on g s).cal = s.cal ∧
    (setConv on g s).groups = s.groups ∧ (setConv on g s).map = s.map ∧ (setConv on g s).streams = s.streams ∧
    (setConv on g s).frame = s.frame ∧ (setConv on g s).buf = s.buf ∧ (setConv on g s).link = s.link ∧
    (setConv on g s).units = s.units ∧ (setConv on g s).outs = s.outs ∧ (setConv on g s).aux = s.aux ∧
    (setConv on g s).ev = s.ev ∧ (setConv on g s).ptp = s.ptp ∧ (setConv on g s).modPhase = s.modPhase ∧
    (setConv on g s).shift = s.shift ∧ (setConv on g s).segIdent = s.segIdent ∧ (setConv on g s).fv = s.fv ∧
    (setConv on g s).out = s.out := by
  simp [setConv]

@[simp] theorem feedChan_frame (f : Feed) (s : State) :
    (feedChan f s).pending = s.pending ∧ (feedChan f s).power = s.power ∧ (feedChan f s).time = s.time ∧
    (feedChan f s).conf = s.conf ∧ (feedChan f s).act = s.act ∧ (feedChan f s).dict = s.dict ∧
    (feedChan f s).store = s.store ∧ (feedChan f s).health = s.health ∧ (feedChan f s).clocks = s.clocks ∧
    (feedChan f s).dies = s.dies ∧ (feedChan f s).ref = s.ref ∧ (feedChan f s).cal = s.cal ∧
    (feedChan f s).groups = s.groups ∧ (feedChan f s).map = s.map ∧ (feedChan f s).streams = s.streams ∧
    (feedChan f s).frame = s.frame ∧ (feedChan f s).buf = s.buf ∧ (feedChan f s).link = s.link ∧
    (feedChan f s).units = s.units ∧ (feedChan f s).outs = s.outs ∧ (feedChan f s).aux = s.aux ∧
    (feedChan f s).ev = s.ev ∧ (feedChan f s).ptp = s.ptp ∧ (feedChan f s).modPhase = s.modPhase ∧
    (feedChan f s).shift = s.shift ∧ (feedChan f s).segIdent = s.segIdent ∧ (feedChan f s).fv = s.fv ∧
    (feedChan f s).out = s.out := by
  simp [feedChan]

@[simp] theorem failQueued_frame (c e : Nat) (zero : Bool) (s : State) :
    (failQueued c e zero s).pending = s.pending ∧ (failQueued c e zero s).power = s.power ∧
    (failQueued c e zero s).time = s.time ∧ (failQueued c e zero s).conf = s.conf ∧
    (failQueued c e zero s).act = s.act ∧ (failQueued c e zero s).dict = s.dict ∧
    (failQueued c e zero s).store = s.store ∧ (failQueued c e zero s).health = s.health ∧
    (failQueued c e zero s).clocks = s.clocks ∧ (failQueued c e zero s).chans = s.chans ∧
    (failQueued c e zero s).dies = s.dies ∧ (failQueued c e zero s).ref = s.ref ∧
    (failQueued c e zero s).cal = s.cal ∧ (failQueued c e zero s).groups = s.groups ∧
    (failQueued c e zero s).map = s.map ∧ (failQueued c e zero s).streams = s.streams ∧
    (failQueued c e zero s).frame = s.frame ∧ (failQueued c e zero s).link = s.link ∧
    (failQueued c e zero s).units = s.units ∧ (failQueued c e zero s).outs = s.outs ∧
    (failQueued c e zero s).aux = s.aux ∧ (failQueued c e zero s).ev = s.ev ∧ (failQueued c e zero s).ptp = s.ptp ∧
    (failQueued c e zero s).modPhase = s.modPhase ∧ (failQueued c e zero s).shift = s.shift ∧
    (failQueued c e zero s).segIdent = s.segIdent ∧ (failQueued c e zero s).fv = s.fv ∧
    (failQueued c e zero s).out = s.out := by
  simp [failQueued]

@[simp] theorem failFormed_frame (c e : Nat) (zero : Bool) (s : State) :
    (failFormed c e zero s).pending = s.pending ∧ (failFormed c e zero s).power = s.power ∧
    (failFormed c e zero s).time = s.time ∧ (failFormed c e zero s).conf = s.conf ∧
    (failFormed c e zero s).act = s.act ∧ (failFormed c e zero s).dict = s.dict ∧
    (failFormed c e zero s).store = s.store ∧ (failFormed c e zero s).health = s.health ∧
    (failFormed c e zero s).clocks = s.clocks ∧ (failFormed c e zero s).chans = s.chans ∧
    (failFormed c e zero s).dies = s.dies ∧ (failFormed c e zero s).ref = s.ref ∧
    (failFormed c e zero s).cal = s.cal ∧ (failFormed c e zero s).groups = s.groups ∧
    (failFormed c e zero s).map = s.map ∧ (failFormed c e zero s).frame = s.frame ∧
    (failFormed c e zero s).link = s.link ∧ (failFormed c e zero s).outs = s.outs ∧
    (failFormed c e zero s).aux = s.aux ∧ (failFormed c e zero s).ev = s.ev ∧ (failFormed c e zero s).ptp = s.ptp ∧
    (failFormed c e zero s).modPhase = s.modPhase ∧ (failFormed c e zero s).shift = s.shift ∧
    (failFormed c e zero s).segIdent = s.segIdent ∧ (failFormed c e zero s).fv = s.fv ∧
    (failFormed c e zero s).out = s.out := by
  simp [failFormed]

@[simp] theorem overload_frame (c samples : Nat) (side : OvrSide) (s : State) :
    (overload c samples side s).pending = s.pending ∧ (overload c samples side s).conf.cfg = s.conf.cfg ∧
    (overload c samples side s).power.vmain = s.power.vmain ∧ (overload c samples side s).time.tw = s.time.tw := by
  simp [overload]

@[simp] theorem owcClear_frame (a : BitVec 32) (s : State) :
    (owcClear a s).pending = s.pending ∧ (owcClear a s).power = s.power ∧ (owcClear a s).time = s.time ∧
    (owcClear a s).conf = s.conf ∧ (owcClear a s).act = s.act ∧ (owcClear a s).dict = s.dict ∧
    (owcClear a s).store = s.store ∧ (owcClear a s).health = s.health ∧ (owcClear a s).clocks = s.clocks ∧
    (owcClear a s).dies = s.dies ∧ (owcClear a s).ref = s.ref ∧ (owcClear a s).cal = s.cal ∧
    (owcClear a s).groups = s.groups ∧ (owcClear a s).map = s.map ∧ (owcClear a s).streams = s.streams ∧
    (owcClear a s).frame = s.frame ∧ (owcClear a s).buf = s.buf ∧ (owcClear a s).link = s.link ∧
    (owcClear a s).units = s.units ∧ (owcClear a s).outs = s.outs ∧ (owcClear a s).aux = s.aux ∧
    (owcClear a s).ev = s.ev ∧ (owcClear a s).ptp = s.ptp ∧ (owcClear a s).modPhase = s.modPhase ∧
    (owcClear a s).shift = s.shift ∧ (owcClear a s).segIdent = s.segIdent ∧ (owcClear a s).fv = s.fv ∧
    (owcClear a s).out = s.out := by
  simp [owcClear]

@[simp] theorem owcStartWrite_frame (r : Role) (v : BitVec 32) (s : State) :
    (owcStartWrite r v s).st.pending = s.pending ∧ (owcStartWrite r v s).st.power = s.power ∧
    (owcStartWrite r v s).st.time = s.time ∧ (owcStartWrite r v s).st.conf = s.conf ∧
    (owcStartWrite r v s).st.dict = s.dict ∧ (owcStartWrite r v s).st.store = s.store ∧
    (owcStartWrite r v s).st.health = s.health ∧ (owcStartWrite r v s).st.clocks = s.clocks ∧
    (owcStartWrite r v s).st.dies = s.dies ∧ (owcStartWrite r v s).st.ref = s.ref ∧
    (owcStartWrite r v s).st.cal = s.cal ∧ (owcStartWrite r v s).st.groups = s.groups ∧
    (owcStartWrite r v s).st.map = s.map ∧ (owcStartWrite r v s).st.streams = s.streams ∧
    (owcStartWrite r v s).st.frame = s.frame ∧ (owcStartWrite r v s).st.buf = s.buf ∧
    (owcStartWrite r v s).st.link = s.link ∧ (owcStartWrite r v s).st.units = s.units ∧
    (owcStartWrite r v s).st.outs = s.outs ∧ (owcStartWrite r v s).st.aux = s.aux ∧
    (owcStartWrite r v s).st.ev = s.ev ∧ (owcStartWrite r v s).st.ptp = s.ptp ∧
    (owcStartWrite r v s).st.modPhase = s.modPhase ∧ (owcStartWrite r v s).st.shift = s.shift ∧
    (owcStartWrite r v s).st.segIdent = s.segIdent ∧ (owcStartWrite r v s).st.fv = s.fv ∧
    (owcStartWrite r v s).st.out = s.out := by
  unfold owcStartWrite gate; dsimp only; (repeat' split) <;> first | rfl | simp

@[simp] theorem owcBegin_frame (e : Sched) (a : BitVec 32) (s : State) :
    (owcBegin e a s).pending = s.pending ∧ (owcBegin e a s).power = s.power ∧ (owcBegin e a s).time = s.time ∧
    (owcBegin e a s).conf = s.conf ∧ (owcBegin e a s).act = s.act ∧ (owcBegin e a s).dict = s.dict ∧
    (owcBegin e a s).store = s.store ∧ (owcBegin e a s).health = s.health ∧ (owcBegin e a s).clocks = s.clocks ∧
    (owcBegin e a s).dies = s.dies ∧ (owcBegin e a s).ref = s.ref ∧ (owcBegin e a s).cal = s.cal ∧
    (owcBegin e a s).map = s.map ∧ (owcBegin e a s).streams = s.streams ∧ (owcBegin e a s).frame = s.frame ∧
    (owcBegin e a s).buf = s.buf ∧ (owcBegin e a s).link = s.link ∧ (owcBegin e a s).units = s.units ∧
    (owcBegin e a s).outs = s.outs ∧ (owcBegin e a s).aux = s.aux ∧ (owcBegin e a s).ev = s.ev ∧
    (owcBegin e a s).ptp = s.ptp ∧ (owcBegin e a s).modPhase = s.modPhase ∧ (owcBegin e a s).shift = s.shift ∧
    (owcBegin e a s).segIdent = s.segIdent ∧ (owcBegin e a s).fv = s.fv ∧ (owcBegin e a s).out = s.out := by
  simp [owcBegin]

@[simp] theorem owcTick_frame (s : State) :
    (owcTick s).pending = s.pending ∧ (owcTick s).power = s.power ∧ (owcTick s).time = s.time ∧
    (owcTick s).conf = s.conf ∧ (owcTick s).act = s.act ∧ (owcTick s).dict = s.dict ∧ (owcTick s).store = s.store ∧
    (owcTick s).health = s.health ∧ (owcTick s).clocks = s.clocks ∧ (owcTick s).chans = s.chans ∧
    (owcTick s).dies = s.dies ∧ (owcTick s).ref = s.ref ∧ (owcTick s).cal = s.cal ∧ (owcTick s).map = s.map ∧
    (owcTick s).streams = s.streams ∧ (owcTick s).frame = s.frame ∧ (owcTick s).buf = s.buf ∧
    (owcTick s).link = s.link ∧ (owcTick s).units = s.units ∧ (owcTick s).outs = s.outs ∧ (owcTick s).aux = s.aux ∧
    (owcTick s).ev = s.ev ∧ (owcTick s).ptp = s.ptp ∧ (owcTick s).modPhase = s.modPhase ∧
    (owcTick s).shift = s.shift ∧ (owcTick s).segIdent = s.segIdent ∧ (owcTick s).fv = s.fv ∧ (owcTick s).out = s.out := by
  simp [owcTick]

@[simp] theorem owcPulls_frame (g : Nat) (s : State) :
    (owcPulls g s).pending = s.pending ∧ (owcPulls g s).power = s.power ∧ (owcPulls g s).time = s.time ∧
    (owcPulls g s).conf = s.conf ∧ (owcPulls g s).act = s.act ∧ (owcPulls g s).dict = s.dict ∧
    (owcPulls g s).store = s.store ∧ (owcPulls g s).health = s.health ∧ (owcPulls g s).clocks = s.clocks ∧
    (owcPulls g s).dies = s.dies ∧ (owcPulls g s).ref = s.ref ∧ (owcPulls g s).cal = s.cal ∧
    (owcPulls g s).groups = s.groups ∧ (owcPulls g s).map = s.map ∧ (owcPulls g s).streams = s.streams ∧
    (owcPulls g s).frame = s.frame ∧ (owcPulls g s).buf = s.buf ∧ (owcPulls g s).link = s.link ∧
    (owcPulls g s).units = s.units ∧ (owcPulls g s).outs = s.outs ∧ (owcPulls g s).aux = s.aux ∧
    (owcPulls g s).ev = s.ev ∧ (owcPulls g s).ptp = s.ptp ∧ (owcPulls g s).modPhase = s.modPhase ∧
    (owcPulls g s).shift = s.shift ∧ (owcPulls g s).segIdent = s.segIdent ∧ (owcPulls g s).fv = s.fv ∧
    (owcPulls g s).out = s.out := by
  simp [owcPulls]

@[simp] theorem owcPhase_frame (g : Nat) (s : State) :
    (owcPhase g s).pending = s.pending ∧ (owcPhase g s).power = s.power ∧ (owcPhase g s).time = s.time ∧
    (owcPhase g s).conf = s.conf ∧ (owcPhase g s).act = s.act ∧ (owcPhase g s).dict = s.dict ∧
    (owcPhase g s).store = s.store ∧ (owcPhase g s).health = s.health ∧ (owcPhase g s).clocks = s.clocks ∧
    (owcPhase g s).dies = s.dies ∧ (owcPhase g s).ref = s.ref ∧ (owcPhase g s).cal = s.cal ∧
    (owcPhase g s).map = s.map ∧ (owcPhase g s).streams = s.streams ∧ (owcPhase g s).frame = s.frame ∧
    (owcPhase g s).buf = s.buf ∧ (owcPhase g s).link = s.link ∧ (owcPhase g s).units = s.units ∧
    (owcPhase g s).outs = s.outs ∧ (owcPhase g s).aux = s.aux ∧ (owcPhase g s).ev = s.ev ∧
    (owcPhase g s).ptp = s.ptp ∧ (owcPhase g s).modPhase = s.modPhase ∧ (owcPhase g s).shift = s.shift ∧
    (owcPhase g s).segIdent = s.segIdent ∧ (owcPhase g s).fv = s.fv ∧ (owcPhase g s).out = s.out := by
  simp [owcPhase]

@[simp] theorem owcClose_frame (g e : Nat) (s : State) :
    (owcClose g e s).pending = s.pending ∧ (owcClose g e s).power = s.power ∧ (owcClose g e s).time = s.time ∧
    (owcClose g e s).conf = s.conf ∧ (owcClose g e s).act = s.act ∧ (owcClose g e s).dict = s.dict ∧
    (owcClose g e s).store = s.store ∧ (owcClose g e s).health = s.health ∧ (owcClose g e s).clocks = s.clocks ∧
    (owcClose g e s).dies = s.dies ∧ (owcClose g e s).ref = s.ref ∧ (owcClose g e s).cal = s.cal ∧
    (owcClose g e s).groups = s.groups ∧ (owcClose g e s).map = s.map ∧ (owcClose g e s).streams = s.streams ∧
    (owcClose g e s).frame = s.frame ∧ (owcClose g e s).buf = s.buf ∧ (owcClose g e s).link = s.link ∧
    (owcClose g e s).units = s.units ∧ (owcClose g e s).outs = s.outs ∧ (owcClose g e s).aux = s.aux ∧
    (owcClose g e s).ev = s.ev ∧ (owcClose g e s).ptp = s.ptp ∧ (owcClose g e s).modPhase = s.modPhase ∧
    (owcClose g e s).shift = s.shift ∧ (owcClose g e s).segIdent = s.segIdent ∧ (owcClose g e s).fv = s.fv ∧
    (owcClose g e s).out = s.out := by
  simp [owcClose]

@[simp] theorem owcComplete_frame (g : Nat) (feed : List Feed) (s : State) :
    (owcComplete g feed s).pending = s.pending ∧ (owcComplete g feed s).power = s.power ∧
    (owcComplete g feed s).time = s.time ∧ (owcComplete g feed s).conf = s.conf ∧
    (owcComplete g feed s).dict = s.dict ∧ (owcComplete g feed s).store = s.store ∧
    (owcComplete g feed s).health = s.health ∧ (owcComplete g feed s).clocks = s.clocks ∧
    (owcComplete g feed s).dies = s.dies ∧ (owcComplete g feed s).ref = s.ref ∧ (owcComplete g feed s).cal = s.cal ∧
    (owcComplete g feed s).map = s.map ∧ (owcComplete g feed s).streams = s.streams ∧
    (owcComplete g feed s).frame = s.frame ∧ (owcComplete g feed s).link = s.link ∧
    (owcComplete g feed s).units = s.units ∧ (owcComplete g feed s).outs = s.outs ∧
    (owcComplete g feed s).aux = s.aux ∧ (owcComplete g feed s).ev = s.ev ∧ (owcComplete g feed s).ptp = s.ptp ∧
    (owcComplete g feed s).modPhase = s.modPhase ∧ (owcComplete g feed s).shift = s.shift ∧
    (owcComplete g feed s).segIdent = s.segIdent ∧ (owcComplete g feed s).fv = s.fv ∧
    (owcComplete g feed s).out = s.out := by
  simp [owcComplete]

@[simp] theorem owcAbort_frame (g : Nat) (s : State) :
    (owcAbort g s).pending = s.pending ∧ (owcAbort g s).power = s.power ∧ (owcAbort g s).time = s.time ∧
    (owcAbort g s).conf = s.conf ∧ (owcAbort g s).dict = s.dict ∧ (owcAbort g s).store = s.store ∧
    (owcAbort g s).health = s.health ∧ (owcAbort g s).clocks = s.clocks ∧ (owcAbort g s).dies = s.dies ∧
    (owcAbort g s).ref = s.ref ∧ (owcAbort g s).cal = s.cal ∧ (owcAbort g s).map = s.map ∧
    (owcAbort g s).streams = s.streams ∧ (owcAbort g s).frame = s.frame ∧ (owcAbort g s).link = s.link ∧
    (owcAbort g s).units = s.units ∧ (owcAbort g s).outs = s.outs ∧ (owcAbort g s).aux = s.aux ∧
    (owcAbort g s).ev = s.ev ∧ (owcAbort g s).ptp = s.ptp ∧ (owcAbort g s).modPhase = s.modPhase ∧
    (owcAbort g s).shift = s.shift ∧ (owcAbort g s).segIdent = s.segIdent ∧ (owcAbort g s).fv = s.fv ∧
    (owcAbort g s).out = s.out := by
  simp [owcAbort]

@[simp] theorem owcTouch_frame (content : KV) (s : State) :
    (owcTouch content s).pending = s.pending ∧ (owcTouch content s).power = s.power ∧
    (owcTouch content s).time = s.time ∧ (owcTouch content s).conf = s.conf ∧ (owcTouch content s).act = s.act ∧
    (owcTouch content s).dict = s.dict ∧ (owcTouch content s).store = s.store ∧
    (owcTouch content s).health = s.health ∧ (owcTouch content s).clocks = s.clocks ∧
    (owcTouch content s).dies = s.dies ∧ (owcTouch content s).ref = s.ref ∧ (owcTouch content s).cal = s.cal ∧
    (owcTouch content s).groups = s.groups ∧ (owcTouch content s).map = s.map ∧
    (owcTouch content s).streams = s.streams ∧ (owcTouch content s).frame = s.frame ∧
    (owcTouch content s).buf = s.buf ∧ (owcTouch content s).link = s.link ∧ (owcTouch content s).units = s.units ∧
    (owcTouch content s).outs = s.outs ∧ (owcTouch content s).aux = s.aux ∧ (owcTouch content s).ev = s.ev ∧
    (owcTouch content s).ptp = s.ptp ∧ (owcTouch content s).modPhase = s.modPhase ∧
    (owcTouch content s).shift = s.shift ∧ (owcTouch content s).segIdent = s.segIdent ∧
    (owcTouch content s).fv = s.fv ∧ (owcTouch content s).out = s.out := by
  simp [owcTouch]

@[simp] theorem disarmUnit_frame (u : Nat) (s : State) :
    (disarmUnit u s).pending = s.pending ∧ (disarmUnit u s).power = s.power ∧ (disarmUnit u s).time = s.time ∧
    (disarmUnit u s).conf = s.conf ∧ (disarmUnit u s).act = s.act ∧ (disarmUnit u s).dict = s.dict ∧
    (disarmUnit u s).store = s.store ∧ (disarmUnit u s).health = s.health ∧ (disarmUnit u s).clocks = s.clocks ∧
    (disarmUnit u s).chans = s.chans ∧ (disarmUnit u s).dies = s.dies ∧ (disarmUnit u s).ref = s.ref ∧
    (disarmUnit u s).cal = s.cal ∧ (disarmUnit u s).groups = s.groups ∧ (disarmUnit u s).map = s.map ∧
    (disarmUnit u s).streams = s.streams ∧ (disarmUnit u s).frame = s.frame ∧ (disarmUnit u s).buf = s.buf ∧
    (disarmUnit u s).link = s.link ∧ (disarmUnit u s).outs = s.outs ∧ (disarmUnit u s).aux = s.aux ∧
    (disarmUnit u s).ev = s.ev ∧ (disarmUnit u s).ptp = s.ptp ∧ (disarmUnit u s).modPhase = s.modPhase ∧
    (disarmUnit u s).shift = s.shift ∧ (disarmUnit u s).segIdent = s.segIdent ∧ (disarmUnit u s).fv = s.fv ∧
    (disarmUnit u s).out = s.out := by
  simp [disarmUnit]

@[simp] theorem armUnit_frame (u : Nat) (s : State) :
    (armUnit u s).pending = s.pending ∧ (armUnit u s).power = s.power ∧ (armUnit u s).time = s.time ∧
    (armUnit u s).conf = s.conf ∧ (armUnit u s).act = s.act ∧ (armUnit u s).dict = s.dict ∧
    (armUnit u s).store = s.store ∧ (armUnit u s).health = s.health ∧ (armUnit u s).clocks = s.clocks ∧
    (armUnit u s).chans = s.chans ∧ (armUnit u s).dies = s.dies ∧ (armUnit u s).ref = s.ref ∧
    (armUnit u s).cal = s.cal ∧ (armUnit u s).groups = s.groups ∧ (armUnit u s).map = s.map ∧
    (armUnit u s).streams = s.streams ∧ (armUnit u s).frame = s.frame ∧ (armUnit u s).buf = s.buf ∧
    (armUnit u s).link = s.link ∧ (armUnit u s).outs = s.outs ∧ (armUnit u s).aux = s.aux ∧ (armUnit u s).ev = s.ev ∧
    (armUnit u s).ptp = s.ptp ∧ (armUnit u s).modPhase = s.modPhase ∧ (armUnit u s).shift = s.shift ∧
    (armUnit u s).segIdent = s.segIdent ∧ (armUnit u s).fv = s.fv ∧ (armUnit u s).out = s.out := by
  simp [armUnit]

@[simp] theorem trgMiss_frame (u : Nat) (ev : TrgEvent) (reason : Nat) (s : State) :
    (trgMiss u ev reason s).pending = s.pending ∧ (trgMiss u ev reason s).power = s.power ∧
    (trgMiss u ev reason s).time = s.time ∧ (trgMiss u ev reason s).conf = s.conf ∧
    (trgMiss u ev reason s).act = s.act ∧ (trgMiss u ev reason s).dict = s.dict ∧
    (trgMiss u ev reason s).store = s.store ∧ (trgMiss u ev reason s).clocks = s.clocks ∧
    (trgMiss u ev reason s).chans = s.chans ∧ (trgMiss u ev reason s).dies = s.dies ∧
    (trgMiss u ev reason s).ref = s.ref ∧ (trgMiss u ev reason s).cal = s.cal ∧
    (trgMiss u ev reason s).groups = s.groups ∧ (trgMiss u ev reason s).map = s.map ∧
    (trgMiss u ev reason s).streams = s.streams ∧ (trgMiss u ev reason s).frame = s.frame ∧
    (trgMiss u ev reason s).buf = s.buf ∧ (trgMiss u ev reason s).link = s.link ∧
    (trgMiss u ev reason s).outs = s.outs ∧ (trgMiss u ev reason s).aux = s.aux ∧ (trgMiss u ev reason s).ev = s.ev ∧
    (trgMiss u ev reason s).ptp = s.ptp ∧ (trgMiss u ev reason s).modPhase = s.modPhase ∧
    (trgMiss u ev reason s).shift = s.shift ∧ (trgMiss u ev reason s).segIdent = s.segIdent ∧
    (trgMiss u ev reason s).fv = s.fv ∧ (trgMiss u ev reason s).out = s.out := by
  simp [trgMiss]

@[simp] theorem trgPulse_frame (ev : TrgEvent) (o : Nat) (s : State) :
    (trgPulse ev o s).pending = s.pending ∧ (trgPulse ev o s).power = s.power ∧ (trgPulse ev o s).time = s.time ∧
    (trgPulse ev o s).conf = s.conf ∧ (trgPulse ev o s).act = s.act ∧ (trgPulse ev o s).dict = s.dict ∧
    (trgPulse ev o s).store = s.store ∧ (trgPulse ev o s).health = s.health ∧ (trgPulse ev o s).clocks = s.clocks ∧
    (trgPulse ev o s).chans = s.chans ∧ (trgPulse ev o s).dies = s.dies ∧ (trgPulse ev o s).ref = s.ref ∧
    (trgPulse ev o s).cal = s.cal ∧ (trgPulse ev o s).groups = s.groups ∧ (trgPulse ev o s).map = s.map ∧
    (trgPulse ev o s).streams = s.streams ∧ (trgPulse ev o s).frame = s.frame ∧ (trgPulse ev o s).buf = s.buf ∧
    (trgPulse ev o s).link = s.link ∧ (trgPulse ev o s).units = s.units ∧ (trgPulse ev o s).aux = s.aux ∧
    (trgPulse ev o s).ev = s.ev ∧ (trgPulse ev o s).ptp = s.ptp ∧ (trgPulse ev o s).modPhase = s.modPhase ∧
    (trgPulse ev o s).shift = s.shift ∧ (trgPulse ev o s).segIdent = s.segIdent ∧ (trgPulse ev o s).fv = s.fv ∧
    (trgPulse ev o s).out = s.out := by
  simp [trgPulse]

@[simp] theorem trgSend_frame (code : Nat) (ev : TrgEvent) (s : State) :
    (trgSend code ev s).pending = s.pending ∧ (trgSend code ev s).power = s.power ∧
    (trgSend code ev s).time = s.time ∧ (trgSend code ev s).conf = s.conf ∧ (trgSend code ev s).act = s.act ∧
    (trgSend code ev s).dict = s.dict ∧ (trgSend code ev s).store = s.store ∧ (trgSend code ev s).health = s.health ∧
    (trgSend code ev s).clocks = s.clocks ∧ (trgSend code ev s).chans = s.chans ∧ (trgSend code ev s).dies = s.dies ∧
    (trgSend code ev s).ref = s.ref ∧ (trgSend code ev s).cal = s.cal ∧ (trgSend code ev s).groups = s.groups ∧
    (trgSend code ev s).map = s.map ∧ (trgSend code ev s).streams = s.streams ∧ (trgSend code ev s).frame = s.frame ∧
    (trgSend code ev s).buf = s.buf ∧ (trgSend code ev s).units = s.units ∧ (trgSend code ev s).outs = s.outs ∧
    (trgSend code ev s).aux = s.aux ∧ (trgSend code ev s).ptp = s.ptp ∧ (trgSend code ev s).modPhase = s.modPhase ∧
    (trgSend code ev s).shift = s.shift ∧ (trgSend code ev s).segIdent = s.segIdent ∧ (trgSend code ev s).out = s.out := by
  simp only [trgSend]; (repeat' split) <;> simp

@[simp] theorem trgAccept_frame (u : Nat) (ev : TrgEvent) (s : State) :
    (trgAccept u ev s).pending = s.pending ∧ (trgAccept u ev s).power = s.power ∧ (trgAccept u ev s).time = s.time ∧
    (trgAccept u ev s).conf = s.conf ∧ (trgAccept u ev s).act = s.act ∧ (trgAccept u ev s).dict = s.dict ∧
    (trgAccept u ev s).store = s.store ∧ (trgAccept u ev s).health = s.health ∧ (trgAccept u ev s).clocks = s.clocks ∧
    (trgAccept u ev s).chans = s.chans ∧ (trgAccept u ev s).dies = s.dies ∧ (trgAccept u ev s).ref = s.ref ∧
    (trgAccept u ev s).cal = s.cal ∧ (trgAccept u ev s).groups = s.groups ∧ (trgAccept u ev s).map = s.map ∧
    (trgAccept u ev s).streams = s.streams ∧ (trgAccept u ev s).frame = s.frame ∧ (trgAccept u ev s).buf = s.buf ∧
    (trgAccept u ev s).aux = s.aux ∧ (trgAccept u ev s).ptp = s.ptp ∧ (trgAccept u ev s).modPhase = s.modPhase ∧
    (trgAccept u ev s).shift = s.shift ∧ (trgAccept u ev s).segIdent = s.segIdent ∧ (trgAccept u ev s).out = s.out := by
  simp [trgAccept]

@[simp] theorem trgClose_frame (u : Nat) (s : State) :
    (trgClose u s).pending = s.pending ∧ (trgClose u s).power = s.power ∧ (trgClose u s).time = s.time ∧
    (trgClose u s).conf = s.conf ∧ (trgClose u s).act = s.act ∧ (trgClose u s).dict = s.dict ∧
    (trgClose u s).store = s.store ∧ (trgClose u s).health = s.health ∧ (trgClose u s).clocks = s.clocks ∧
    (trgClose u s).chans = s.chans ∧ (trgClose u s).dies = s.dies ∧ (trgClose u s).ref = s.ref ∧
    (trgClose u s).cal = s.cal ∧ (trgClose u s).groups = s.groups ∧ (trgClose u s).map = s.map ∧
    (trgClose u s).streams = s.streams ∧ (trgClose u s).frame = s.frame ∧ (trgClose u s).buf = s.buf ∧
    (trgClose u s).link = s.link ∧ (trgClose u s).outs = s.outs ∧ (trgClose u s).aux = s.aux ∧
    (trgClose u s).ev = s.ev ∧ (trgClose u s).ptp = s.ptp ∧ (trgClose u s).modPhase = s.modPhase ∧
    (trgClose u s).shift = s.shift ∧ (trgClose u s).segIdent = s.segIdent ∧ (trgClose u s).fv = s.fv ∧
    (trgClose u s).out = s.out := by
  simp [trgClose]

@[simp] theorem trgOffer_frame (u : Nat) (ev : TrgEvent) (s : State) :
    (trgOffer u ev s).pending = s.pending ∧ (trgOffer u ev s).power = s.power ∧ (trgOffer u ev s).time = s.time ∧
    (trgOffer u ev s).conf = s.conf ∧ (trgOffer u ev s).act = s.act ∧ (trgOffer u ev s).dict = s.dict ∧
    (trgOffer u ev s).store = s.store ∧ (trgOffer u ev s).clocks = s.clocks ∧ (trgOffer u ev s).chans = s.chans ∧
    (trgOffer u ev s).dies = s.dies ∧ (trgOffer u ev s).ref = s.ref ∧ (trgOffer u ev s).cal = s.cal ∧
    (trgOffer u ev s).groups = s.groups ∧ (trgOffer u ev s).map = s.map ∧ (trgOffer u ev s).streams = s.streams ∧
    (trgOffer u ev s).frame = s.frame ∧ (trgOffer u ev s).buf = s.buf ∧ (trgOffer u ev s).aux = s.aux ∧
    (trgOffer u ev s).ptp = s.ptp ∧ (trgOffer u ev s).modPhase = s.modPhase ∧ (trgOffer u ev s).shift = s.shift ∧
    (trgOffer u ev s).segIdent = s.segIdent ∧ (trgOffer u ev s).out = s.out := by
  simp [trgOffer]

@[simp] theorem trgOfferAll_frame (kind sel : Nat) (ev : TrgEvent) (s : State) :
    (trgOfferAll kind sel ev s).pending = s.pending ∧ (trgOfferAll kind sel ev s).conf.cfg = s.conf.cfg ∧
    (trgOfferAll kind sel ev s).power.vmain = s.power.vmain ∧ (trgOfferAll kind sel ev s).time.tw = s.time.tw := by
  simp [trgOfferAll]

@[simp] theorem trgAwait_frame (u : Nat) (ev : TrgEvent) (s : State) :
    (trgAwait u ev s).pending = s.pending ∧ (trgAwait u ev s).power = s.power ∧ (trgAwait u ev s).time = s.time ∧
    (trgAwait u ev s).conf = s.conf ∧ (trgAwait u ev s).act = s.act ∧ (trgAwait u ev s).dict = s.dict ∧
    (trgAwait u ev s).store = s.store ∧ (trgAwait u ev s).health = s.health ∧ (trgAwait u ev s).clocks = s.clocks ∧
    (trgAwait u ev s).chans = s.chans ∧ (trgAwait u ev s).dies = s.dies ∧ (trgAwait u ev s).ref = s.ref ∧
    (trgAwait u ev s).cal = s.cal ∧ (trgAwait u ev s).groups = s.groups ∧ (trgAwait u ev s).map = s.map ∧
    (trgAwait u ev s).streams = s.streams ∧ (trgAwait u ev s).frame = s.frame ∧ (trgAwait u ev s).buf = s.buf ∧
    (trgAwait u ev s).link = s.link ∧ (trgAwait u ev s).outs = s.outs ∧ (trgAwait u ev s).aux = s.aux ∧
    (trgAwait u ev s).ev = s.ev ∧ (trgAwait u ev s).ptp = s.ptp ∧ (trgAwait u ev s).modPhase = s.modPhase ∧
    (trgAwait u ev s).shift = s.shift ∧ (trgAwait u ev s).segIdent = s.segIdent ∧ (trgAwait u ev s).fv = s.fv ∧
    (trgAwait u ev s).out = s.out := by
  simp [trgAwait]

@[simp] theorem decideOffers_frame (s : State) :
    (decideOffers s).pending = s.pending ∧ (decideOffers s).power = s.power ∧ (decideOffers s).time = s.time ∧
    (decideOffers s).conf = s.conf ∧ (decideOffers s).act = s.act ∧ (decideOffers s).dict = s.dict ∧
    (decideOffers s).store = s.store ∧ (decideOffers s).clocks = s.clocks ∧ (decideOffers s).chans = s.chans ∧
    (decideOffers s).dies = s.dies ∧ (decideOffers s).ref = s.ref ∧ (decideOffers s).cal = s.cal ∧
    (decideOffers s).groups = s.groups ∧ (decideOffers s).map = s.map ∧ (decideOffers s).streams = s.streams ∧
    (decideOffers s).frame = s.frame ∧ (decideOffers s).buf = s.buf ∧ (decideOffers s).aux = s.aux ∧
    (decideOffers s).ptp = s.ptp ∧ (decideOffers s).modPhase = s.modPhase ∧ (decideOffers s).shift = s.shift ∧
    (decideOffers s).segIdent = s.segIdent ∧ (decideOffers s).out = s.out := by
  simp [decideOffers]

@[simp] theorem cycleEnd_frame (s : State) :
    (cycleEnd s).pending = s.pending ∧ (cycleEnd s).power = s.power ∧ (cycleEnd s).time = s.time ∧
    (cycleEnd s).conf = s.conf ∧ (cycleEnd s).act = s.act ∧ (cycleEnd s).dict = s.dict ∧
    (cycleEnd s).clocks = s.clocks ∧ (cycleEnd s).chans = s.chans ∧ (cycleEnd s).dies = s.dies ∧
    (cycleEnd s).ref = s.ref ∧ (cycleEnd s).cal = s.cal ∧ (cycleEnd s).groups = s.groups ∧ (cycleEnd s).map = s.map ∧
    (cycleEnd s).streams = s.streams ∧ (cycleEnd s).frame = s.frame ∧ (cycleEnd s).buf = s.buf ∧
    (cycleEnd s).aux = s.aux ∧ (cycleEnd s).ptp = s.ptp ∧ (cycleEnd s).modPhase = s.modPhase ∧
    (cycleEnd s).shift = s.shift ∧ (cycleEnd s).segIdent = s.segIdent ∧ (cycleEnd s).out = s.out := by
  simp [cycleEnd]

@[simp] theorem trgStore_frame (u : Nat) (o : OutRec) (s : State) :
    (trgStore u o s).pending = s.pending ∧ (trgStore u o s).conf.cfg = s.conf.cfg ∧
    (trgStore u o s).power.vmain = s.power.vmain ∧ (trgStore u o s).time.tw = s.time.tw := by
  simp [trgStore]

@[simp] theorem trgWatch_frame (u : Nat) (chans : List Nat) (o : Resampled) (s : State) :
    (trgWatch u chans o s).pending = s.pending ∧ (trgWatch u chans o s).conf.cfg = s.conf.cfg ∧
    (trgWatch u chans o s).power.vmain = s.power.vmain ∧ (trgWatch u chans o s).time.tw = s.time.tw := by
  simp only [trgWatch]; (repeat' split) <;> simp

@[simp] theorem trgSample_frame (u : Nat) (chans : List Nat) (o : Resampled) (s : State) :
    (trgSample u chans o s).pending = s.pending ∧ (trgSample u chans o s).conf.cfg = s.conf.cfg ∧
    (trgSample u chans o s).power.vmain = s.power.vmain ∧ (trgSample u chans o s).time.tw = s.time.tw := by
  simp only [trgSample]; (repeat' split) <;> simp

@[simp] theorem outputFormed_frame (st : Nat) (feed : List Feed) (s : State) :
    (outputFormed st feed s).pending = s.pending ∧ (outputFormed st feed s).conf.cfg = s.conf.cfg ∧
    (outputFormed st feed s).power.vmain = s.power.vmain ∧ (outputFormed st feed s).time.tw = s.time.tw := by
  simp only [outputFormed]; (repeat' split) <;> simp

@[simp] theorem fireInstant_frame (u : Nat) (s : State) :
    (fireInstant u s).pending = s.pending ∧ (fireInstant u s).power = s.power ∧ (fireInstant u s).time = s.time ∧
    (fireInstant u s).conf = s.conf ∧ (fireInstant u s).act = s.act ∧ (fireInstant u s).dict = s.dict ∧
    (fireInstant u s).store = s.store ∧ (fireInstant u s).clocks = s.clocks ∧ (fireInstant u s).chans = s.chans ∧
    (fireInstant u s).dies = s.dies ∧ (fireInstant u s).ref = s.ref ∧ (fireInstant u s).cal = s.cal ∧
    (fireInstant u s).groups = s.groups ∧ (fireInstant u s).map = s.map ∧ (fireInstant u s).streams = s.streams ∧
    (fireInstant u s).frame = s.frame ∧ (fireInstant u s).buf = s.buf ∧ (fireInstant u s).aux = s.aux ∧
    (fireInstant u s).ptp = s.ptp ∧ (fireInstant u s).modPhase = s.modPhase ∧ (fireInstant u s).shift = s.shift ∧
    (fireInstant u s).segIdent = s.segIdent ∧ (fireInstant u s).out = s.out := by
  simp [fireInstant]

@[simp] theorem resumeStore_frame (u : Nat) (s : State) :
    (resumeStore u s).pending = s.pending ∧ (resumeStore u s).conf.cfg = s.conf.cfg ∧
    (resumeStore u s).power.vmain = s.power.vmain ∧ (resumeStore u s).time.tw = s.time.tw := by
  simp [resumeStore]

@[simp] theorem outsLow_frame (s : State) :
    (outsLow s).pending = s.pending ∧ (outsLow s).power = s.power ∧ (outsLow s).time = s.time ∧
    (outsLow s).conf = s.conf ∧ (outsLow s).act = s.act ∧ (outsLow s).dict = s.dict ∧ (outsLow s).store = s.store ∧
    (outsLow s).health = s.health ∧ (outsLow s).clocks = s.clocks ∧ (outsLow s).chans = s.chans ∧
    (outsLow s).dies = s.dies ∧ (outsLow s).ref = s.ref ∧ (outsLow s).cal = s.cal ∧ (outsLow s).groups = s.groups ∧
    (outsLow s).map = s.map ∧ (outsLow s).streams = s.streams ∧ (outsLow s).frame = s.frame ∧
    (outsLow s).buf = s.buf ∧ (outsLow s).link = s.link ∧ (outsLow s).units = s.units ∧ (outsLow s).aux = s.aux ∧
    (outsLow s).ev = s.ev ∧ (outsLow s).ptp = s.ptp ∧ (outsLow s).modPhase = s.modPhase ∧
    (outsLow s).shift = s.shift ∧ (outsLow s).segIdent = s.segIdent ∧ (outsLow s).fv = s.fv ∧ (outsLow s).out = s.out := by
  simp [outsLow]

@[simp] theorem drainUnit_frame (bad : List CapFault) (u : Nat) (s : State) :
    (drainUnit bad u s).pending = s.pending ∧ (drainUnit bad u s).power = s.power ∧
    (drainUnit bad u s).time = s.time ∧ (drainUnit bad u s).conf = s.conf ∧ (drainUnit bad u s).act = s.act ∧
    (drainUnit bad u s).dict = s.dict ∧ (drainUnit bad u s).store = s.store ∧ (drainUnit bad u s).health = s.health ∧
    (drainUnit bad u s).clocks = s.clocks ∧ (drainUnit bad u s).chans = s.chans ∧ (drainUnit bad u s).dies = s.dies ∧
    (drainUnit bad u s).ref = s.ref ∧ (drainUnit bad u s).cal = s.cal ∧ (drainUnit bad u s).groups = s.groups ∧
    (drainUnit bad u s).map = s.map ∧ (drainUnit bad u s).streams = s.streams ∧ (drainUnit bad u s).frame = s.frame ∧
    (drainUnit bad u s).link = s.link ∧ (drainUnit bad u s).outs = s.outs ∧ (drainUnit bad u s).aux = s.aux ∧
    (drainUnit bad u s).ev = s.ev ∧ (drainUnit bad u s).ptp = s.ptp ∧ (drainUnit bad u s).modPhase = s.modPhase ∧
    (drainUnit bad u s).shift = s.shift ∧ (drainUnit bad u s).segIdent = s.segIdent ∧ (drainUnit bad u s).fv = s.fv ∧
    (drainUnit bad u s).out = s.out := by
  simp [drainUnit]

@[simp] theorem capRelease_frame (u last : Nat) (s : State) :
    (capRelease u last s).pending = s.pending ∧ (capRelease u last s).conf.cfg = s.conf.cfg ∧
    (capRelease u last s).power.vmain = s.power.vmain ∧ (capRelease u last s).time.tw = s.time.tw := by
  simp [capRelease]

@[simp] theorem seqStart_frame (items : List AuxItem) (t : TW) (s : State) :
    (seqStart items t s).pending = s.pending ∧ (seqStart items t s).power = s.power ∧
    (seqStart items t s).time = s.time ∧ (seqStart items t s).conf = s.conf ∧ (seqStart items t s).act = s.act ∧
    (seqStart items t s).dict = s.dict ∧ (seqStart items t s).store = s.store ∧
    (seqStart items t s).health = s.health ∧ (seqStart items t s).clocks = s.clocks ∧
    (seqStart items t s).chans = s.chans ∧ (seqStart items t s).dies = s.dies ∧ (seqStart items t s).ref = s.ref ∧
    (seqStart items t s).cal = s.cal ∧ (seqStart items t s).groups = s.groups ∧ (seqStart items t s).map = s.map ∧
    (seqStart items t s).streams = s.streams ∧ (seqStart items t s).frame = s.frame ∧
    (seqStart items t s).buf = s.buf ∧ (seqStart items t s).link = s.link ∧ (seqStart items t s).units = s.units ∧
    (seqStart items t s).outs = s.outs ∧ (seqStart items t s).ev = s.ev ∧ (seqStart items t s).ptp = s.ptp ∧
    (seqStart items t s).modPhase = s.modPhase ∧ (seqStart items t s).shift = s.shift ∧
    (seqStart items t s).segIdent = s.segIdent ∧ (seqStart items t s).fv = s.fv ∧ (seqStart items t s).out = s.out := by
  simp [seqStart]

@[simp] theorem auxKick_frame (s : State) :
    (auxKick s).pending = s.pending ∧ (auxKick s).power = s.power ∧ (auxKick s).time = s.time ∧
    (auxKick s).conf = s.conf ∧ (auxKick s).act = s.act ∧ (auxKick s).dict = s.dict ∧ (auxKick s).store = s.store ∧
    (auxKick s).health = s.health ∧ (auxKick s).clocks = s.clocks ∧ (auxKick s).chans = s.chans ∧
    (auxKick s).dies = s.dies ∧ (auxKick s).ref = s.ref ∧ (auxKick s).cal = s.cal ∧ (auxKick s).groups = s.groups ∧
    (auxKick s).map = s.map ∧ (auxKick s).streams = s.streams ∧ (auxKick s).frame = s.frame ∧
    (auxKick s).buf = s.buf ∧ (auxKick s).link = s.link ∧ (auxKick s).units = s.units ∧ (auxKick s).outs = s.outs ∧
    (auxKick s).ev = s.ev ∧ (auxKick s).ptp = s.ptp ∧ (auxKick s).modPhase = s.modPhase ∧
    (auxKick s).shift = s.shift ∧ (auxKick s).segIdent = s.segIdent ∧ (auxKick s).fv = s.fv ∧ (auxKick s).out = s.out := by
  unfold auxKick; (repeat' split) <;> simp

@[simp] theorem launch_frame (t : TW) (s : State) :
    (launch t s).pending = s.pending ∧ (launch t s).power = s.power ∧ (launch t s).time = s.time ∧
    (launch t s).conf = s.conf ∧ (launch t s).act = s.act ∧ (launch t s).dict = s.dict ∧
    (launch t s).store = s.store ∧ (launch t s).health = s.health ∧ (launch t s).clocks = s.clocks ∧
    (launch t s).chans = s.chans ∧ (launch t s).dies = s.dies ∧ (launch t s).ref = s.ref ∧ (launch t s).cal = s.cal ∧
    (launch t s).groups = s.groups ∧ (launch t s).map = s.map ∧ (launch t s).streams = s.streams ∧
    (launch t s).frame = s.frame ∧ (launch t s).buf = s.buf ∧ (launch t s).link = s.link ∧
    (launch t s).units = s.units ∧ (launch t s).outs = s.outs ∧ (launch t s).ev = s.ev ∧ (launch t s).ptp = s.ptp ∧
    (launch t s).modPhase = s.modPhase ∧ (launch t s).shift = s.shift ∧ (launch t s).segIdent = s.segIdent ∧
    (launch t s).fv = s.fv ∧ (launch t s).out = s.out := by
  simp [launch]

@[simp] theorem auxCalRequest_frame (s : State) :
    (auxCalRequest s).pending = s.pending ∧ (auxCalRequest s).power = s.power ∧ (auxCalRequest s).time = s.time ∧
    (auxCalRequest s).conf = s.conf ∧ (auxCalRequest s).act = s.act ∧ (auxCalRequest s).dict = s.dict ∧
    (auxCalRequest s).store = s.store ∧ (auxCalRequest s).health = s.health ∧ (auxCalRequest s).clocks = s.clocks ∧
    (auxCalRequest s).chans = s.chans ∧ (auxCalRequest s).dies = s.dies ∧ (auxCalRequest s).ref = s.ref ∧
    (auxCalRequest s).cal = s.cal ∧ (auxCalRequest s).groups = s.groups ∧ (auxCalRequest s).map = s.map ∧
    (auxCalRequest s).streams = s.streams ∧ (auxCalRequest s).frame = s.frame ∧ (auxCalRequest s).buf = s.buf ∧
    (auxCalRequest s).link = s.link ∧ (auxCalRequest s).units = s.units ∧ (auxCalRequest s).outs = s.outs ∧
    (auxCalRequest s).ev = s.ev ∧ (auxCalRequest s).ptp = s.ptp ∧ (auxCalRequest s).modPhase = s.modPhase ∧
    (auxCalRequest s).shift = s.shift ∧ (auxCalRequest s).segIdent = s.segIdent ∧ (auxCalRequest s).fv = s.fv ∧
    (auxCalRequest s).out = s.out := by
  simp [auxCalRequest]

@[simp] theorem auxAtC0_frame (c0 : TW) (mask : Nat) (s : State) :
    (auxAtC0 c0 mask s).pending = s.pending ∧ (auxAtC0 c0 mask s).power = s.power ∧
    (auxAtC0 c0 mask s).time = s.time ∧ (auxAtC0 c0 mask s).conf = s.conf ∧ (auxAtC0 c0 mask s).act = s.act ∧
    (auxAtC0 c0 mask s).dict = s.dict ∧ (auxAtC0 c0 mask s).store = s.store ∧ (auxAtC0 c0 mask s).health = s.health ∧
    (auxAtC0 c0 mask s).clocks = s.clocks ∧ (auxAtC0 c0 mask s).chans = s.chans ∧ (auxAtC0 c0 mask s).dies = s.dies ∧
    (auxAtC0 c0 mask s).ref = s.ref ∧ (auxAtC0 c0 mask s).cal = s.cal ∧ (auxAtC0 c0 mask s).groups = s.groups ∧
    (auxAtC0 c0 mask s).map = s.map ∧ (auxAtC0 c0 mask s).streams = s.streams ∧ (auxAtC0 c0 mask s).frame = s.frame ∧
    (auxAtC0 c0 mask s).buf = s.buf ∧ (auxAtC0 c0 mask s).link = s.link ∧ (auxAtC0 c0 mask s).units = s.units ∧
    (auxAtC0 c0 mask s).outs = s.outs ∧ (auxAtC0 c0 mask s).ev = s.ev ∧ (auxAtC0 c0 mask s).ptp = s.ptp ∧
    (auxAtC0 c0 mask s).modPhase = s.modPhase ∧ (auxAtC0 c0 mask s).shift = s.shift ∧
    (auxAtC0 c0 mask s).segIdent = s.segIdent ∧ (auxAtC0 c0 mask s).fv = s.fv ∧ (auxAtC0 c0 mask s).out = s.out := by
  simp [auxAtC0]

@[simp] theorem auxResume_frame (s : State) :
    (auxResume s).pending = s.pending ∧ (auxResume s).power = s.power ∧ (auxResume s).time = s.time ∧
    (auxResume s).conf = s.conf ∧ (auxResume s).act = s.act ∧ (auxResume s).dict = s.dict ∧
    (auxResume s).store = s.store ∧ (auxResume s).health = s.health ∧ (auxResume s).clocks = s.clocks ∧
    (auxResume s).chans = s.chans ∧ (auxResume s).dies = s.dies ∧ (auxResume s).ref = s.ref ∧
    (auxResume s).cal = s.cal ∧ (auxResume s).groups = s.groups ∧ (auxResume s).map = s.map ∧
    (auxResume s).streams = s.streams ∧ (auxResume s).frame = s.frame ∧ (auxResume s).buf = s.buf ∧
    (auxResume s).link = s.link ∧ (auxResume s).units = s.units ∧ (auxResume s).outs = s.outs ∧
    (auxResume s).ev = s.ev ∧ (auxResume s).ptp = s.ptp ∧ (auxResume s).modPhase = s.modPhase ∧
    (auxResume s).shift = s.shift ∧ (auxResume s).segIdent = s.segIdent ∧ (auxResume s).fv = s.fv ∧
    (auxResume s).out = s.out := by
  simp [auxResume]

@[simp] theorem auxHold_frame (s : State) :
    (auxHold s).pending = s.pending ∧ (auxHold s).conf.cfg = s.conf.cfg ∧ (auxHold s).power.vmain = s.power.vmain ∧
    (auxHold s).time.tw = s.time.tw := by
  unfold auxHold; (repeat' split) <;> simp

@[simp] theorem auxDone_frame (raw : Int) (s : State) :
    (auxDone raw s).pending = s.pending ∧ (auxDone raw s).conf.cfg = s.conf.cfg ∧
    (auxDone raw s).power.vmain = s.power.vmain ∧ (auxDone raw s).time.tw = s.time.tw := by
  unfold auxDone; (repeat' split) <;> simp

@[simp] theorem auxCalBegin_frame (s : State) :
    (auxCalBegin s).pending = s.pending ∧ (auxCalBegin s).power = s.power ∧ (auxCalBegin s).time = s.time ∧
    (auxCalBegin s).conf = s.conf ∧ (auxCalBegin s).act = s.act ∧ (auxCalBegin s).dict = s.dict ∧
    (auxCalBegin s).store = s.store ∧ (auxCalBegin s).health = s.health ∧ (auxCalBegin s).clocks = s.clocks ∧
    (auxCalBegin s).chans = s.chans ∧ (auxCalBegin s).dies = s.dies ∧ (auxCalBegin s).ref = s.ref ∧
    (auxCalBegin s).cal = s.cal ∧ (auxCalBegin s).groups = s.groups ∧ (auxCalBegin s).map = s.map ∧
    (auxCalBegin s).streams = s.streams ∧ (auxCalBegin s).frame = s.frame ∧ (auxCalBegin s).buf = s.buf ∧
    (auxCalBegin s).link = s.link ∧ (auxCalBegin s).units = s.units ∧ (auxCalBegin s).outs = s.outs ∧
    (auxCalBegin s).ev = s.ev ∧ (auxCalBegin s).ptp = s.ptp ∧ (auxCalBegin s).modPhase = s.modPhase ∧
    (auxCalBegin s).shift = s.shift ∧ (auxCalBegin s).segIdent = s.segIdent ∧ (auxCalBegin s).fv = s.fv ∧
    (auxCalBegin s).out = s.out := by
  simp [auxCalBegin]

@[simp] theorem auxCalEnd_frame (offset gain : Int) (s : State) :
    (auxCalEnd offset gain s).pending = s.pending ∧ (auxCalEnd offset gain s).power = s.power ∧
    (auxCalEnd offset gain s).time = s.time ∧ (auxCalEnd offset gain s).conf = s.conf ∧
    (auxCalEnd offset gain s).act = s.act ∧ (auxCalEnd offset gain s).dict = s.dict ∧
    (auxCalEnd offset gain s).store = s.store ∧ (auxCalEnd offset gain s).health = s.health ∧
    (auxCalEnd offset gain s).clocks = s.clocks ∧ (auxCalEnd offset gain s).chans = s.chans ∧
    (auxCalEnd offset gain s).dies = s.dies ∧ (auxCalEnd offset gain s).ref = s.ref ∧
    (auxCalEnd offset gain s).cal = s.cal ∧ (auxCalEnd offset gain s).groups = s.groups ∧
    (auxCalEnd offset gain s).map = s.map ∧ (auxCalEnd offset gain s).streams = s.streams ∧
    (auxCalEnd offset gain s).frame = s.frame ∧ (auxCalEnd offset gain s).buf = s.buf ∧
    (auxCalEnd offset gain s).link = s.link ∧ (auxCalEnd offset gain s).units = s.units ∧
    (auxCalEnd offset gain s).outs = s.outs ∧ (auxCalEnd offset gain s).ev = s.ev ∧
    (auxCalEnd offset gain s).ptp = s.ptp ∧ (auxCalEnd offset gain s).modPhase = s.modPhase ∧
    (auxCalEnd offset gain s).shift = s.shift ∧ (auxCalEnd offset gain s).segIdent = s.segIdent ∧
    (auxCalEnd offset gain s).fv = s.fv ∧ (auxCalEnd offset gain s).out = s.out := by
  simp [auxCalEnd]

@[simp] theorem windowEvent_frame (w : Nat) (s : State) :
    (windowEvent w s).pending = s.pending ∧ (windowEvent w s).conf.cfg = s.conf.cfg ∧
    (windowEvent w s).power.vmain = s.power.vmain ∧ (windowEvent w s).time.tw = s.time.tw := by
  simp [windowEvent]

@[simp] theorem auxLaunchWrite_frame (r : Role) (v : BitVec 8) (s : State) :
    (auxLaunchWrite r v s).st.pending = s.pending ∧ (auxLaunchWrite r v s).st.power = s.power ∧
    (auxLaunchWrite r v s).st.time = s.time ∧ (auxLaunchWrite r v s).st.conf = s.conf ∧
    (auxLaunchWrite r v s).st.act = s.act ∧ (auxLaunchWrite r v s).st.dict = s.dict ∧
    (auxLaunchWrite r v s).st.store = s.store ∧ (auxLaunchWrite r v s).st.health = s.health ∧
    (auxLaunchWrite r v s).st.clocks = s.clocks ∧ (auxLaunchWrite r v s).st.chans = s.chans ∧
    (auxLaunchWrite r v s).st.dies = s.dies ∧ (auxLaunchWrite r v s).st.ref = s.ref ∧
    (auxLaunchWrite r v s).st.cal = s.cal ∧ (auxLaunchWrite r v s).st.groups = s.groups ∧
    (auxLaunchWrite r v s).st.map = s.map ∧ (auxLaunchWrite r v s).st.streams = s.streams ∧
    (auxLaunchWrite r v s).st.frame = s.frame ∧ (auxLaunchWrite r v s).st.buf = s.buf ∧
    (auxLaunchWrite r v s).st.link = s.link ∧ (auxLaunchWrite r v s).st.units = s.units ∧
    (auxLaunchWrite r v s).st.outs = s.outs ∧ (auxLaunchWrite r v s).st.ev = s.ev ∧
    (auxLaunchWrite r v s).st.ptp = s.ptp ∧ (auxLaunchWrite r v s).st.modPhase = s.modPhase ∧
    (auxLaunchWrite r v s).st.shift = s.shift ∧ (auxLaunchWrite r v s).st.segIdent = s.segIdent ∧
    (auxLaunchWrite r v s).st.fv = s.fv ∧ (auxLaunchWrite r v s).st.out = s.out := by
  unfold auxLaunchWrite gate; dsimp only; (repeat' split) <;> first | rfl | simp

@[simp] theorem auxInjectWrite_frame (r : Role) (v : BitVec 32) (s : State) :
    (auxInjectWrite r v s).st.pending = s.pending ∧ (auxInjectWrite r v s).st.power = s.power ∧
    (auxInjectWrite r v s).st.time = s.time ∧ (auxInjectWrite r v s).st.conf = s.conf ∧
    (auxInjectWrite r v s).st.act = s.act ∧ (auxInjectWrite r v s).st.dict = s.dict ∧
    (auxInjectWrite r v s).st.store = s.store ∧ (auxInjectWrite r v s).st.health = s.health ∧
    (auxInjectWrite r v s).st.clocks = s.clocks ∧ (auxInjectWrite r v s).st.chans = s.chans ∧
    (auxInjectWrite r v s).st.dies = s.dies ∧ (auxInjectWrite r v s).st.ref = s.ref ∧
    (auxInjectWrite r v s).st.cal = s.cal ∧ (auxInjectWrite r v s).st.groups = s.groups ∧
    (auxInjectWrite r v s).st.map = s.map ∧ (auxInjectWrite r v s).st.streams = s.streams ∧
    (auxInjectWrite r v s).st.frame = s.frame ∧ (auxInjectWrite r v s).st.buf = s.buf ∧
    (auxInjectWrite r v s).st.link = s.link ∧ (auxInjectWrite r v s).st.units = s.units ∧
    (auxInjectWrite r v s).st.outs = s.outs ∧ (auxInjectWrite r v s).st.ev = s.ev ∧
    (auxInjectWrite r v s).st.ptp = s.ptp ∧ (auxInjectWrite r v s).st.modPhase = s.modPhase ∧
    (auxInjectWrite r v s).st.shift = s.shift ∧ (auxInjectWrite r v s).st.segIdent = s.segIdent ∧
    (auxInjectWrite r v s).st.fv = s.fv ∧ (auxInjectWrite r v s).st.out = s.out := by
  unfold auxInjectWrite gate auxEnqueue
  by_cases c : s.aux.queue.length < 4 <;> simp only [c, if_true, if_false] <;> (repeat' split) <;> simp [refuse, accept]

@[simp] theorem auxCalStartWrite_frame (r : Role) (v : BitVec 8) (s : State) :
    (auxCalStartWrite r v s).st.pending = s.pending ∧ (auxCalStartWrite r v s).st.power = s.power ∧
    (auxCalStartWrite r v s).st.time = s.time ∧ (auxCalStartWrite r v s).st.conf = s.conf ∧
    (auxCalStartWrite r v s).st.act = s.act ∧ (auxCalStartWrite r v s).st.dict = s.dict ∧
    (auxCalStartWrite r v s).st.store = s.store ∧ (auxCalStartWrite r v s).st.health = s.health ∧
    (auxCalStartWrite r v s).st.clocks = s.clocks ∧ (auxCalStartWrite r v s).st.chans = s.chans ∧
    (auxCalStartWrite r v s).st.dies = s.dies ∧ (auxCalStartWrite r v s).st.ref = s.ref ∧
    (auxCalStartWrite r v s).st.cal = s.cal ∧ (auxCalStartWrite r v s).st.groups = s.groups ∧
    (auxCalStartWrite r v s).st.map = s.map ∧ (auxCalStartWrite r v s).st.streams = s.streams ∧
    (auxCalStartWrite r v s).st.frame = s.frame ∧ (auxCalStartWrite r v s).st.buf = s.buf ∧
    (auxCalStartWrite r v s).st.link = s.link ∧ (auxCalStartWrite r v s).st.units = s.units ∧
    (auxCalStartWrite r v s).st.outs = s.outs ∧ (auxCalStartWrite r v s).st.ev = s.ev ∧
    (auxCalStartWrite r v s).st.ptp = s.ptp ∧ (auxCalStartWrite r v s).st.modPhase = s.modPhase ∧
    (auxCalStartWrite r v s).st.shift = s.shift ∧ (auxCalStartWrite r v s).st.segIdent = s.segIdent ∧
    (auxCalStartWrite r v s).st.fv = s.fv ∧ (auxCalStartWrite r v s).st.out = s.out := by
  unfold auxCalStartWrite gate; dsimp only; (repeat' split) <;> first | rfl | simp

@[simp] theorem auxRingReadWrite_frame (r : Role) (v : BitVec 16) (s : State) :
    (auxRingReadWrite r v s).st.pending = s.pending ∧ (auxRingReadWrite r v s).st.power = s.power ∧
    (auxRingReadWrite r v s).st.time = s.time ∧ (auxRingReadWrite r v s).st.conf = s.conf ∧
    (auxRingReadWrite r v s).st.act = s.act ∧ (auxRingReadWrite r v s).st.dict = s.dict ∧
    (auxRingReadWrite r v s).st.store = s.store ∧ (auxRingReadWrite r v s).st.health = s.health ∧
    (auxRingReadWrite r v s).st.clocks = s.clocks ∧ (auxRingReadWrite r v s).st.chans = s.chans ∧
    (auxRingReadWrite r v s).st.dies = s.dies ∧ (auxRingReadWrite r v s).st.ref = s.ref ∧
    (auxRingReadWrite r v s).st.cal = s.cal ∧ (auxRingReadWrite r v s).st.groups = s.groups ∧
    (auxRingReadWrite r v s).st.map = s.map ∧ (auxRingReadWrite r v s).st.streams = s.streams ∧
    (auxRingReadWrite r v s).st.frame = s.frame ∧ (auxRingReadWrite r v s).st.buf = s.buf ∧
    (auxRingReadWrite r v s).st.link = s.link ∧ (auxRingReadWrite r v s).st.units = s.units ∧
    (auxRingReadWrite r v s).st.outs = s.outs ∧ (auxRingReadWrite r v s).st.ev = s.ev ∧
    (auxRingReadWrite r v s).st.ptp = s.ptp ∧ (auxRingReadWrite r v s).st.modPhase = s.modPhase ∧
    (auxRingReadWrite r v s).st.shift = s.shift ∧ (auxRingReadWrite r v s).st.segIdent = s.segIdent ∧
    (auxRingReadWrite r v s).st.fv = s.fv ∧ (auxRingReadWrite r v s).st.out = s.out := by
  unfold auxRingReadWrite gate; dsimp only; (repeat' split) <;> first | rfl | simp

@[simp] theorem onBank_frame (g b : Nat) (f : Bank → Bank) (s : State) :
    (onBank g b f s).pending = s.pending ∧ (onBank g b f s).power = s.power ∧ (onBank g b f s).time = s.time ∧
    (onBank g b f s).conf = s.conf ∧ (onBank g b f s).act = s.act ∧ (onBank g b f s).dict = s.dict ∧
    (onBank g b f s).store = s.store ∧ (onBank g b f s).health = s.health ∧ (onBank g b f s).clocks = s.clocks ∧
    (onBank g b f s).chans = s.chans ∧ (onBank g b f s).dies = s.dies ∧ (onBank g b f s).ref = s.ref ∧
    (onBank g b f s).cal = s.cal ∧ (onBank g b f s).map = s.map ∧ (onBank g b f s).streams = s.streams ∧
    (onBank g b f s).frame = s.frame ∧ (onBank g b f s).buf = s.buf ∧ (onBank g b f s).link = s.link ∧
    (onBank g b f s).units = s.units ∧ (onBank g b f s).outs = s.outs ∧ (onBank g b f s).aux = s.aux ∧
    (onBank g b f s).ev = s.ev ∧ (onBank g b f s).ptp = s.ptp ∧ (onBank g b f s).modPhase = s.modPhase ∧
    (onBank g b f s).shift = s.shift ∧ (onBank g b f s).segIdent = s.segIdent ∧ (onBank g b f s).fv = s.fv ∧
    (onBank g b f s).out = s.out := by
  simp [onBank]

@[simp] theorem firCoefWrite_frame (r : Role) (g b i : Nat) (v : BitVec 32) (s : State) :
    (firCoefWrite r g b i v s).st.pending = s.pending ∧ (firCoefWrite r g b i v s).st.power = s.power ∧
    (firCoefWrite r g b i v s).st.time = s.time ∧ (firCoefWrite r g b i v s).st.conf = s.conf ∧
    (firCoefWrite r g b i v s).st.act = s.act ∧ (firCoefWrite r g b i v s).st.dict = s.dict ∧
    (firCoefWrite r g b i v s).st.health = s.health ∧ (firCoefWrite r g b i v s).st.clocks = s.clocks ∧
    (firCoefWrite r g b i v s).st.chans = s.chans ∧ (firCoefWrite r g b i v s).st.dies = s.dies ∧
    (firCoefWrite r g b i v s).st.ref = s.ref ∧ (firCoefWrite r g b i v s).st.cal = s.cal ∧
    (firCoefWrite r g b i v s).st.map = s.map ∧ (firCoefWrite r g b i v s).st.streams = s.streams ∧
    (firCoefWrite r g b i v s).st.frame = s.frame ∧ (firCoefWrite r g b i v s).st.buf = s.buf ∧
    (firCoefWrite r g b i v s).st.link = s.link ∧ (firCoefWrite r g b i v s).st.units = s.units ∧
    (firCoefWrite r g b i v s).st.outs = s.outs ∧ (firCoefWrite r g b i v s).st.aux = s.aux ∧
    (firCoefWrite r g b i v s).st.ev = s.ev ∧ (firCoefWrite r g b i v s).st.ptp = s.ptp ∧
    (firCoefWrite r g b i v s).st.modPhase = s.modPhase ∧ (firCoefWrite r g b i v s).st.shift = s.shift ∧
    (firCoefWrite r g b i v s).st.segIdent = s.segIdent ∧ (firCoefWrite r g b i v s).st.fv = s.fv ∧
    (firCoefWrite r g b i v s).st.out = s.out := by
  unfold firCoefWrite gate; dsimp only; (repeat' split) <;> first | rfl | simp

@[simp] theorem firSealWrite_frame (r : Role) (v : BitVec 16) (s : State) :
    (firSealWrite r v s).st.pending = s.pending ∧ (firSealWrite r v s).st.power = s.power ∧
    (firSealWrite r v s).st.time = s.time ∧ (firSealWrite r v s).st.conf = s.conf ∧
    (firSealWrite r v s).st.act = s.act ∧ (firSealWrite r v s).st.dict = s.dict ∧
    (firSealWrite r v s).st.health = s.health ∧ (firSealWrite r v s).st.clocks = s.clocks ∧
    (firSealWrite r v s).st.chans = s.chans ∧ (firSealWrite r v s).st.dies = s.dies ∧
    (firSealWrite r v s).st.ref = s.ref ∧ (firSealWrite r v s).st.cal = s.cal ∧ (firSealWrite r v s).st.map = s.map ∧
    (firSealWrite r v s).st.streams = s.streams ∧ (firSealWrite r v s).st.frame = s.frame ∧
    (firSealWrite r v s).st.buf = s.buf ∧ (firSealWrite r v s).st.link = s.link ∧
    (firSealWrite r v s).st.units = s.units ∧ (firSealWrite r v s).st.outs = s.outs ∧
    (firSealWrite r v s).st.aux = s.aux ∧ (firSealWrite r v s).st.ev = s.ev ∧ (firSealWrite r v s).st.ptp = s.ptp ∧
    (firSealWrite r v s).st.modPhase = s.modPhase ∧ (firSealWrite r v s).st.shift = s.shift ∧
    (firSealWrite r v s).st.segIdent = s.segIdent ∧ (firSealWrite r v s).st.fv = s.fv ∧
    (firSealWrite r v s).st.out = s.out := by
  unfold firSealWrite gate; dsimp only; (repeat' split) <;> first | rfl | simp

@[simp] theorem firLoadWrite_frame (r : Role) (v : BitVec 16) (s : State) :
    (firLoadWrite r v s).st.pending = s.pending ∧ (firLoadWrite r v s).st.power = s.power ∧
    (firLoadWrite r v s).st.time = s.time ∧ (firLoadWrite r v s).st.conf = s.conf ∧
    (firLoadWrite r v s).st.act = s.act ∧ (firLoadWrite r v s).st.dict = s.dict ∧
    (firLoadWrite r v s).st.health = s.health ∧ (firLoadWrite r v s).st.clocks = s.clocks ∧
    (firLoadWrite r v s).st.chans = s.chans ∧ (firLoadWrite r v s).st.dies = s.dies ∧
    (firLoadWrite r v s).st.ref = s.ref ∧ (firLoadWrite r v s).st.cal = s.cal ∧ (firLoadWrite r v s).st.map = s.map ∧
    (firLoadWrite r v s).st.streams = s.streams ∧ (firLoadWrite r v s).st.frame = s.frame ∧
    (firLoadWrite r v s).st.buf = s.buf ∧ (firLoadWrite r v s).st.link = s.link ∧
    (firLoadWrite r v s).st.units = s.units ∧ (firLoadWrite r v s).st.outs = s.outs ∧
    (firLoadWrite r v s).st.aux = s.aux ∧ (firLoadWrite r v s).st.ev = s.ev ∧ (firLoadWrite r v s).st.ptp = s.ptp ∧
    (firLoadWrite r v s).st.modPhase = s.modPhase ∧ (firLoadWrite r v s).st.shift = s.shift ∧
    (firLoadWrite r v s).st.segIdent = s.segIdent ∧ (firLoadWrite r v s).st.fv = s.fv ∧
    (firLoadWrite r v s).st.out = s.out := by
  unfold firLoadWrite gate; dsimp only; (repeat' split) <;> first | rfl | simp

@[simp] theorem fadeWrite_frame (r : Role) (v : BitVec 32) (s : State) :
    (fadeWrite r v s).st.pending = s.pending ∧ (fadeWrite r v s).st.power = s.power ∧
    (fadeWrite r v s).st.time = s.time ∧ (fadeWrite r v s).st.conf = s.conf ∧ (fadeWrite r v s).st.dict = s.dict ∧
    (fadeWrite r v s).st.store = s.store ∧ (fadeWrite r v s).st.health = s.health ∧
    (fadeWrite r v s).st.clocks = s.clocks ∧ (fadeWrite r v s).st.chans = s.chans ∧
    (fadeWrite r v s).st.dies = s.dies ∧ (fadeWrite r v s).st.ref = s.ref ∧ (fadeWrite r v s).st.cal = s.cal ∧
    (fadeWrite r v s).st.groups = s.groups ∧ (fadeWrite r v s).st.map = s.map ∧
    (fadeWrite r v s).st.streams = s.streams ∧ (fadeWrite r v s).st.frame = s.frame ∧
    (fadeWrite r v s).st.buf = s.buf ∧ (fadeWrite r v s).st.link = s.link ∧ (fadeWrite r v s).st.units = s.units ∧
    (fadeWrite r v s).st.outs = s.outs ∧ (fadeWrite r v s).st.aux = s.aux ∧ (fadeWrite r v s).st.ev = s.ev ∧
    (fadeWrite r v s).st.ptp = s.ptp ∧ (fadeWrite r v s).st.modPhase = s.modPhase ∧
    (fadeWrite r v s).st.shift = s.shift ∧ (fadeWrite r v s).st.segIdent = s.segIdent ∧
    (fadeWrite r v s).st.fv = s.fv ∧ (fadeWrite r v s).st.out = s.out := by
  unfold fadeWrite gate; dsimp only; (repeat' split) <;> first | rfl | simp

@[simp] theorem fadeBegin_frame (e : Sched) (a : BitVec 32) (s : State) :
    (fadeBegin e a s).pending = s.pending ∧ (fadeBegin e a s).power = s.power ∧ (fadeBegin e a s).time = s.time ∧
    (fadeBegin e a s).conf = s.conf ∧ (fadeBegin e a s).act = s.act ∧ (fadeBegin e a s).dict = s.dict ∧
    (fadeBegin e a s).store = s.store ∧ (fadeBegin e a s).health = s.health ∧ (fadeBegin e a s).clocks = s.clocks ∧
    (fadeBegin e a s).chans = s.chans ∧ (fadeBegin e a s).dies = s.dies ∧ (fadeBegin e a s).ref = s.ref ∧
    (fadeBegin e a s).cal = s.cal ∧ (fadeBegin e a s).map = s.map ∧ (fadeBegin e a s).streams = s.streams ∧
    (fadeBegin e a s).frame = s.frame ∧ (fadeBegin e a s).buf = s.buf ∧ (fadeBegin e a s).link = s.link ∧
    (fadeBegin e a s).units = s.units ∧ (fadeBegin e a s).outs = s.outs ∧ (fadeBegin e a s).aux = s.aux ∧
    (fadeBegin e a s).ev = s.ev ∧ (fadeBegin e a s).ptp = s.ptp ∧ (fadeBegin e a s).modPhase = s.modPhase ∧
    (fadeBegin e a s).shift = s.shift ∧ (fadeBegin e a s).segIdent = s.segIdent ∧ (fadeBegin e a s).fv = s.fv ∧
    (fadeBegin e a s).out = s.out := by
  simp [fadeBegin]

@[simp] theorem fadeFirst_frame (g : Nat) (s : State) :
    (fadeFirst g s).pending = s.pending ∧ (fadeFirst g s).conf.cfg = s.conf.cfg ∧
    (fadeFirst g s).power.vmain = s.power.vmain ∧ (fadeFirst g s).time.tw = s.time.tw := by
  unfold fadeFirst; (repeat' split) <;> simp

@[simp] theorem fadeDone_frame (g : Nat) (s : State) :
    (fadeDone g s).pending = s.pending ∧ (fadeDone g s).conf.cfg = s.conf.cfg ∧
    (fadeDone g s).power.vmain = s.power.vmain ∧ (fadeDone g s).time.tw = s.time.tw := by
  unfold fadeDone; (repeat' split) <;> simp

@[simp] theorem fadeAbort_frame (g : Nat) (s : State) :
    (fadeAbort g s).pending = s.pending ∧ (fadeAbort g s).power = s.power ∧ (fadeAbort g s).time = s.time ∧
    (fadeAbort g s).conf = s.conf ∧ (fadeAbort g s).dict = s.dict ∧ (fadeAbort g s).store = s.store ∧
    (fadeAbort g s).health = s.health ∧ (fadeAbort g s).clocks = s.clocks ∧ (fadeAbort g s).chans = s.chans ∧
    (fadeAbort g s).dies = s.dies ∧ (fadeAbort g s).ref = s.ref ∧ (fadeAbort g s).cal = s.cal ∧
    (fadeAbort g s).map = s.map ∧ (fadeAbort g s).streams = s.streams ∧ (fadeAbort g s).frame = s.frame ∧
    (fadeAbort g s).link = s.link ∧ (fadeAbort g s).units = s.units ∧ (fadeAbort g s).outs = s.outs ∧
    (fadeAbort g s).aux = s.aux ∧ (fadeAbort g s).ev = s.ev ∧ (fadeAbort g s).ptp = s.ptp ∧
    (fadeAbort g s).modPhase = s.modPhase ∧ (fadeAbort g s).shift = s.shift ∧ (fadeAbort g s).segIdent = s.segIdent ∧
    (fadeAbort g s).fv = s.fv ∧ (fadeAbort g s).out = s.out := by
  unfold fadeAbort; (repeat' split) <;> simp

@[simp] theorem restartChain_frame (g : Nat) (s : State) :
    (restartChain g s).pending = s.pending ∧ (restartChain g s).power = s.power ∧ (restartChain g s).time = s.time ∧
    (restartChain g s).conf = s.conf ∧ (restartChain g s).act = s.act ∧ (restartChain g s).dict = s.dict ∧
    (restartChain g s).store = s.store ∧ (restartChain g s).health = s.health ∧ (restartChain g s).clocks = s.clocks ∧
    (restartChain g s).chans = s.chans ∧ (restartChain g s).dies = s.dies ∧ (restartChain g s).ref = s.ref ∧
    (restartChain g s).cal = s.cal ∧ (restartChain g s).map = s.map ∧ (restartChain g s).streams = s.streams ∧
    (restartChain g s).frame = s.frame ∧ (restartChain g s).buf = s.buf ∧ (restartChain g s).link = s.link ∧
    (restartChain g s).units = s.units ∧ (restartChain g s).outs = s.outs ∧ (restartChain g s).aux = s.aux ∧
    (restartChain g s).ev = s.ev ∧ (restartChain g s).ptp = s.ptp ∧ (restartChain g s).modPhase = s.modPhase ∧
    (restartChain g s).shift = s.shift ∧ (restartChain g s).segIdent = s.segIdent ∧ (restartChain g s).fv = s.fv ∧
    (restartChain g s).out = s.out := by
  simp [restartChain]

@[simp] theorem selectBank_frame (g l : Nat) (s : State) :
    (selectBank g l s).pending = s.pending ∧ (selectBank g l s).power = s.power ∧ (selectBank g l s).time = s.time ∧
    (selectBank g l s).conf = s.conf ∧ (selectBank g l s).act = s.act ∧ (selectBank g l s).dict = s.dict ∧
    (selectBank g l s).store = s.store ∧ (selectBank g l s).health = s.health ∧ (selectBank g l s).clocks = s.clocks ∧
    (selectBank g l s).chans = s.chans ∧ (selectBank g l s).dies = s.dies ∧ (selectBank g l s).ref = s.ref ∧
    (selectBank g l s).cal = s.cal ∧ (selectBank g l s).map = s.map ∧ (selectBank g l s).streams = s.streams ∧
    (selectBank g l s).frame = s.frame ∧ (selectBank g l s).buf = s.buf ∧ (selectBank g l s).link = s.link ∧
    (selectBank g l s).units = s.units ∧ (selectBank g l s).outs = s.outs ∧ (selectBank g l s).aux = s.aux ∧
    (selectBank g l s).ev = s.ev ∧ (selectBank g l s).ptp = s.ptp ∧ (selectBank g l s).modPhase = s.modPhase ∧
    (selectBank g l s).shift = s.shift ∧ (selectBank g l s).segIdent = s.segIdent ∧ (selectBank g l s).fv = s.fv ∧
    (selectBank g l s).out = s.out := by
  simp [selectBank]

@[simp] theorem setPairs_frame (c e : Nat) (new : List (Int × Int)) (s : State) :
    (setPairs c e new s).pending = s.pending ∧ (setPairs c e new s).power = s.power ∧
    (setPairs c e new s).time = s.time ∧ (setPairs c e new s).conf = s.conf ∧ (setPairs c e new s).act = s.act ∧
    (setPairs c e new s).dict = s.dict ∧ (setPairs c e new s).store = s.store ∧
    (setPairs c e new s).health = s.health ∧ (setPairs c e new s).clocks = s.clocks ∧
    (setPairs c e new s).dies = s.dies ∧ (setPairs c e new s).ref = s.ref ∧ (setPairs c e new s).cal = s.cal ∧
    (setPairs c e new s).groups = s.groups ∧ (setPairs c e new s).map = s.map ∧
    (setPairs c e new s).streams = s.streams ∧ (setPairs c e new s).frame = s.frame ∧
    (setPairs c e new s).buf = s.buf ∧ (setPairs c e new s).link = s.link ∧ (setPairs c e new s).units = s.units ∧
    (setPairs c e new s).outs = s.outs ∧ (setPairs c e new s).aux = s.aux ∧ (setPairs c e new s).ev = s.ev ∧
    (setPairs c e new s).ptp = s.ptp ∧ (setPairs c e new s).modPhase = s.modPhase ∧
    (setPairs c e new s).shift = s.shift ∧ (setPairs c e new s).segIdent = s.segIdent ∧
    (setPairs c e new s).fv = s.fv ∧ (setPairs c e new s).out = s.out := by
  simp [setPairs]

@[simp] theorem markSwap_frame (c e : Nat) (s : State) :
    (markSwap c e s).pending = s.pending ∧ (markSwap c e s).power = s.power ∧ (markSwap c e s).time = s.time ∧
    (markSwap c e s).conf = s.conf ∧ (markSwap c e s).act = s.act ∧ (markSwap c e s).dict = s.dict ∧
    (markSwap c e s).store = s.store ∧ (markSwap c e s).health = s.health ∧ (markSwap c e s).clocks = s.clocks ∧
    (markSwap c e s).dies = s.dies ∧ (markSwap c e s).ref = s.ref ∧ (markSwap c e s).cal = s.cal ∧
    (markSwap c e s).groups = s.groups ∧ (markSwap c e s).map = s.map ∧ (markSwap c e s).streams = s.streams ∧
    (markSwap c e s).frame = s.frame ∧ (markSwap c e s).buf = s.buf ∧ (markSwap c e s).link = s.link ∧
    (markSwap c e s).units = s.units ∧ (markSwap c e s).outs = s.outs ∧ (markSwap c e s).aux = s.aux ∧
    (markSwap c e s).ev = s.ev ∧ (markSwap c e s).ptp = s.ptp ∧ (markSwap c e s).modPhase = s.modPhase ∧
    (markSwap c e s).shift = s.shift ∧ (markSwap c e s).segIdent = s.segIdent ∧ (markSwap c e s).fv = s.fv ∧
    (markSwap c e s).out = s.out := by
  simp [markSwap]

@[simp] theorem takeOver_frame (g p x h from_ : Nat) (s : State) :
    (takeOver g p x h from_ s).pending = s.pending ∧ (takeOver g p x h from_ s).power = s.power ∧
    (takeOver g p x h from_ s).time = s.time ∧ (takeOver g p x h from_ s).conf = s.conf ∧
    (takeOver g p x h from_ s).act = s.act ∧ (takeOver g p x h from_ s).dict = s.dict ∧
    (takeOver g p x h from_ s).store = s.store ∧ (takeOver g p x h from_ s).health = s.health ∧
    (takeOver g p x h from_ s).clocks = s.clocks ∧ (takeOver g p x h from_ s).ref = s.ref ∧
    (takeOver g p x h from_ s).cal = s.cal ∧ (takeOver g p x h from_ s).groups = s.groups ∧
    (takeOver g p x h from_ s).map = s.map ∧ (takeOver g p x h from_ s).frame = s.frame ∧
    (takeOver g p x h from_ s).link = s.link ∧ (takeOver g p x h from_ s).outs = s.outs ∧
    (takeOver g p x h from_ s).aux = s.aux ∧ (takeOver g p x h from_ s).ev = s.ev ∧
    (takeOver g p x h from_ s).ptp = s.ptp ∧ (takeOver g p x h from_ s).modPhase = s.modPhase ∧
    (takeOver g p x h from_ s).shift = s.shift ∧ (takeOver g p x h from_ s).segIdent = s.segIdent ∧
    (takeOver g p x h from_ s).fv = s.fv ∧ (takeOver g p x h from_ s).out = s.out := by
  simp [takeOver]

@[simp] theorem orphanChannel_frame (g p e : Nat) (s : State) :
    (orphanChannel g p e s).pending = s.pending ∧ (orphanChannel g p e s).power = s.power ∧
    (orphanChannel g p e s).time = s.time ∧ (orphanChannel g p e s).conf = s.conf ∧
    (orphanChannel g p e s).act = s.act ∧ (orphanChannel g p e s).dict = s.dict ∧
    (orphanChannel g p e s).store = s.store ∧ (orphanChannel g p e s).health = s.health ∧
    (orphanChannel g p e s).clocks = s.clocks ∧ (orphanChannel g p e s).ref = s.ref ∧
    (orphanChannel g p e s).cal = s.cal ∧ (orphanChannel g p e s).groups = s.groups ∧
    (orphanChannel g p e s).map = s.map ∧ (orphanChannel g p e s).frame = s.frame ∧
    (orphanChannel g p e s).link = s.link ∧ (orphanChannel g p e s).outs = s.outs ∧
    (orphanChannel g p e s).aux = s.aux ∧ (orphanChannel g p e s).ev = s.ev ∧ (orphanChannel g p e s).ptp = s.ptp ∧
    (orphanChannel g p e s).modPhase = s.modPhase ∧ (orphanChannel g p e s).shift = s.shift ∧
    (orphanChannel g p e s).segIdent = s.segIdent ∧ (orphanChannel g p e s).fv = s.fv ∧
    (orphanChannel g p e s).out = s.out := by
  simp [orphanChannel]

@[simp] theorem leaveVisit_frame (g h : Nat) (s : State) :
    (leaveVisit g h s).pending = s.pending ∧ (leaveVisit g h s).power = s.power ∧ (leaveVisit g h s).time = s.time ∧
    (leaveVisit g h s).conf = s.conf ∧ (leaveVisit g h s).act = s.act ∧ (leaveVisit g h s).dict = s.dict ∧
    (leaveVisit g h s).store = s.store ∧ (leaveVisit g h s).health = s.health ∧ (leaveVisit g h s).clocks = s.clocks ∧
    (leaveVisit g h s).ref = s.ref ∧ (leaveVisit g h s).cal = s.cal ∧ (leaveVisit g h s).groups = s.groups ∧
    (leaveVisit g h s).map = s.map ∧ (leaveVisit g h s).streams = s.streams ∧ (leaveVisit g h s).frame = s.frame ∧
    (leaveVisit g h s).buf = s.buf ∧ (leaveVisit g h s).link = s.link ∧ (leaveVisit g h s).units = s.units ∧
    (leaveVisit g h s).outs = s.outs ∧ (leaveVisit g h s).aux = s.aux ∧ (leaveVisit g h s).ev = s.ev ∧
    (leaveVisit g h s).ptp = s.ptp ∧ (leaveVisit g h s).modPhase = s.modPhase ∧ (leaveVisit g h s).shift = s.shift ∧
    (leaveVisit g h s).segIdent = s.segIdent ∧ (leaveVisit g h s).fv = s.fv ∧ (leaveVisit g h s).out = s.out := by
  unfold leaveVisit; (repeat' split) <;> simp

@[simp] theorem serveFailed_frame (g p run h : Nat) (s : State) :
    (serveFailed g p run h s).pending = s.pending ∧ (serveFailed g p run h s).power = s.power ∧
    (serveFailed g p run h s).time = s.time ∧ (serveFailed g p run h s).conf = s.conf ∧
    (serveFailed g p run h s).act = s.act ∧ (serveFailed g p run h s).dict = s.dict ∧
    (serveFailed g p run h s).store = s.store ∧ (serveFailed g p run h s).health = s.health ∧
    (serveFailed g p run h s).clocks = s.clocks ∧ (serveFailed g p run h s).ref = s.ref ∧
    (serveFailed g p run h s).cal = s.cal ∧ (serveFailed g p run h s).groups = s.groups ∧
    (serveFailed g p run h s).map = s.map ∧ (serveFailed g p run h s).frame = s.frame ∧
    (serveFailed g p run h s).link = s.link ∧ (serveFailed g p run h s).outs = s.outs ∧
    (serveFailed g p run h s).aux = s.aux ∧ (serveFailed g p run h s).ev = s.ev ∧
    (serveFailed g p run h s).ptp = s.ptp ∧ (serveFailed g p run h s).modPhase = s.modPhase ∧
    (serveFailed g p run h s).shift = s.shift ∧ (serveFailed g p run h s).segIdent = s.segIdent ∧
    (serveFailed g p run h s).fv = s.fv ∧ (serveFailed g p run h s).out = s.out := by
  unfold serveFailed; (repeat' split) <;> simp

@[simp] theorem afterRetire_frame (g : Nat) (s : State) :
    (afterRetire g s).pending = s.pending ∧ (afterRetire g s).power = s.power ∧ (afterRetire g s).time = s.time ∧
    (afterRetire g s).conf = s.conf ∧ (afterRetire g s).act = s.act ∧ (afterRetire g s).dict = s.dict ∧
    (afterRetire g s).clocks = s.clocks ∧ (afterRetire g s).chans = s.chans ∧ (afterRetire g s).ref = s.ref ∧
    (afterRetire g s).cal = s.cal ∧ (afterRetire g s).groups = s.groups ∧ (afterRetire g s).map = s.map ∧
    (afterRetire g s).streams = s.streams ∧ (afterRetire g s).frame = s.frame ∧ (afterRetire g s).buf = s.buf ∧
    (afterRetire g s).link = s.link ∧ (afterRetire g s).units = s.units ∧ (afterRetire g s).outs = s.outs ∧
    (afterRetire g s).aux = s.aux ∧ (afterRetire g s).ev = s.ev ∧ (afterRetire g s).ptp = s.ptp ∧
    (afterRetire g s).modPhase = s.modPhase ∧ (afterRetire g s).shift = s.shift ∧
    (afterRetire g s).segIdent = s.segIdent ∧ (afterRetire g s).fv = s.fv ∧ (afterRetire g s).out = s.out := by
  simp [afterRetire]

@[simp] theorem markRetired_frame (g k : Nat) (s : State) :
    (markRetired g k s).pending = s.pending ∧ (markRetired g k s).power = s.power ∧
    (markRetired g k s).time = s.time ∧ (markRetired g k s).conf = s.conf ∧ (markRetired g k s).act = s.act ∧
    (markRetired g k s).dict = s.dict ∧ (markRetired g k s).store = s.store ∧ (markRetired g k s).health = s.health ∧
    (markRetired g k s).clocks = s.clocks ∧ (markRetired g k s).ref = s.ref ∧ (markRetired g k s).cal = s.cal ∧
    (markRetired g k s).groups = s.groups ∧ (markRetired g k s).map = s.map ∧
    (markRetired g k s).streams = s.streams ∧ (markRetired g k s).frame = s.frame ∧ (markRetired g k s).buf = s.buf ∧
    (markRetired g k s).link = s.link ∧ (markRetired g k s).units = s.units ∧ (markRetired g k s).outs = s.outs ∧
    (markRetired g k s).aux = s.aux ∧ (markRetired g k s).ev = s.ev ∧ (markRetired g k s).ptp = s.ptp ∧
    (markRetired g k s).modPhase = s.modPhase ∧ (markRetired g k s).shift = s.shift ∧
    (markRetired g k s).segIdent = s.segIdent ∧ (markRetired g k s).fv = s.fv ∧ (markRetired g k s).out = s.out := by
  simp [markRetired]

@[simp] theorem retireSlice_frame (g k run : Nat) (s : State) :
    (retireSlice g k run s).pending = s.pending ∧ (retireSlice g k run s).power = s.power ∧
    (retireSlice g k run s).time = s.time ∧ (retireSlice g k run s).conf = s.conf ∧
    (retireSlice g k run s).act = s.act ∧ (retireSlice g k run s).dict = s.dict ∧
    (retireSlice g k run s).clocks = s.clocks ∧ (retireSlice g k run s).ref = s.ref ∧
    (retireSlice g k run s).cal = s.cal ∧ (retireSlice g k run s).groups = s.groups ∧
    (retireSlice g k run s).map = s.map ∧ (retireSlice g k run s).frame = s.frame ∧
    (retireSlice g k run s).link = s.link ∧ (retireSlice g k run s).outs = s.outs ∧
    (retireSlice g k run s).aux = s.aux ∧ (retireSlice g k run s).ev = s.ev ∧ (retireSlice g k run s).ptp = s.ptp ∧
    (retireSlice g k run s).modPhase = s.modPhase ∧ (retireSlice g k run s).shift = s.shift ∧
    (retireSlice g k run s).segIdent = s.segIdent ∧ (retireSlice g k run s).fv = s.fv ∧
    (retireSlice g k run s).out = s.out := by
  simp only [retireSlice]; (repeat' split) <;> simp

@[simp] theorem sampleFailed_frame (g k run : Nat) (s : State) :
    (sampleFailed g k run s).pending = s.pending ∧ (sampleFailed g k run s).power = s.power ∧
    (sampleFailed g k run s).time = s.time ∧ (sampleFailed g k run s).conf = s.conf ∧
    (sampleFailed g k run s).act = s.act ∧ (sampleFailed g k run s).dict = s.dict ∧
    (sampleFailed g k run s).clocks = s.clocks ∧ (sampleFailed g k run s).ref = s.ref ∧
    (sampleFailed g k run s).cal = s.cal ∧ (sampleFailed g k run s).groups = s.groups ∧
    (sampleFailed g k run s).map = s.map ∧ (sampleFailed g k run s).frame = s.frame ∧
    (sampleFailed g k run s).link = s.link ∧ (sampleFailed g k run s).outs = s.outs ∧
    (sampleFailed g k run s).aux = s.aux ∧ (sampleFailed g k run s).ev = s.ev ∧ (sampleFailed g k run s).ptp = s.ptp ∧
    (sampleFailed g k run s).modPhase = s.modPhase ∧ (sampleFailed g k run s).shift = s.shift ∧
    (sampleFailed g k run s).segIdent = s.segIdent ∧ (sampleFailed g k run s).fv = s.fv ∧
    (sampleFailed g k run s).out = s.out := by
  simp [sampleFailed]

@[simp] theorem stuck_frame (g k : Nat) (s : State) :
    (stuck g k s).pending = s.pending ∧ (stuck g k s).conf.cfg = s.conf.cfg ∧
    (stuck g k s).power.vmain = s.power.vmain ∧ (stuck g k s).time.tw = s.time.tw := by
  simp [stuck]

@[simp] theorem saturated_frame (g k : Nat) (s : State) :
    (saturated g k s).pending = s.pending ∧ (saturated g k s).conf.cfg = s.conf.cfg ∧
    (saturated g k s).power.vmain = s.power.vmain ∧ (saturated g k s).time.tw = s.time.tw := by
  simp [saturated]

@[simp] theorem startLadder_frame (g k : Nat) (s : State) :
    (startLadder g k s).pending = s.pending ∧ (startLadder g k s).power = s.power ∧
    (startLadder g k s).time = s.time ∧ (startLadder g k s).conf = s.conf ∧ (startLadder g k s).act = s.act ∧
    (startLadder g k s).dict = s.dict ∧ (startLadder g k s).store = s.store ∧ (startLadder g k s).health = s.health ∧
    (startLadder g k s).clocks = s.clocks ∧ (startLadder g k s).chans = s.chans ∧ (startLadder g k s).ref = s.ref ∧
    (startLadder g k s).cal = s.cal ∧ (startLadder g k s).groups = s.groups ∧ (startLadder g k s).map = s.map ∧
    (startLadder g k s).streams = s.streams ∧ (startLadder g k s).frame = s.frame ∧ (startLadder g k s).buf = s.buf ∧
    (startLadder g k s).link = s.link ∧ (startLadder g k s).units = s.units ∧ (startLadder g k s).outs = s.outs ∧
    (startLadder g k s).aux = s.aux ∧ (startLadder g k s).ev = s.ev ∧ (startLadder g k s).ptp = s.ptp ∧
    (startLadder g k s).modPhase = s.modPhase ∧ (startLadder g k s).shift = s.shift ∧
    (startLadder g k s).segIdent = s.segIdent ∧ (startLadder g k s).fv = s.fv ∧ (startLadder g k s).out = s.out := by
  simp [startLadder]

@[simp] theorem startVisit_frame (g k : Nat) (s : State) :
    (startVisit g k s).pending = s.pending ∧ (startVisit g k s).power = s.power ∧ (startVisit g k s).time = s.time ∧
    (startVisit g k s).conf = s.conf ∧ (startVisit g k s).act = s.act ∧ (startVisit g k s).dict = s.dict ∧
    (startVisit g k s).store = s.store ∧ (startVisit g k s).health = s.health ∧ (startVisit g k s).clocks = s.clocks ∧
    (startVisit g k s).ref = s.ref ∧ (startVisit g k s).cal = s.cal ∧ (startVisit g k s).groups = s.groups ∧
    (startVisit g k s).map = s.map ∧ (startVisit g k s).streams = s.streams ∧ (startVisit g k s).frame = s.frame ∧
    (startVisit g k s).buf = s.buf ∧ (startVisit g k s).link = s.link ∧ (startVisit g k s).units = s.units ∧
    (startVisit g k s).outs = s.outs ∧ (startVisit g k s).aux = s.aux ∧ (startVisit g k s).ev = s.ev ∧
    (startVisit g k s).ptp = s.ptp ∧ (startVisit g k s).modPhase = s.modPhase ∧ (startVisit g k s).shift = s.shift ∧
    (startVisit g k s).segIdent = s.segIdent ∧ (startVisit g k s).fv = s.fv ∧ (startVisit g k s).out = s.out := by
  simp [startVisit]

@[simp] theorem visitStart_frame (g : Nat) (s : State) :
    (visitStart g s).pending = s.pending ∧ (visitStart g s).power = s.power ∧ (visitStart g s).time = s.time ∧
    (visitStart g s).conf = s.conf ∧ (visitStart g s).act = s.act ∧ (visitStart g s).dict = s.dict ∧
    (visitStart g s).store = s.store ∧ (visitStart g s).health = s.health ∧ (visitStart g s).clocks = s.clocks ∧
    (visitStart g s).ref = s.ref ∧ (visitStart g s).cal = s.cal ∧ (visitStart g s).groups = s.groups ∧
    (visitStart g s).map = s.map ∧ (visitStart g s).streams = s.streams ∧ (visitStart g s).frame = s.frame ∧
    (visitStart g s).buf = s.buf ∧ (visitStart g s).link = s.link ∧ (visitStart g s).units = s.units ∧
    (visitStart g s).outs = s.outs ∧ (visitStart g s).aux = s.aux ∧ (visitStart g s).ev = s.ev ∧
    (visitStart g s).ptp = s.ptp ∧ (visitStart g s).modPhase = s.modPhase ∧ (visitStart g s).shift = s.shift ∧
    (visitStart g s).segIdent = s.segIdent ∧ (visitStart g s).fv = s.fv ∧ (visitStart g s).out = s.out := by
  simp only [visitStart]; (repeat' split) <;> simp

@[simp] theorem onVisit_frame (g : Nat) (f : Visit → Visit) (s : State) :
    (onVisit g f s).pending = s.pending ∧ (onVisit g f s).power = s.power ∧ (onVisit g f s).time = s.time ∧
    (onVisit g f s).conf = s.conf ∧ (onVisit g f s).act = s.act ∧ (onVisit g f s).dict = s.dict ∧
    (onVisit g f s).store = s.store ∧ (onVisit g f s).health = s.health ∧ (onVisit g f s).clocks = s.clocks ∧
    (onVisit g f s).chans = s.chans ∧ (onVisit g f s).ref = s.ref ∧ (onVisit g f s).cal = s.cal ∧
    (onVisit g f s).groups = s.groups ∧ (onVisit g f s).map = s.map ∧ (onVisit g f s).streams = s.streams ∧
    (onVisit g f s).frame = s.frame ∧ (onVisit g f s).buf = s.buf ∧ (onVisit g f s).link = s.link ∧
    (onVisit g f s).units = s.units ∧ (onVisit g f s).outs = s.outs ∧ (onVisit g f s).aux = s.aux ∧
    (onVisit g f s).ev = s.ev ∧ (onVisit g f s).ptp = s.ptp ∧ (onVisit g f s).modPhase = s.modPhase ∧
    (onVisit g f s).shift = s.shift ∧ (onVisit g f s).segIdent = s.segIdent ∧ (onVisit g f s).fv = s.fv ∧
    (onVisit g f s).out = s.out := by
  simp [onVisit]

@[simp] theorem forwardFit_frame (g : Nat) (f : FitObs) (s : State) :
    (forwardFit g f s).pending = s.pending ∧ (forwardFit g f s).conf.cfg = s.conf.cfg ∧
    (forwardFit g f s).power.vmain = s.power.vmain ∧ (forwardFit g f s).time.tw = s.time.tw := by
  unfold forwardFit; (repeat' split) <;> simp

@[simp] theorem handover_frame (g : Nat) (s : State) :
    (handover g s).pending = s.pending ∧ (handover g s).conf.cfg = s.conf.cfg ∧
    (handover g s).power.vmain = s.power.vmain ∧ (handover g s).time.tw = s.time.tw := by
  unfold handover; (repeat' split) <;> simp

@[simp] theorem visitLadder_frame (g k : Nat) (v : Visit) (o : LadderObs) (s : State) :
    (visitLadder g k v o s).pending = s.pending ∧ (visitLadder g k v o s).conf.cfg = s.conf.cfg ∧
    (visitLadder g k v o s).power.vmain = s.power.vmain ∧ (visitLadder g k v o s).time.tw = s.time.tw := by
  simp [visitLadder]

@[simp] theorem ladderEnd_frame (g k : Nat) (o : LadderObs) (s : State) :
    (ladderEnd g k o s).pending = s.pending ∧ (ladderEnd g k o s).conf.cfg = s.conf.cfg ∧
    (ladderEnd g k o s).power.vmain = s.power.vmain ∧ (ladderEnd g k o s).time.tw = s.time.tw := by
  simp only [ladderEnd]; (repeat' split) <;> simp

@[simp] theorem roleChange_frame (g : Nat) (s : State) :
    (roleChange g s).pending = s.pending ∧ (roleChange g s).power = s.power ∧ (roleChange g s).time = s.time ∧
    (roleChange g s).conf = s.conf ∧ (roleChange g s).act = s.act ∧ (roleChange g s).dict = s.dict ∧
    (roleChange g s).health = s.health ∧ (roleChange g s).clocks = s.clocks ∧ (roleChange g s).chans = s.chans ∧
    (roleChange g s).ref = s.ref ∧ (roleChange g s).cal = s.cal ∧ (roleChange g s).groups = s.groups ∧
    (roleChange g s).map = s.map ∧ (roleChange g s).streams = s.streams ∧ (roleChange g s).frame = s.frame ∧
    (roleChange g s).buf = s.buf ∧ (roleChange g s).link = s.link ∧ (roleChange g s).units = s.units ∧
    (roleChange g s).outs = s.outs ∧ (roleChange g s).aux = s.aux ∧ (roleChange g s).ev = s.ev ∧
    (roleChange g s).ptp = s.ptp ∧ (roleChange g s).modPhase = s.modPhase ∧ (roleChange g s).shift = s.shift ∧
    (roleChange g s).segIdent = s.segIdent ∧ (roleChange g s).fv = s.fv ∧ (roleChange g s).out = s.out := by
  simp [roleChange]

@[simp] theorem reconnect_frame (g : Nat) (s : State) :
    (reconnect g s).pending = s.pending ∧ (reconnect g s).conf.cfg = s.conf.cfg ∧
    (reconnect g s).power.vmain = s.power.vmain ∧ (reconnect g s).time.tw = s.time.tw := by
  unfold reconnect; (repeat' split) <;> simp

@[simp] theorem loadTrim_frame (g w kind : Nat) (a b : Int) (s : State) :
    (loadTrim g w kind a b s).pending = s.pending ∧ (loadTrim g w kind a b s).power = s.power ∧
    (loadTrim g w kind a b s).time = s.time ∧ (loadTrim g w kind a b s).conf = s.conf ∧
    (loadTrim g w kind a b s).act = s.act ∧ (loadTrim g w kind a b s).dict = s.dict ∧
    (loadTrim g w kind a b s).store = s.store ∧ (loadTrim g w kind a b s).health = s.health ∧
    (loadTrim g w kind a b s).clocks = s.clocks ∧ (loadTrim g w kind a b s).chans = s.chans ∧
    (loadTrim g w kind a b s).ref = s.ref ∧ (loadTrim g w kind a b s).cal = s.cal ∧
    (loadTrim g w kind a b s).groups = s.groups ∧ (loadTrim g w kind a b s).map = s.map ∧
    (loadTrim g w kind a b s).streams = s.streams ∧ (loadTrim g w kind a b s).frame = s.frame ∧
    (loadTrim g w kind a b s).buf = s.buf ∧ (loadTrim g w kind a b s).link = s.link ∧
    (loadTrim g w kind a b s).units = s.units ∧ (loadTrim g w kind a b s).outs = s.outs ∧
    (loadTrim g w kind a b s).aux = s.aux ∧ (loadTrim g w kind a b s).ev = s.ev ∧
    (loadTrim g w kind a b s).ptp = s.ptp ∧ (loadTrim g w kind a b s).modPhase = s.modPhase ∧
    (loadTrim g w kind a b s).shift = s.shift ∧ (loadTrim g w kind a b s).segIdent = s.segIdent ∧
    (loadTrim g w kind a b s).fv = s.fv ∧ (loadTrim g w kind a b s).out = s.out := by
  simp [loadTrim]

@[simp] theorem reverseFit_frame (g : Nat) (f : FitObs) (s : State) :
    (reverseFit g f s).pending = s.pending ∧ (reverseFit g f s).conf.cfg = s.conf.cfg ∧
    (reverseFit g f s).power.vmain = s.power.vmain ∧ (reverseFit g f s).time.tw = s.time.tw := by
  unfold reverseFit; (repeat' split) <;> simp

@[simp] theorem handBack_frame (g : Nat) (s : State) :
    (handBack g s).pending = s.pending ∧ (handBack g s).conf.cfg = s.conf.cfg ∧
    (handBack g s).power.vmain = s.power.vmain ∧ (handBack g s).time.tw = s.time.tw := by
  unfold handBack; (repeat' split) <;> simp

@[simp] theorem pairUpdate_frame (g : Nat) (s : State) :
    (pairUpdate g s).pending = s.pending ∧ (pairUpdate g s).conf.cfg = s.conf.cfg ∧
    (pairUpdate g s).power.vmain = s.power.vmain ∧ (pairUpdate g s).time.tw = s.time.tw := by
  unfold pairUpdate; (repeat' split) <;> simp

@[simp] theorem stopAll_frame (ens : Nat) (s : State) :
    (stopAll ens s).pending = s.pending ∧ (stopAll ens s).power = s.power ∧ (stopAll ens s).time = s.time ∧
    (stopAll ens s).conf = s.conf ∧ (stopAll ens s).act = s.act ∧ (stopAll ens s).dict = s.dict ∧
    (stopAll ens s).store = s.store ∧ (stopAll ens s).health = s.health ∧ (stopAll ens s).clocks = s.clocks ∧
    (stopAll ens s).chans = s.chans ∧ (stopAll ens s).dies = s.dies ∧ (stopAll ens s).ref = s.ref ∧
    (stopAll ens s).cal = s.cal ∧ (stopAll ens s).groups = s.groups ∧ (stopAll ens s).map = s.map ∧
    (stopAll ens s).frame = s.frame ∧ (stopAll ens s).link = s.link ∧ (stopAll ens s).units = s.units ∧
    (stopAll ens s).outs = s.outs ∧ (stopAll ens s).aux = s.aux ∧ (stopAll ens s).ev = s.ev ∧
    (stopAll ens s).ptp = s.ptp ∧ (stopAll ens s).modPhase = s.modPhase ∧ (stopAll ens s).shift = s.shift ∧
    (stopAll ens s).segIdent = s.segIdent ∧ (stopAll ens s).fv = s.fv ∧ (stopAll ens s).out = s.out := by
  simp [stopAll]

@[simp] theorem hoistReturn_frame (s : State) :
    (hoistReturn s).pending = s.pending ∧ (hoistReturn s).power = s.power ∧ (hoistReturn s).time = s.time ∧
    (hoistReturn s).act = s.act ∧ (hoistReturn s).dict = s.dict ∧ (hoistReturn s).store = s.store ∧
    (hoistReturn s).health = s.health ∧ (hoistReturn s).clocks = s.clocks ∧ (hoistReturn s).chans = s.chans ∧
    (hoistReturn s).dies = s.dies ∧ (hoistReturn s).ref = s.ref ∧ (hoistReturn s).cal = s.cal ∧
    (hoistReturn s).groups = s.groups ∧ (hoistReturn s).map = s.map ∧ (hoistReturn s).streams = s.streams ∧
    (hoistReturn s).frame = s.frame ∧ (hoistReturn s).buf = s.buf ∧ (hoistReturn s).link = s.link ∧
    (hoistReturn s).units = s.units ∧ (hoistReturn s).outs = s.outs ∧ (hoistReturn s).aux = s.aux ∧
    (hoistReturn s).ev = s.ev ∧ (hoistReturn s).ptp = s.ptp ∧ (hoistReturn s).modPhase = s.modPhase ∧
    (hoistReturn s).shift = s.shift ∧ (hoistReturn s).segIdent = s.segIdent ∧ (hoistReturn s).fv = s.fv ∧
    (hoistReturn s).out = s.out ∧ (hoistReturn s).conf.cfg = s.conf.cfg := by
  simp [hoistReturn]

@[simp] theorem cancelAll_frame (s : State) :
    (cancelAll s).pending = s.pending ∧ (cancelAll s).power = s.power ∧ (cancelAll s).time = s.time ∧
    (cancelAll s).dict = s.dict ∧ (cancelAll s).store = s.store ∧ (cancelAll s).health = s.health ∧
    (cancelAll s).clocks = s.clocks ∧ (cancelAll s).chans = s.chans ∧ (cancelAll s).dies = s.dies ∧
    (cancelAll s).ref = s.ref ∧ (cancelAll s).cal = s.cal ∧ (cancelAll s).groups = s.groups ∧
    (cancelAll s).map = s.map ∧ (cancelAll s).streams = s.streams ∧ (cancelAll s).frame = s.frame ∧
    (cancelAll s).link = s.link ∧ (cancelAll s).units = s.units ∧ (cancelAll s).outs = s.outs ∧
    (cancelAll s).aux = s.aux ∧ (cancelAll s).ev = s.ev ∧ (cancelAll s).ptp = s.ptp ∧
    (cancelAll s).modPhase = s.modPhase ∧ (cancelAll s).shift = s.shift ∧ (cancelAll s).segIdent = s.segIdent ∧
    (cancelAll s).fv = s.fv ∧ (cancelAll s).out = s.out ∧ (cancelAll s).conf.cfg = s.conf.cfg := by
  simp [cancelAll]

@[simp] theorem calStop_frame (s : State) :
    (calStop s).pending = s.pending ∧ (calStop s).power = s.power ∧ (calStop s).time = s.time ∧
    (calStop s).conf = s.conf ∧ (calStop s).act = s.act ∧ (calStop s).dict = s.dict ∧ (calStop s).store = s.store ∧
    (calStop s).health = s.health ∧ (calStop s).clocks = s.clocks ∧ (calStop s).ref = s.ref ∧
    (calStop s).groups = s.groups ∧ (calStop s).map = s.map ∧ (calStop s).streams = s.streams ∧
    (calStop s).frame = s.frame ∧ (calStop s).buf = s.buf ∧ (calStop s).link = s.link ∧ (calStop s).units = s.units ∧
    (calStop s).outs = s.outs ∧ (calStop s).aux = s.aux ∧ (calStop s).ev = s.ev ∧ (calStop s).ptp = s.ptp ∧
    (calStop s).modPhase = s.modPhase ∧ (calStop s).shift = s.shift ∧ (calStop s).segIdent = s.segIdent ∧
    (calStop s).fv = s.fv ∧ (calStop s).out = s.out := by
  simp [calStop]

@[simp] theorem toSafe_frame (s : State) :
    (toSafe s).pending = s.pending ∧ (toSafe s).time = s.time ∧ (toSafe s).dict = s.dict ∧
    (toSafe s).store = s.store ∧ (toSafe s).clocks = s.clocks ∧ (toSafe s).ref = s.ref ∧ (toSafe s).map = s.map ∧
    (toSafe s).frame = s.frame ∧ (toSafe s).aux = s.aux ∧ (toSafe s).ptp = s.ptp ∧ (toSafe s).modPhase = s.modPhase ∧
    (toSafe s).shift = s.shift ∧ (toSafe s).segIdent = s.segIdent ∧ (toSafe s).out = s.out ∧
    (toSafe s).conf.cfg = s.conf.cfg ∧ (toSafe s).power.vmain = s.power.vmain := by
  simp [toSafe, Power.toSafe]

@[simp] theorem enterSafe_frame (s : State) :
    (enterSafe s).pending = s.pending ∧ (enterSafe s).time = s.time ∧ (enterSafe s).dict = s.dict ∧
    (enterSafe s).store = s.store ∧ (enterSafe s).clocks = s.clocks ∧ (enterSafe s).ref = s.ref ∧
    (enterSafe s).map = s.map ∧ (enterSafe s).frame = s.frame ∧ (enterSafe s).aux = s.aux ∧
    (enterSafe s).ptp = s.ptp ∧ (enterSafe s).modPhase = s.modPhase ∧ (enterSafe s).shift = s.shift ∧
    (enterSafe s).segIdent = s.segIdent ∧ (enterSafe s).out = s.out ∧ (enterSafe s).conf.cfg = s.conf.cfg ∧
    (enterSafe s).power.vmain = s.power.vmain := by
  simp [enterSafe]

@[simp] theorem hoistJudge_frame (k : BitVec 128) (F w : TW) (s : State) :
    (hoistJudge k F w s).2.pending = s.pending ∧ (hoistJudge k F w s).2.power = s.power ∧
    (hoistJudge k F w s).2.time = s.time ∧ (hoistJudge k F w s).2.act = s.act ∧ (hoistJudge k F w s).2.dict = s.dict ∧
    (hoistJudge k F w s).2.store = s.store ∧ (hoistJudge k F w s).2.clocks = s.clocks ∧
    (hoistJudge k F w s).2.chans = s.chans ∧ (hoistJudge k F w s).2.dies = s.dies ∧
    (hoistJudge k F w s).2.ref = s.ref ∧ (hoistJudge k F w s).2.cal = s.cal ∧
    (hoistJudge k F w s).2.groups = s.groups ∧ (hoistJudge k F w s).2.map = s.map ∧
    (hoistJudge k F w s).2.streams = s.streams ∧ (hoistJudge k F w s).2.frame = s.frame ∧
    (hoistJudge k F w s).2.buf = s.buf ∧ (hoistJudge k F w s).2.link = s.link ∧
    (hoistJudge k F w s).2.units = s.units ∧ (hoistJudge k F w s).2.outs = s.outs ∧
    (hoistJudge k F w s).2.aux = s.aux ∧ (hoistJudge k F w s).2.ev = s.ev ∧ (hoistJudge k F w s).2.ptp = s.ptp ∧
    (hoistJudge k F w s).2.modPhase = s.modPhase ∧ (hoistJudge k F w s).2.shift = s.shift ∧
    (hoistJudge k F w s).2.segIdent = s.segIdent ∧ (hoistJudge k F w s).2.fv = s.fv ∧
    (hoistJudge k F w s).2.out = s.out ∧ (hoistJudge k F w s).2.conf.cfg = s.conf.cfg := by
  unfold hoistJudge; (repeat' split) <;> simp

@[simp] theorem onAccept_frame (op : Op) (k : BitVec 128) (r : Role) (s : State) :
    (onAccept op k r s).pending = s.pending ∧ (onAccept op k r s).power = s.power ∧
    (onAccept op k r s).time = s.time ∧ (onAccept op k r s).act = s.act ∧ (onAccept op k r s).dict = s.dict ∧
    (onAccept op k r s).store = s.store ∧ (onAccept op k r s).health = s.health ∧
    (onAccept op k r s).clocks = s.clocks ∧ (onAccept op k r s).dies = s.dies ∧ (onAccept op k r s).ref = s.ref ∧
    (onAccept op k r s).cal = s.cal ∧ (onAccept op k r s).groups = s.groups ∧ (onAccept op k r s).map = s.map ∧
    (onAccept op k r s).streams = s.streams ∧ (onAccept op k r s).frame = s.frame ∧ (onAccept op k r s).buf = s.buf ∧
    (onAccept op k r s).link = s.link ∧ (onAccept op k r s).units = s.units ∧ (onAccept op k r s).outs = s.outs ∧
    (onAccept op k r s).aux = s.aux ∧ (onAccept op k r s).ev = s.ev ∧ (onAccept op k r s).ptp = s.ptp ∧
    (onAccept op k r s).modPhase = s.modPhase ∧ (onAccept op k r s).shift = s.shift ∧
    (onAccept op k r s).segIdent = s.segIdent ∧ (onAccept op k r s).fv = s.fv ∧ (onAccept op k r s).out = s.out ∧
    (onAccept op k r s).conf.cfg = s.conf.cfg := by
  cases op <;> exact ⟨rfl, rfl, rfl, rfl, rfl, rfl, rfl, rfl, rfl, rfl, rfl, rfl, rfl, rfl, rfl, rfl, rfl, rfl, rfl, rfl, rfl, rfl, rfl, rfl, rfl, rfl, rfl, rfl⟩

@[simp] theorem takeSlot_frame (slot : Nat) (r : Role) (op : Op) (F : TW) (d : BitVec 256) (s : State) :
    (takeSlot slot r op F d s).st.pending = s.pending ∧ (takeSlot slot r op F d s).st.power = s.power ∧
    (takeSlot slot r op F d s).st.time = s.time ∧ (takeSlot slot r op F d s).st.dict = s.dict ∧
    (takeSlot slot r op F d s).st.store = s.store ∧ (takeSlot slot r op F d s).st.health = s.health ∧
    (takeSlot slot r op F d s).st.clocks = s.clocks ∧ (takeSlot slot r op F d s).st.dies = s.dies ∧
    (takeSlot slot r op F d s).st.ref = s.ref ∧ (takeSlot slot r op F d s).st.cal = s.cal ∧
    (takeSlot slot r op F d s).st.groups = s.groups ∧ (takeSlot slot r op F d s).st.map = s.map ∧
    (takeSlot slot r op F d s).st.streams = s.streams ∧ (takeSlot slot r op F d s).st.frame = s.frame ∧
    (takeSlot slot r op F d s).st.buf = s.buf ∧ (takeSlot slot r op F d s).st.link = s.link ∧
    (takeSlot slot r op F d s).st.units = s.units ∧ (takeSlot slot r op F d s).st.outs = s.outs ∧
    (takeSlot slot r op F d s).st.aux = s.aux ∧ (takeSlot slot r op F d s).st.ev = s.ev ∧
    (takeSlot slot r op F d s).st.ptp = s.ptp ∧ (takeSlot slot r op F d s).st.modPhase = s.modPhase ∧
    (takeSlot slot r op F d s).st.shift = s.shift ∧ (takeSlot slot r op F d s).st.segIdent = s.segIdent ∧
    (takeSlot slot r op F d s).st.fv = s.fv ∧ (takeSlot slot r op F d s).st.out = s.out ∧
    (takeSlot slot r op F d s).st.conf.cfg = s.conf.cfg := by
  simp [takeSlot]

@[simp] theorem taSchedule_frame (r : Role) (op : Op) (F : TW) (d : BitVec 256) (s : State) :
    (taSchedule r op F d s).st.pending = s.pending ∧ (taSchedule r op F d s).st.power = s.power ∧
    (taSchedule r op F d s).st.time = s.time ∧ (taSchedule r op F d s).st.dict = s.dict ∧
    (taSchedule r op F d s).st.store = s.store ∧ (taSchedule r op F d s).st.clocks = s.clocks ∧
    (taSchedule r op F d s).st.dies = s.dies ∧ (taSchedule r op F d s).st.ref = s.ref ∧
    (taSchedule r op F d s).st.cal = s.cal ∧ (taSchedule r op F d s).st.groups = s.groups ∧
    (taSchedule r op F d s).st.map = s.map ∧ (taSchedule r op F d s).st.streams = s.streams ∧
    (taSchedule r op F d s).st.frame = s.frame ∧ (taSchedule r op F d s).st.buf = s.buf ∧
    (taSchedule r op F d s).st.link = s.link ∧ (taSchedule r op F d s).st.units = s.units ∧
    (taSchedule r op F d s).st.outs = s.outs ∧ (taSchedule r op F d s).st.aux = s.aux ∧
    (taSchedule r op F d s).st.ev = s.ev ∧ (taSchedule r op F d s).st.ptp = s.ptp ∧
    (taSchedule r op F d s).st.modPhase = s.modPhase ∧ (taSchedule r op F d s).st.shift = s.shift ∧
    (taSchedule r op F d s).st.segIdent = s.segIdent ∧ (taSchedule r op F d s).st.fv = s.fv ∧
    (taSchedule r op F d s).st.out = s.out ∧ (taSchedule r op F d s).st.conf.cfg = s.conf.cfg := by
  simp only [taSchedule]; (repeat' split) <;> simp

@[simp] theorem taSubmit_frame (r : Role) (d : BitVec 256) (s : State) :
    (taSubmit r d s).st.pending = s.pending ∧ (taSubmit r d s).st.power = s.power ∧
    (taSubmit r d s).st.time = s.time ∧ (taSubmit r d s).st.dict = s.dict ∧ (taSubmit r d s).st.store = s.store ∧
    (taSubmit r d s).st.clocks = s.clocks ∧ (taSubmit r d s).st.dies = s.dies ∧ (taSubmit r d s).st.ref = s.ref ∧
    (taSubmit r d s).st.cal = s.cal ∧ (taSubmit r d s).st.groups = s.groups ∧ (taSubmit r d s).st.map = s.map ∧
    (taSubmit r d s).st.streams = s.streams ∧ (taSubmit r d s).st.frame = s.frame ∧ (taSubmit r d s).st.buf = s.buf ∧
    (taSubmit r d s).st.link = s.link ∧ (taSubmit r d s).st.units = s.units ∧ (taSubmit r d s).st.outs = s.outs ∧
    (taSubmit r d s).st.aux = s.aux ∧ (taSubmit r d s).st.ev = s.ev ∧ (taSubmit r d s).st.ptp = s.ptp ∧
    (taSubmit r d s).st.modPhase = s.modPhase ∧ (taSubmit r d s).st.shift = s.shift ∧
    (taSubmit r d s).st.segIdent = s.segIdent ∧ (taSubmit r d s).st.fv = s.fv ∧ (taSubmit r d s).st.out = s.out ∧
    (taSubmit r d s).st.conf.cfg = s.conf.cfg := by
  simp only [taSubmit]; (repeat' split) <;> simp

@[simp] theorem taCancel_frame (r : Role) (h : BitVec 16) (s : State) :
    (taCancel r h s).st.pending = s.pending ∧ (taCancel r h s).st.power = s.power ∧
    (taCancel r h s).st.time = s.time ∧ (taCancel r h s).st.dict = s.dict ∧ (taCancel r h s).st.store = s.store ∧
    (taCancel r h s).st.health = s.health ∧ (taCancel r h s).st.clocks = s.clocks ∧
    (taCancel r h s).st.chans = s.chans ∧ (taCancel r h s).st.dies = s.dies ∧ (taCancel r h s).st.ref = s.ref ∧
    (taCancel r h s).st.cal = s.cal ∧ (taCancel r h s).st.groups = s.groups ∧ (taCancel r h s).st.map = s.map ∧
    (taCancel r h s).st.streams = s.streams ∧ (taCancel r h s).st.frame = s.frame ∧
    (taCancel r h s).st.link = s.link ∧ (taCancel r h s).st.units = s.units ∧ (taCancel r h s).st.outs = s.outs ∧
    (taCancel r h s).st.aux = s.aux ∧ (taCancel r h s).st.ev = s.ev ∧ (taCancel r h s).st.ptp = s.ptp ∧
    (taCancel r h s).st.modPhase = s.modPhase ∧ (taCancel r h s).st.shift = s.shift ∧
    (taCancel r h s).st.segIdent = s.segIdent ∧ (taCancel r h s).st.fv = s.fv ∧ (taCancel r h s).st.out = s.out ∧
    (taCancel r h s).st.conf.cfg = s.conf.cfg := by
  simp only [taCancel]; (repeat' split) <;> simp

@[simp] theorem streamStartWrite_frame (r : Role) (m : BitVec 16) (s : State) :
    (streamStartWrite r m s).st.pending = s.pending ∧ (streamStartWrite r m s).st.power = s.power ∧
    (streamStartWrite r m s).st.time = s.time ∧ (streamStartWrite r m s).st.conf = s.conf ∧
    (streamStartWrite r m s).st.dict = s.dict ∧ (streamStartWrite r m s).st.store = s.store ∧
    (streamStartWrite r m s).st.health = s.health ∧ (streamStartWrite r m s).st.clocks = s.clocks ∧
    (streamStartWrite r m s).st.chans = s.chans ∧ (streamStartWrite r m s).st.dies = s.dies ∧
    (streamStartWrite r m s).st.ref = s.ref ∧ (streamStartWrite r m s).st.cal = s.cal ∧
    (streamStartWrite r m s).st.groups = s.groups ∧ (streamStartWrite r m s).st.map = s.map ∧
    (streamStartWrite r m s).st.streams = s.streams ∧ (streamStartWrite r m s).st.frame = s.frame ∧
    (streamStartWrite r m s).st.buf = s.buf ∧ (streamStartWrite r m s).st.link = s.link ∧
    (streamStartWrite r m s).st.units = s.units ∧ (streamStartWrite r m s).st.outs = s.outs ∧
    (streamStartWrite r m s).st.aux = s.aux ∧ (streamStartWrite r m s).st.ev = s.ev ∧
    (streamStartWrite r m s).st.ptp = s.ptp ∧ (streamStartWrite r m s).st.modPhase = s.modPhase ∧
    (streamStartWrite r m s).st.shift = s.shift ∧ (streamStartWrite r m s).st.segIdent = s.segIdent ∧
    (streamStartWrite r m s).st.fv = s.fv ∧ (streamStartWrite r m s).st.out = s.out := by
  unfold streamStartWrite; (repeat' split) <;> simp

@[simp] theorem streamStopWrite_frame (r : Role) (m : BitVec 16) (s : State) :
    (streamStopWrite r m s).st.pending = s.pending ∧ (streamStopWrite r m s).st.power = s.power ∧
    (streamStopWrite r m s).st.time = s.time ∧ (streamStopWrite r m s).st.conf = s.conf ∧
    (streamStopWrite r m s).st.dict = s.dict ∧ (streamStopWrite r m s).st.store = s.store ∧
    (streamStopWrite r m s).st.health = s.health ∧ (streamStopWrite r m s).st.clocks = s.clocks ∧
    (streamStopWrite r m s).st.chans = s.chans ∧ (streamStopWrite r m s).st.dies = s.dies ∧
    (streamStopWrite r m s).st.ref = s.ref ∧ (streamStopWrite r m s).st.cal = s.cal ∧
    (streamStopWrite r m s).st.groups = s.groups ∧ (streamStopWrite r m s).st.map = s.map ∧
    (streamStopWrite r m s).st.streams = s.streams ∧ (streamStopWrite r m s).st.frame = s.frame ∧
    (streamStopWrite r m s).st.buf = s.buf ∧ (streamStopWrite r m s).st.link = s.link ∧
    (streamStopWrite r m s).st.units = s.units ∧ (streamStopWrite r m s).st.outs = s.outs ∧
    (streamStopWrite r m s).st.aux = s.aux ∧ (streamStopWrite r m s).st.ev = s.ev ∧
    (streamStopWrite r m s).st.ptp = s.ptp ∧ (streamStopWrite r m s).st.modPhase = s.modPhase ∧
    (streamStopWrite r m s).st.shift = s.shift ∧ (streamStopWrite r m s).st.segIdent = s.segIdent ∧
    (streamStopWrite r m s).st.fv = s.fv ∧ (streamStopWrite r m s).st.out = s.out := by
  unfold streamStopWrite gate; dsimp only; (repeat' split) <;> first | rfl | simp

@[simp] theorem trgArmWrite_frame (r : Role) (v : BitVec 16) (s : State) :
    (trgArmWrite r v s).st.pending = s.pending ∧ (trgArmWrite r v s).st.power = s.power ∧
    (trgArmWrite r v s).st.time = s.time ∧ (trgArmWrite r v s).st.conf = s.conf ∧
    (trgArmWrite r v s).st.dict = s.dict ∧ (trgArmWrite r v s).st.store = s.store ∧
    (trgArmWrite r v s).st.health = s.health ∧ (trgArmWrite r v s).st.clocks = s.clocks ∧
    (trgArmWrite r v s).st.chans = s.chans ∧ (trgArmWrite r v s).st.dies = s.dies ∧
    (trgArmWrite r v s).st.ref = s.ref ∧ (trgArmWrite r v s).st.cal = s.cal ∧
    (trgArmWrite r v s).st.groups = s.groups ∧ (trgArmWrite r v s).st.map = s.map ∧
    (trgArmWrite r v s).st.streams = s.streams ∧ (trgArmWrite r v s).st.frame = s.frame ∧
    (trgArmWrite r v s).st.buf = s.buf ∧ (trgArmWrite r v s).st.link = s.link ∧
    (trgArmWrite r v s).st.units = s.units ∧ (trgArmWrite r v s).st.outs = s.outs ∧
    (trgArmWrite r v s).st.aux = s.aux ∧ (trgArmWrite r v s).st.ev = s.ev ∧ (trgArmWrite r v s).st.ptp = s.ptp ∧
    (trgArmWrite r v s).st.modPhase = s.modPhase ∧ (trgArmWrite r v s).st.shift = s.shift ∧
    (trgArmWrite r v s).st.segIdent = s.segIdent ∧ (trgArmWrite r v s).st.fv = s.fv ∧
    (trgArmWrite r v s).st.out = s.out := by
  unfold trgArmWrite gate; dsimp only; (repeat' split) <;> first | rfl | simp

@[simp] theorem missClear_frame (u : Nat) (s : State) :
    (missClear u s).pending = s.pending ∧ (missClear u s).power = s.power ∧ (missClear u s).time = s.time ∧
    (missClear u s).conf = s.conf ∧ (missClear u s).act = s.act ∧ (missClear u s).dict = s.dict ∧
    (missClear u s).store = s.store ∧ (missClear u s).health = s.health ∧ (missClear u s).clocks = s.clocks ∧
    (missClear u s).chans = s.chans ∧ (missClear u s).dies = s.dies ∧ (missClear u s).ref = s.ref ∧
    (missClear u s).cal = s.cal ∧ (missClear u s).groups = s.groups ∧ (missClear u s).map = s.map ∧
    (missClear u s).streams = s.streams ∧ (missClear u s).frame = s.frame ∧ (missClear u s).buf = s.buf ∧
    (missClear u s).link = s.link ∧ (missClear u s).outs = s.outs ∧ (missClear u s).aux = s.aux ∧
    (missClear u s).ev = s.ev ∧ (missClear u s).ptp = s.ptp ∧ (missClear u s).modPhase = s.modPhase ∧
    (missClear u s).shift = s.shift ∧ (missClear u s).segIdent = s.segIdent ∧ (missClear u s).fv = s.fv ∧
    (missClear u s).out = s.out := by
  simp [missClear]

@[simp] theorem missWrite_frame (r : Role) (u : Nat) (v : Nat) (s : State) :
    (missWrite r u v s).st.pending = s.pending ∧ (missWrite r u v s).st.power = s.power ∧
    (missWrite r u v s).st.time = s.time ∧ (missWrite r u v s).st.conf = s.conf ∧ (missWrite r u v s).st.act = s.act ∧
    (missWrite r u v s).st.dict = s.dict ∧ (missWrite r u v s).st.store = s.store ∧
    (missWrite r u v s).st.health = s.health ∧ (missWrite r u v s).st.clocks = s.clocks ∧
    (missWrite r u v s).st.chans = s.chans ∧ (missWrite r u v s).st.dies = s.dies ∧
    (missWrite r u v s).st.ref = s.ref ∧ (missWrite r u v s).st.cal = s.cal ∧
    (missWrite r u v s).st.groups = s.groups ∧ (missWrite r u v s).st.map = s.map ∧
    (missWrite r u v s).st.streams = s.streams ∧ (missWrite r u v s).st.frame = s.frame ∧
    (missWrite r u v s).st.buf = s.buf ∧ (missWrite r u v s).st.link = s.link ∧ (missWrite r u v s).st.outs = s.outs ∧
    (missWrite r u v s).st.aux = s.aux ∧ (missWrite r u v s).st.ev = s.ev ∧ (missWrite r u v s).st.ptp = s.ptp ∧
    (missWrite r u v s).st.modPhase = s.modPhase ∧ (missWrite r u v s).st.shift = s.shift ∧
    (missWrite r u v s).st.segIdent = s.segIdent ∧ (missWrite r u v s).st.fv = s.fv ∧
    (missWrite r u v s).st.out = s.out := by
  unfold missWrite gate; dsimp only; (repeat' split) <;> first | rfl | simp

@[simp] theorem hoistWrite_frame (r : Role) (k : BitVec 128) (s : State) :
    (hoistWrite r k s).st.pending = s.pending ∧ (hoistWrite r k s).st.power = s.power ∧
    (hoistWrite r k s).st.time = s.time ∧ (hoistWrite r k s).st.dict = s.dict ∧
    (hoistWrite r k s).st.store = s.store ∧ (hoistWrite r k s).st.clocks = s.clocks ∧
    (hoistWrite r k s).st.chans = s.chans ∧ (hoistWrite r k s).st.dies = s.dies ∧ (hoistWrite r k s).st.ref = s.ref ∧
    (hoistWrite r k s).st.cal = s.cal ∧ (hoistWrite r k s).st.groups = s.groups ∧ (hoistWrite r k s).st.map = s.map ∧
    (hoistWrite r k s).st.streams = s.streams ∧ (hoistWrite r k s).st.frame = s.frame ∧
    (hoistWrite r k s).st.buf = s.buf ∧ (hoistWrite r k s).st.link = s.link ∧ (hoistWrite r k s).st.units = s.units ∧
    (hoistWrite r k s).st.outs = s.outs ∧ (hoistWrite r k s).st.aux = s.aux ∧ (hoistWrite r k s).st.ev = s.ev ∧
    (hoistWrite r k s).st.ptp = s.ptp ∧ (hoistWrite r k s).st.modPhase = s.modPhase ∧
    (hoistWrite r k s).st.shift = s.shift ∧ (hoistWrite r k s).st.segIdent = s.segIdent ∧
    (hoistWrite r k s).st.fv = s.fv ∧ (hoistWrite r k s).st.out = s.out ∧ (hoistWrite r k s).st.conf.cfg = s.conf.cfg := by
  unfold hoistWrite gate; dsimp only; (repeat' split) <;> first | rfl | simp

@[simp] theorem discardWrite_frame (r : Role) (v : BitVec 32) (s : State) :
    (discardWrite r v s).st.pending = s.pending ∧ (discardWrite r v s).st.power = s.power ∧
    (discardWrite r v s).st.time = s.time ∧ (discardWrite r v s).st.act = s.act ∧
    (discardWrite r v s).st.dict = s.dict ∧ (discardWrite r v s).st.store = s.store ∧
    (discardWrite r v s).st.health = s.health ∧ (discardWrite r v s).st.clocks = s.clocks ∧
    (discardWrite r v s).st.chans = s.chans ∧ (discardWrite r v s).st.dies = s.dies ∧
    (discardWrite r v s).st.ref = s.ref ∧ (discardWrite r v s).st.cal = s.cal ∧
    (discardWrite r v s).st.groups = s.groups ∧ (discardWrite r v s).st.map = s.map ∧
    (discardWrite r v s).st.streams = s.streams ∧ (discardWrite r v s).st.frame = s.frame ∧
    (discardWrite r v s).st.buf = s.buf ∧ (discardWrite r v s).st.link = s.link ∧
    (discardWrite r v s).st.units = s.units ∧ (discardWrite r v s).st.outs = s.outs ∧
    (discardWrite r v s).st.aux = s.aux ∧ (discardWrite r v s).st.ev = s.ev ∧ (discardWrite r v s).st.ptp = s.ptp ∧
    (discardWrite r v s).st.modPhase = s.modPhase ∧ (discardWrite r v s).st.shift = s.shift ∧
    (discardWrite r v s).st.segIdent = s.segIdent ∧ (discardWrite r v s).st.fv = s.fv ∧
    (discardWrite r v s).st.out = s.out ∧ (discardWrite r v s).st.conf.cfg = s.conf.cfg := by
  simp only [discardWrite]; (repeat' split) <;> simp

@[simp] theorem wordFault_frame (x : Frame × State) (w : WordFault) :
    (wordFault x w).2.pending = x.2.pending ∧ (wordFault x w).2.power = x.2.power ∧
    (wordFault x w).2.time = x.2.time ∧ (wordFault x w).2.conf = x.2.conf ∧ (wordFault x w).2.act = x.2.act ∧
    (wordFault x w).2.dict = x.2.dict ∧ (wordFault x w).2.store = x.2.store ∧ (wordFault x w).2.clocks = x.2.clocks ∧
    (wordFault x w).2.chans = x.2.chans ∧ (wordFault x w).2.dies = x.2.dies ∧ (wordFault x w).2.ref = x.2.ref ∧
    (wordFault x w).2.cal = x.2.cal ∧ (wordFault x w).2.groups = x.2.groups ∧ (wordFault x w).2.map = x.2.map ∧
    (wordFault x w).2.streams = x.2.streams ∧ (wordFault x w).2.frame = x.2.frame ∧
    (wordFault x w).2.link = x.2.link ∧ (wordFault x w).2.units = x.2.units ∧ (wordFault x w).2.outs = x.2.outs ∧
    (wordFault x w).2.aux = x.2.aux ∧ (wordFault x w).2.ev = x.2.ev ∧ (wordFault x w).2.ptp = x.2.ptp ∧
    (wordFault x w).2.modPhase = x.2.modPhase ∧ (wordFault x w).2.shift = x.2.shift ∧
    (wordFault x w).2.segIdent = x.2.segIdent ∧ (wordFault x w).2.out = x.2.out := by
  unfold wordFault; (repeat' split) <;> simp

@[simp] theorem retirePage_frame (k : Nat) (word : Option Nat) (s : State) :
    (retirePage k word s).pending = s.pending ∧ (retirePage k word s).power = s.power ∧
    (retirePage k word s).time = s.time ∧ (retirePage k word s).conf = s.conf ∧ (retirePage k word s).act = s.act ∧
    (retirePage k word s).dict = s.dict ∧ (retirePage k word s).clocks = s.clocks ∧
    (retirePage k word s).chans = s.chans ∧ (retirePage k word s).dies = s.dies ∧ (retirePage k word s).ref = s.ref ∧
    (retirePage k word s).cal = s.cal ∧ (retirePage k word s).groups = s.groups ∧ (retirePage k word s).map = s.map ∧
    (retirePage k word s).streams = s.streams ∧ (retirePage k word s).frame = s.frame ∧
    (retirePage k word s).buf = s.buf ∧ (retirePage k word s).link = s.link ∧ (retirePage k word s).units = s.units ∧
    (retirePage k word s).outs = s.outs ∧ (retirePage k word s).aux = s.aux ∧ (retirePage k word s).ev = s.ev ∧
    (retirePage k word s).ptp = s.ptp ∧ (retirePage k word s).modPhase = s.modPhase ∧
    (retirePage k word s).shift = s.shift ∧ (retirePage k word s).segIdent = s.segIdent ∧
    (retirePage k word s).fv = s.fv ∧ (retirePage k word s).out = s.out := by
  simp only [retirePage]; (repeat' split) <;> simp

@[simp] theorem dramError_frame (e : MemError) (s : State) :
    (dramError e s).pending = s.pending ∧ (dramError e s).power = s.power ∧ (dramError e s).time = s.time ∧
    (dramError e s).conf = s.conf ∧ (dramError e s).act = s.act ∧ (dramError e s).dict = s.dict ∧
    (dramError e s).clocks = s.clocks ∧ (dramError e s).chans = s.chans ∧ (dramError e s).dies = s.dies ∧
    (dramError e s).ref = s.ref ∧ (dramError e s).cal = s.cal ∧ (dramError e s).groups = s.groups ∧
    (dramError e s).map = s.map ∧ (dramError e s).streams = s.streams ∧ (dramError e s).frame = s.frame ∧
    (dramError e s).buf = s.buf ∧ (dramError e s).link = s.link ∧ (dramError e s).units = s.units ∧
    (dramError e s).outs = s.outs ∧ (dramError e s).aux = s.aux ∧ (dramError e s).ev = s.ev ∧
    (dramError e s).ptp = s.ptp ∧ (dramError e s).modPhase = s.modPhase ∧ (dramError e s).shift = s.shift ∧
    (dramError e s).segIdent = s.segIdent ∧ (dramError e s).fv = s.fv ∧ (dramError e s).out = s.out := by
  simp [dramError]

@[simp] theorem patrolTick_frame (l : List MemError) (s : State) :
    (patrolTick l s).pending = s.pending ∧ (patrolTick l s).power = s.power ∧ (patrolTick l s).time = s.time ∧
    (patrolTick l s).conf = s.conf ∧ (patrolTick l s).act = s.act ∧ (patrolTick l s).dict = s.dict ∧
    (patrolTick l s).clocks = s.clocks ∧ (patrolTick l s).chans = s.chans ∧ (patrolTick l s).dies = s.dies ∧
    (patrolTick l s).ref = s.ref ∧ (patrolTick l s).cal = s.cal ∧ (patrolTick l s).groups = s.groups ∧
    (patrolTick l s).map = s.map ∧ (patrolTick l s).streams = s.streams ∧ (patrolTick l s).frame = s.frame ∧
    (patrolTick l s).buf = s.buf ∧ (patrolTick l s).link = s.link ∧ (patrolTick l s).units = s.units ∧
    (patrolTick l s).outs = s.outs ∧ (patrolTick l s).aux = s.aux ∧ (patrolTick l s).ev = s.ev ∧
    (patrolTick l s).ptp = s.ptp ∧ (patrolTick l s).modPhase = s.modPhase ∧ (patrolTick l s).shift = s.shift ∧
    (patrolTick l s).segIdent = s.segIdent ∧ (patrolTick l s).fv = s.fv ∧ (patrolTick l s).out = s.out := by
  simp [patrolTick]

@[simp] theorem remapRow_frame (k : Nat) (s : State) :
    (remapRow k s).pending = s.pending ∧ (remapRow k s).power = s.power ∧ (remapRow k s).time = s.time ∧
    (remapRow k s).conf = s.conf ∧ (remapRow k s).act = s.act ∧ (remapRow k s).dict = s.dict ∧
    (remapRow k s).clocks = s.clocks ∧ (remapRow k s).chans = s.chans ∧ (remapRow k s).dies = s.dies ∧
    (remapRow k s).ref = s.ref ∧ (remapRow k s).cal = s.cal ∧ (remapRow k s).groups = s.groups ∧
    (remapRow k s).map = s.map ∧ (remapRow k s).streams = s.streams ∧ (remapRow k s).frame = s.frame ∧
    (remapRow k s).buf = s.buf ∧ (remapRow k s).link = s.link ∧ (remapRow k s).units = s.units ∧
    (remapRow k s).outs = s.outs ∧ (remapRow k s).aux = s.aux ∧ (remapRow k s).ev = s.ev ∧
    (remapRow k s).ptp = s.ptp ∧ (remapRow k s).modPhase = s.modPhase ∧ (remapRow k s).shift = s.shift ∧
    (remapRow k s).segIdent = s.segIdent ∧ (remapRow k s).fv = s.fv ∧ (remapRow k s).out = s.out := by
  simp only [remapRow]; (repeat' split) <;> simp

@[simp] theorem rowFault_frame (row word : Nat) (bad : Bool) (s : State) :
    (rowFault row word bad s).pending = s.pending ∧ (rowFault row word bad s).power = s.power ∧
    (rowFault row word bad s).time = s.time ∧ (rowFault row word bad s).conf = s.conf ∧
    (rowFault row word bad s).act = s.act ∧ (rowFault row word bad s).dict = s.dict ∧
    (rowFault row word bad s).clocks = s.clocks ∧ (rowFault row word bad s).chans = s.chans ∧
    (rowFault row word bad s).dies = s.dies ∧ (rowFault row word bad s).ref = s.ref ∧
    (rowFault row word bad s).cal = s.cal ∧ (rowFault row word bad s).groups = s.groups ∧
    (rowFault row word bad s).map = s.map ∧ (rowFault row word bad s).streams = s.streams ∧
    (rowFault row word bad s).frame = s.frame ∧ (rowFault row word bad s).buf = s.buf ∧
    (rowFault row word bad s).link = s.link ∧ (rowFault row word bad s).units = s.units ∧
    (rowFault row word bad s).outs = s.outs ∧ (rowFault row word bad s).aux = s.aux ∧
    (rowFault row word bad s).ev = s.ev ∧ (rowFault row word bad s).ptp = s.ptp ∧
    (rowFault row word bad s).modPhase = s.modPhase ∧ (rowFault row word bad s).shift = s.shift ∧
    (rowFault row word bad s).segIdent = s.segIdent ∧ (rowFault row word bad s).fv = s.fv ∧
    (rowFault row word bad s).out = s.out := by
  simp [rowFault]

@[simp] theorem sramCount_frame (e : MemError) (bad : Bool) (s : State) :
    (sramCount e bad s).pending = s.pending ∧ (sramCount e bad s).power = s.power ∧
    (sramCount e bad s).time = s.time ∧ (sramCount e bad s).conf = s.conf ∧ (sramCount e bad s).act = s.act ∧
    (sramCount e bad s).dict = s.dict ∧ (sramCount e bad s).clocks = s.clocks ∧ (sramCount e bad s).chans = s.chans ∧
    (sramCount e bad s).dies = s.dies ∧ (sramCount e bad s).ref = s.ref ∧ (sramCount e bad s).cal = s.cal ∧
    (sramCount e bad s).groups = s.groups ∧ (sramCount e bad s).map = s.map ∧
    (sramCount e bad s).streams = s.streams ∧ (sramCount e bad s).frame = s.frame ∧ (sramCount e bad s).buf = s.buf ∧
    (sramCount e bad s).link = s.link ∧ (sramCount e bad s).units = s.units ∧ (sramCount e bad s).outs = s.outs ∧
    (sramCount e bad s).aux = s.aux ∧ (sramCount e bad s).ev = s.ev ∧ (sramCount e bad s).ptp = s.ptp ∧
    (sramCount e bad s).modPhase = s.modPhase ∧ (sramCount e bad s).shift = s.shift ∧
    (sramCount e bad s).segIdent = s.segIdent ∧ (sramCount e bad s).fv = s.fv ∧ (sramCount e bad s).out = s.out := by
  simp [sramCount]

@[simp] theorem emptyWord_frame (e : MemError) (s : State) :
    (emptyWord e s).pending = s.pending ∧ (emptyWord e s).power = s.power ∧ (emptyWord e s).time = s.time ∧
    (emptyWord e s).conf = s.conf ∧ (emptyWord e s).act = s.act ∧ (emptyWord e s).dict = s.dict ∧
    (emptyWord e s).clocks = s.clocks ∧ (emptyWord e s).chans = s.chans ∧ (emptyWord e s).dies = s.dies ∧
    (emptyWord e s).ref = s.ref ∧ (emptyWord e s).cal = s.cal ∧ (emptyWord e s).groups = s.groups ∧
    (emptyWord e s).map = s.map ∧ (emptyWord e s).streams = s.streams ∧ (emptyWord e s).frame = s.frame ∧
    (emptyWord e s).buf = s.buf ∧ (emptyWord e s).link = s.link ∧ (emptyWord e s).units = s.units ∧
    (emptyWord e s).outs = s.outs ∧ (emptyWord e s).aux = s.aux ∧ (emptyWord e s).ev = s.ev ∧
    (emptyWord e s).ptp = s.ptp ∧ (emptyWord e s).modPhase = s.modPhase ∧ (emptyWord e s).shift = s.shift ∧
    (emptyWord e s).segIdent = s.segIdent ∧ (emptyWord e s).fv = s.fv ∧ (emptyWord e s).out = s.out := by
  simp [emptyWord]

@[simp] theorem sramError_frame (a : SramArea) (e : MemError) (s : State) :
    (sramError a e s).pending = s.pending ∧ (sramError a e s).time = s.time ∧ (sramError a e s).dict = s.dict ∧
    (sramError a e s).clocks = s.clocks ∧ (sramError a e s).ref = s.ref ∧ (sramError a e s).map = s.map ∧
    (sramError a e s).ptp = s.ptp ∧ (sramError a e s).modPhase = s.modPhase ∧ (sramError a e s).shift = s.shift ∧
    (sramError a e s).segIdent = s.segIdent ∧ (sramError a e s).out = s.out ∧
    (sramError a e s).conf.cfg = s.conf.cfg ∧ (sramError a e s).power.vmain = s.power.vmain := by
  simp only [sramError]; (repeat' split) <;> simp

@[simp] theorem scrubTick_frame (l : List (SramArea × MemError)) (s : State) :
    (scrubTick l s).pending = s.pending ∧ (scrubTick l s).time = s.time ∧ (scrubTick l s).dict = s.dict ∧
    (scrubTick l s).clocks = s.clocks ∧ (scrubTick l s).ref = s.ref ∧ (scrubTick l s).map = s.map ∧
    (scrubTick l s).ptp = s.ptp ∧ (scrubTick l s).modPhase = s.modPhase ∧ (scrubTick l s).shift = s.shift ∧
    (scrubTick l s).segIdent = s.segIdent ∧ (scrubTick l s).out = s.out ∧ (scrubTick l s).conf.cfg = s.conf.cfg ∧
    (scrubTick l s).power.vmain = s.power.vmain := by
  simp [scrubTick]

@[simp] theorem enterFrame_frame (f : Frame) (s : State) :
    (enterFrame f s).pending = s.pending ∧ (enterFrame f s).power = s.power ∧ (enterFrame f s).time = s.time ∧
    (enterFrame f s).conf = s.conf ∧ (enterFrame f s).act = s.act ∧ (enterFrame f s).dict = s.dict ∧
    (enterFrame f s).store = s.store ∧ (enterFrame f s).clocks = s.clocks ∧ (enterFrame f s).chans = s.chans ∧
    (enterFrame f s).dies = s.dies ∧ (enterFrame f s).ref = s.ref ∧ (enterFrame f s).cal = s.cal ∧
    (enterFrame f s).groups = s.groups ∧ (enterFrame f s).map = s.map ∧ (enterFrame f s).streams = s.streams ∧
    (enterFrame f s).link = s.link ∧ (enterFrame f s).units = s.units ∧ (enterFrame f s).outs = s.outs ∧
    (enterFrame f s).aux = s.aux ∧ (enterFrame f s).ev = s.ev ∧ (enterFrame f s).ptp = s.ptp ∧
    (enterFrame f s).modPhase = s.modPhase ∧ (enterFrame f s).shift = s.shift ∧
    (enterFrame f s).segIdent = s.segIdent ∧ (enterFrame f s).fv = s.fv ∧ (enterFrame f s).out = s.out := by
  simp [enterFrame]

@[simp] theorem onEntered_frame (which : Entered → Bool) (f : Entered → Entered) (s : State) :
    (onEntered which f s).pending = s.pending ∧ (onEntered which f s).power = s.power ∧
    (onEntered which f s).time = s.time ∧ (onEntered which f s).conf = s.conf ∧ (onEntered which f s).act = s.act ∧
    (onEntered which f s).dict = s.dict ∧ (onEntered which f s).store = s.store ∧
    (onEntered which f s).health = s.health ∧ (onEntered which f s).clocks = s.clocks ∧
    (onEntered which f s).chans = s.chans ∧ (onEntered which f s).dies = s.dies ∧ (onEntered which f s).ref = s.ref ∧
    (onEntered which f s).cal = s.cal ∧ (onEntered which f s).groups = s.groups ∧ (onEntered which f s).map = s.map ∧
    (onEntered which f s).streams = s.streams ∧ (onEntered which f s).frame = s.frame ∧
    (onEntered which f s).link = s.link ∧ (onEntered which f s).units = s.units ∧
    (onEntered which f s).outs = s.outs ∧ (onEntered which f s).aux = s.aux ∧ (onEntered which f s).ev = s.ev ∧
    (onEntered which f s).ptp = s.ptp ∧ (onEntered which f s).modPhase = s.modPhase ∧
    (onEntered which f s).shift = s.shift ∧ (onEntered which f s).segIdent = s.segIdent ∧
    (onEntered which f s).fv = s.fv ∧ (onEntered which f s).out = s.out := by
  simp [onEntered]

@[simp] theorem lateCheck_frame (f : Frame) (n : Nat) (s : State) :
    (lateCheck f n s).pending = s.pending ∧ (lateCheck f n s).power = s.power ∧ (lateCheck f n s).time = s.time ∧
    (lateCheck f n s).conf = s.conf ∧ (lateCheck f n s).act = s.act ∧ (lateCheck f n s).dict = s.dict ∧
    (lateCheck f n s).store = s.store ∧ (lateCheck f n s).clocks = s.clocks ∧ (lateCheck f n s).chans = s.chans ∧
    (lateCheck f n s).dies = s.dies ∧ (lateCheck f n s).ref = s.ref ∧ (lateCheck f n s).cal = s.cal ∧
    (lateCheck f n s).groups = s.groups ∧ (lateCheck f n s).map = s.map ∧ (lateCheck f n s).frame = s.frame ∧
    (lateCheck f n s).buf = s.buf ∧ (lateCheck f n s).link = s.link ∧ (lateCheck f n s).units = s.units ∧
    (lateCheck f n s).outs = s.outs ∧ (lateCheck f n s).aux = s.aux ∧ (lateCheck f n s).ev = s.ev ∧
    (lateCheck f n s).ptp = s.ptp ∧ (lateCheck f n s).modPhase = s.modPhase ∧ (lateCheck f n s).shift = s.shift ∧
    (lateCheck f n s).segIdent = s.segIdent ∧ (lateCheck f n s).fv = s.fv ∧ (lateCheck f n s).out = s.out := by
  unfold lateCheck; (repeat' split) <;> simp

@[simp] theorem firstSend_frame (p : Nat) (e : Entered) (s : State) :
    (firstSend p e s).pending = s.pending ∧ (firstSend p e s).power = s.power ∧ (firstSend p e s).time = s.time ∧
    (firstSend p e s).conf = s.conf ∧ (firstSend p e s).act = s.act ∧ (firstSend p e s).dict = s.dict ∧
    (firstSend p e s).store = s.store ∧ (firstSend p e s).clocks = s.clocks ∧ (firstSend p e s).chans = s.chans ∧
    (firstSend p e s).dies = s.dies ∧ (firstSend p e s).ref = s.ref ∧ (firstSend p e s).cal = s.cal ∧
    (firstSend p e s).groups = s.groups ∧ (firstSend p e s).map = s.map ∧ (firstSend p e s).frame = s.frame ∧
    (firstSend p e s).units = s.units ∧ (firstSend p e s).outs = s.outs ∧ (firstSend p e s).aux = s.aux ∧
    (firstSend p e s).ev = s.ev ∧ (firstSend p e s).ptp = s.ptp ∧ (firstSend p e s).modPhase = s.modPhase ∧
    (firstSend p e s).shift = s.shift ∧ (firstSend p e s).segIdent = s.segIdent ∧ (firstSend p e s).fv = s.fv := by
  simp [firstSend]

@[simp] theorem charge_frame (p len : Nat) (s : State) :
    (charge p len s).pending = s.pending ∧ (charge p len s).power = s.power ∧ (charge p len s).time = s.time ∧
    (charge p len s).conf = s.conf ∧ (charge p len s).act = s.act ∧ (charge p len s).dict = s.dict ∧
    (charge p len s).store = s.store ∧ (charge p len s).health = s.health ∧ (charge p len s).clocks = s.clocks ∧
    (charge p len s).chans = s.chans ∧ (charge p len s).dies = s.dies ∧ (charge p len s).ref = s.ref ∧
    (charge p len s).cal = s.cal ∧ (charge p len s).groups = s.groups ∧ (charge p len s).map = s.map ∧
    (charge p len s).streams = s.streams ∧ (charge p len s).frame = s.frame ∧ (charge p len s).buf = s.buf ∧
    (charge p len s).units = s.units ∧ (charge p len s).outs = s.outs ∧ (charge p len s).aux = s.aux ∧
    (charge p len s).ev = s.ev ∧ (charge p len s).ptp = s.ptp ∧ (charge p len s).modPhase = s.modPhase ∧
    (charge p len s).shift = s.shift ∧ (charge p len s).segIdent = s.segIdent ∧ (charge p len s).fv = s.fv ∧
    (charge p len s).out = s.out := by
  simp [charge]

@[simp] theorem sendMsg_frame (p : Nat) (b : List Nat) (l : List (List Nat)) (s : State) :
    (sendMsg p b l s).pending = s.pending ∧ (sendMsg p b l s).power = s.power ∧ (sendMsg p b l s).time = s.time ∧
    (sendMsg p b l s).conf = s.conf ∧ (sendMsg p b l s).act = s.act ∧ (sendMsg p b l s).dict = s.dict ∧
    (sendMsg p b l s).store = s.store ∧ (sendMsg p b l s).health = s.health ∧ (sendMsg p b l s).clocks = s.clocks ∧
    (sendMsg p b l s).chans = s.chans ∧ (sendMsg p b l s).dies = s.dies ∧ (sendMsg p b l s).ref = s.ref ∧
    (sendMsg p b l s).cal = s.cal ∧ (sendMsg p b l s).groups = s.groups ∧ (sendMsg p b l s).map = s.map ∧
    (sendMsg p b l s).streams = s.streams ∧ (sendMsg p b l s).frame = s.frame ∧ (sendMsg p b l s).buf = s.buf ∧
    (sendMsg p b l s).units = s.units ∧ (sendMsg p b l s).outs = s.outs ∧ (sendMsg p b l s).aux = s.aux ∧
    (sendMsg p b l s).ev = s.ev ∧ (sendMsg p b l s).ptp = s.ptp ∧ (sendMsg p b l s).modPhase = s.modPhase ∧
    (sendMsg p b l s).shift = s.shift ∧ (sendMsg p b l s).segIdent = s.segIdent ∧ (sendMsg p b l s).fv = s.fv := by
  simp [sendMsg]

@[simp] theorem sendAnswer_frame (p : Nat) (a : Answer) (l : List Answer) (s : State) :
    (sendAnswer p a l s).pending = s.pending ∧ (sendAnswer p a l s).power = s.power ∧
    (sendAnswer p a l s).time = s.time ∧ (sendAnswer p a l s).conf = s.conf ∧ (sendAnswer p a l s).act = s.act ∧
    (sendAnswer p a l s).store = s.store ∧ (sendAnswer p a l s).health = s.health ∧
    (sendAnswer p a l s).clocks = s.clocks ∧ (sendAnswer p a l s).chans = s.chans ∧
    (sendAnswer p a l s).dies = s.dies ∧ (sendAnswer p a l s).ref = s.ref ∧ (sendAnswer p a l s).cal = s.cal ∧
    (sendAnswer p a l s).groups = s.groups ∧ (sendAnswer p a l s).map = s.map ∧
    (sendAnswer p a l s).streams = s.streams ∧ (sendAnswer p a l s).buf = s.buf ∧
    (sendAnswer p a l s).units = s.units ∧ (sendAnswer p a l s).outs = s.outs ∧ (sendAnswer p a l s).aux = s.aux ∧
    (sendAnswer p a l s).ev = s.ev ∧ (sendAnswer p a l s).ptp = s.ptp ∧ (sendAnswer p a l s).modPhase = s.modPhase ∧
    (sendAnswer p a l s).shift = s.shift ∧ (sendAnswer p a l s).segIdent = s.segIdent ∧ (sendAnswer p a l s).fv = s.fv := by
  simp [sendAnswer]

@[simp] theorem altTransmit_frame (p : Nat) (s : State) :
    (altTransmit p s).pending = s.pending ∧ (altTransmit p s).power = s.power ∧ (altTransmit p s).time = s.time ∧
    (altTransmit p s).conf = s.conf ∧ (altTransmit p s).act = s.act ∧ (altTransmit p s).dict = s.dict ∧
    (altTransmit p s).store = s.store ∧ (altTransmit p s).health = s.health ∧ (altTransmit p s).clocks = s.clocks ∧
    (altTransmit p s).chans = s.chans ∧ (altTransmit p s).dies = s.dies ∧ (altTransmit p s).ref = s.ref ∧
    (altTransmit p s).cal = s.cal ∧ (altTransmit p s).groups = s.groups ∧ (altTransmit p s).map = s.map ∧
    (altTransmit p s).streams = s.streams ∧ (altTransmit p s).frame = s.frame ∧ (altTransmit p s).buf = s.buf ∧
    (altTransmit p s).units = s.units ∧ (altTransmit p s).outs = s.outs ∧ (altTransmit p s).aux = s.aux ∧
    (altTransmit p s).ev = s.ev ∧ (altTransmit p s).ptp = s.ptp ∧ (altTransmit p s).modPhase = s.modPhase ∧
    (altTransmit p s).shift = s.shift ∧ (altTransmit p s).segIdent = s.segIdent ∧ (altTransmit p s).fv = s.fv := by
  unfold altTransmit; (repeat' split) <;> simp

@[simp] theorem rewind_frame (s : State) :
    (rewind s).pending = s.pending ∧ (rewind s).power = s.power ∧ (rewind s).time = s.time ∧
    (rewind s).conf = s.conf ∧ (rewind s).act = s.act ∧ (rewind s).dict = s.dict ∧ (rewind s).store = s.store ∧
    (rewind s).health = s.health ∧ (rewind s).clocks = s.clocks ∧ (rewind s).chans = s.chans ∧
    (rewind s).dies = s.dies ∧ (rewind s).ref = s.ref ∧ (rewind s).cal = s.cal ∧ (rewind s).groups = s.groups ∧
    (rewind s).map = s.map ∧ (rewind s).streams = s.streams ∧ (rewind s).frame = s.frame ∧
    (rewind s).units = s.units ∧ (rewind s).outs = s.outs ∧ (rewind s).aux = s.aux ∧ (rewind s).ev = s.ev ∧
    (rewind s).ptp = s.ptp ∧ (rewind s).modPhase = s.modPhase ∧ (rewind s).shift = s.shift ∧
    (rewind s).segIdent = s.segIdent ∧ (rewind s).fv = s.fv ∧ (rewind s).out = s.out := by
  unfold rewind; (repeat' split) <;> simp

@[simp] theorem retxTimeout_frame (s : State) :
    (retxTimeout s).pending = s.pending ∧ (retxTimeout s).power = s.power ∧ (retxTimeout s).time = s.time ∧
    (retxTimeout s).conf = s.conf ∧ (retxTimeout s).act = s.act ∧ (retxTimeout s).dict = s.dict ∧
    (retxTimeout s).store = s.store ∧ (retxTimeout s).health = s.health ∧ (retxTimeout s).clocks = s.clocks ∧
    (retxTimeout s).chans = s.chans ∧ (retxTimeout s).dies = s.dies ∧ (retxTimeout s).ref = s.ref ∧
    (retxTimeout s).cal = s.cal ∧ (retxTimeout s).groups = s.groups ∧ (retxTimeout s).map = s.map ∧
    (retxTimeout s).streams = s.streams ∧ (retxTimeout s).frame = s.frame ∧ (retxTimeout s).units = s.units ∧
    (retxTimeout s).outs = s.outs ∧ (retxTimeout s).aux = s.aux ∧ (retxTimeout s).ev = s.ev ∧
    (retxTimeout s).ptp = s.ptp ∧ (retxTimeout s).modPhase = s.modPhase ∧ (retxTimeout s).shift = s.shift ∧
    (retxTimeout s).segIdent = s.segIdent ∧ (retxTimeout s).fv = s.fv ∧ (retxTimeout s).out = s.out := by
  simp [retxTimeout]

@[simp] theorem ackTo_frame (a : BitVec 32) (s : State) :
    (ackTo a s).pending = s.pending ∧ (ackTo a s).conf.cfg = s.conf.cfg ∧ (ackTo a s).power.vmain = s.power.vmain ∧
    (ackTo a s).time.tw = s.time.tw := by
  simp only [ackTo]; (repeat' split) <;> simp

@[simp] theorem creditAck_frame (a lim : BitVec 32) (nak : Bool) (s : State) :
    (creditAck a lim nak s).pending = s.pending ∧ (creditAck a lim nak s).conf.cfg = s.conf.cfg ∧
    (creditAck a lim nak s).power.vmain = s.power.vmain ∧ (creditAck a lim nak s).time.tw = s.time.tw := by
  simp [creditAck]

@[simp] theorem lineRelease_frame (s : State) :
    (lineRelease s).pending = s.pending ∧ (lineRelease s).conf.cfg = s.conf.cfg ∧
    (lineRelease s).power.vmain = s.power.vmain ∧ (lineRelease s).time.tw = s.time.tw := by
  unfold lineRelease; (repeat' split) <;> simp

@[simp] theorem onSrc_frame (src : Source) (f : SrcState → SrcState) (s : State) :
    (onSrc src f s).pending = s.pending ∧ (onSrc src f s).power = s.power ∧ (onSrc src f s).time = s.time ∧
    (onSrc src f s).conf = s.conf ∧ (onSrc src f s).act = s.act ∧ (onSrc src f s).dict = s.dict ∧
    (onSrc src f s).store = s.store ∧ (onSrc src f s).health = s.health ∧ (onSrc src f s).chans = s.chans ∧
    (onSrc src f s).dies = s.dies ∧ (onSrc src f s).ref = s.ref ∧ (onSrc src f s).cal = s.cal ∧
    (onSrc src f s).groups = s.groups ∧ (onSrc src f s).map = s.map ∧ (onSrc src f s).streams = s.streams ∧
    (onSrc src f s).frame = s.frame ∧ (onSrc src f s).buf = s.buf ∧ (onSrc src f s).link = s.link ∧
    (onSrc src f s).units = s.units ∧ (onSrc src f s).outs = s.outs ∧ (onSrc src f s).aux = s.aux ∧
    (onSrc src f s).ev = s.ev ∧ (onSrc src f s).ptp = s.ptp ∧ (onSrc src f s).modPhase = s.modPhase ∧
    (onSrc src f s).shift = s.shift ∧ (onSrc src f s).segIdent = s.segIdent ∧ (onSrc src f s).fv = s.fv ∧
    (onSrc src f s).out = s.out := by
  unfold onSrc; (repeat' split) <;> simp

@[simp] theorem ocxoLost_frame (s : State) :
    (ocxoLost s).pending = s.pending ∧ (ocxoLost s).time = s.time ∧ (ocxoLost s).conf = s.conf ∧
    (ocxoLost s).act = s.act ∧ (ocxoLost s).dict = s.dict ∧ (ocxoLost s).store = s.store ∧
    (ocxoLost s).health = s.health ∧ (ocxoLost s).clocks = s.clocks ∧ (ocxoLost s).chans = s.chans ∧
    (ocxoLost s).dies = s.dies ∧ (ocxoLost s).ref = s.ref ∧ (ocxoLost s).groups = s.groups ∧
    (ocxoLost s).map = s.map ∧ (ocxoLost s).streams = s.streams ∧ (ocxoLost s).frame = s.frame ∧
    (ocxoLost s).buf = s.buf ∧ (ocxoLost s).link = s.link ∧ (ocxoLost s).units = s.units ∧
    (ocxoLost s).outs = s.outs ∧ (ocxoLost s).aux = s.aux ∧ (ocxoLost s).ev = s.ev ∧ (ocxoLost s).ptp = s.ptp ∧
    (ocxoLost s).modPhase = s.modPhase ∧ (ocxoLost s).shift = s.shift ∧ (ocxoLost s).segIdent = s.segIdent ∧
    (ocxoLost s).fv = s.fv ∧ (ocxoLost s).out = s.out ∧ (ocxoLost s).power.vmain = s.power.vmain ∧
    (ocxoLost s).power.mode = s.power.mode := by
  unfold ocxoLost; (repeat' split) <;> simp

@[simp] theorem switchBegin_frame (dest : Source) (s : State) :
    (switchBegin dest s).pending = s.pending ∧ (switchBegin dest s).power = s.power ∧
    (switchBegin dest s).time = s.time ∧ (switchBegin dest s).conf = s.conf ∧ (switchBegin dest s).act = s.act ∧
    (switchBegin dest s).dict = s.dict ∧ (switchBegin dest s).store = s.store ∧
    (switchBegin dest s).health = s.health ∧ (switchBegin dest s).chans = s.chans ∧
    (switchBegin dest s).dies = s.dies ∧ (switchBegin dest s).ref = s.ref ∧ (switchBegin dest s).cal = s.cal ∧
    (switchBegin dest s).groups = s.groups ∧ (switchBegin dest s).map = s.map ∧
    (switchBegin dest s).streams = s.streams ∧ (switchBegin dest s).frame = s.frame ∧
    (switchBegin dest s).buf = s.buf ∧ (switchBegin dest s).link = s.link ∧ (switchBegin dest s).units = s.units ∧
    (switchBegin dest s).outs = s.outs ∧ (switchBegin dest s).aux = s.aux ∧ (switchBegin dest s).ev = s.ev ∧
    (switchBegin dest s).ptp = s.ptp ∧ (switchBegin dest s).modPhase = s.modPhase ∧
    (switchBegin dest s).shift = s.shift ∧ (switchBegin dest s).segIdent = s.segIdent ∧
    (switchBegin dest s).fv = s.fv ∧ (switchBegin dest s).out = s.out := by
  simp [switchBegin]

@[simp] theorem refEval_frame (s : State) :
    (refEval s).pending = s.pending ∧ (refEval s).time = s.time ∧ (refEval s).conf = s.conf ∧
    (refEval s).act = s.act ∧ (refEval s).dict = s.dict ∧ (refEval s).store = s.store ∧
    (refEval s).health = s.health ∧ (refEval s).chans = s.chans ∧ (refEval s).dies = s.dies ∧
    (refEval s).ref = s.ref ∧ (refEval s).groups = s.groups ∧ (refEval s).map = s.map ∧
    (refEval s).streams = s.streams ∧ (refEval s).frame = s.frame ∧ (refEval s).buf = s.buf ∧
    (refEval s).link = s.link ∧ (refEval s).units = s.units ∧ (refEval s).outs = s.outs ∧ (refEval s).aux = s.aux ∧
    (refEval s).ev = s.ev ∧ (refEval s).ptp = s.ptp ∧ (refEval s).modPhase = s.modPhase ∧
    (refEval s).shift = s.shift ∧ (refEval s).segIdent = s.segIdent ∧ (refEval s).fv = s.fv ∧
    (refEval s).out = s.out ∧ (refEval s).power.vmain = s.power.vmain ∧ (refEval s).power.mode = s.power.mode := by
  simp [refEval]

@[simp] theorem linkFollow_frame (s : State) :
    (linkFollow s).pending = s.pending ∧ (linkFollow s).time = s.time ∧ (linkFollow s).conf = s.conf ∧
    (linkFollow s).act = s.act ∧ (linkFollow s).dict = s.dict ∧ (linkFollow s).store = s.store ∧
    (linkFollow s).health = s.health ∧ (linkFollow s).chans = s.chans ∧ (linkFollow s).dies = s.dies ∧
    (linkFollow s).ref = s.ref ∧ (linkFollow s).groups = s.groups ∧ (linkFollow s).map = s.map ∧
    (linkFollow s).streams = s.streams ∧ (linkFollow s).frame = s.frame ∧ (linkFollow s).buf = s.buf ∧
    (linkFollow s).link = s.link ∧ (linkFollow s).units = s.units ∧ (linkFollow s).outs = s.outs ∧
    (linkFollow s).aux = s.aux ∧ (linkFollow s).ev = s.ev ∧ (linkFollow s).ptp = s.ptp ∧
    (linkFollow s).modPhase = s.modPhase ∧ (linkFollow s).shift = s.shift ∧ (linkFollow s).segIdent = s.segIdent ∧
    (linkFollow s).fv = s.fv ∧ (linkFollow s).out = s.out ∧ (linkFollow s).power.vmain = s.power.vmain ∧
    (linkFollow s).power.mode = s.power.mode := by
  unfold linkFollow; (repeat' split) <;> simp

@[simp] theorem refRestart_frame (s : State) :
    (refRestart s).pending = s.pending ∧ (refRestart s).time = s.time ∧ (refRestart s).conf = s.conf ∧
    (refRestart s).act = s.act ∧ (refRestart s).dict = s.dict ∧ (refRestart s).store = s.store ∧
    (refRestart s).health = s.health ∧ (refRestart s).chans = s.chans ∧ (refRestart s).dies = s.dies ∧
    (refRestart s).ref = s.ref ∧ (refRestart s).groups = s.groups ∧ (refRestart s).map = s.map ∧
    (refRestart s).streams = s.streams ∧ (refRestart s).frame = s.frame ∧ (refRestart s).buf = s.buf ∧
    (refRestart s).link = s.link ∧ (refRestart s).units = s.units ∧ (refRestart s).outs = s.outs ∧
    (refRestart s).aux = s.aux ∧ (refRestart s).ev = s.ev ∧ (refRestart s).ptp = s.ptp ∧
    (refRestart s).modPhase = s.modPhase ∧ (refRestart s).shift = s.shift ∧ (refRestart s).segIdent = s.segIdent ∧
    (refRestart s).fv = s.fv ∧ (refRestart s).out = s.out ∧ (refRestart s).power.vmain = s.power.vmain ∧
    (refRestart s).power.mode = s.power.mode := by
  simp [refRestart]

@[simp] theorem ocxoStopped_frame (s : State) :
    (ocxoStopped s).pending = s.pending ∧ (ocxoStopped s).time = s.time ∧ (ocxoStopped s).conf = s.conf ∧
    (ocxoStopped s).act = s.act ∧ (ocxoStopped s).dict = s.dict ∧ (ocxoStopped s).store = s.store ∧
    (ocxoStopped s).health = s.health ∧ (ocxoStopped s).chans = s.chans ∧ (ocxoStopped s).dies = s.dies ∧
    (ocxoStopped s).ref = s.ref ∧ (ocxoStopped s).cal = s.cal ∧ (ocxoStopped s).groups = s.groups ∧
    (ocxoStopped s).map = s.map ∧ (ocxoStopped s).streams = s.streams ∧ (ocxoStopped s).frame = s.frame ∧
    (ocxoStopped s).buf = s.buf ∧ (ocxoStopped s).link = s.link ∧ (ocxoStopped s).units = s.units ∧
    (ocxoStopped s).outs = s.outs ∧ (ocxoStopped s).aux = s.aux ∧ (ocxoStopped s).ev = s.ev ∧
    (ocxoStopped s).ptp = s.ptp ∧ (ocxoStopped s).modPhase = s.modPhase ∧ (ocxoStopped s).shift = s.shift ∧
    (ocxoStopped s).segIdent = s.segIdent ∧ (ocxoStopped s).fv = s.fv ∧ (ocxoStopped s).out = s.out ∧
    (ocxoStopped s).power.vmain = s.power.vmain ∧ (ocxoStopped s).power.mode = s.power.mode := by
  simp [ocxoStopped]

@[simp] theorem ocxoRuns_frame (s : State) :
    (ocxoRuns s).pending = s.pending ∧ (ocxoRuns s).time = s.time ∧ (ocxoRuns s).conf = s.conf ∧
    (ocxoRuns s).act = s.act ∧ (ocxoRuns s).dict = s.dict ∧ (ocxoRuns s).store = s.store ∧
    (ocxoRuns s).health = s.health ∧ (ocxoRuns s).chans = s.chans ∧ (ocxoRuns s).dies = s.dies ∧
    (ocxoRuns s).ref = s.ref ∧ (ocxoRuns s).cal = s.cal ∧ (ocxoRuns s).groups = s.groups ∧ (ocxoRuns s).map = s.map ∧
    (ocxoRuns s).streams = s.streams ∧ (ocxoRuns s).frame = s.frame ∧ (ocxoRuns s).buf = s.buf ∧
    (ocxoRuns s).link = s.link ∧ (ocxoRuns s).units = s.units ∧ (ocxoRuns s).outs = s.outs ∧
    (ocxoRuns s).aux = s.aux ∧ (ocxoRuns s).ev = s.ev ∧ (ocxoRuns s).ptp = s.ptp ∧
    (ocxoRuns s).modPhase = s.modPhase ∧ (ocxoRuns s).shift = s.shift ∧ (ocxoRuns s).segIdent = s.segIdent ∧
    (ocxoRuns s).fv = s.fv ∧ (ocxoRuns s).out = s.out ∧ (ocxoRuns s).power.vmain = s.power.vmain ∧
    (ocxoRuns s).power.mode = s.power.mode := by
  simp only [ocxoRuns]; (repeat' split) <;> simp

@[simp] theorem sourceStop_frame (src : Source) (s : State) :
    (sourceStop src s).pending = s.pending ∧ (sourceStop src s).time = s.time ∧ (sourceStop src s).conf = s.conf ∧
    (sourceStop src s).act = s.act ∧ (sourceStop src s).dict = s.dict ∧ (sourceStop src s).store = s.store ∧
    (sourceStop src s).chans = s.chans ∧ (sourceStop src s).dies = s.dies ∧ (sourceStop src s).ref = s.ref ∧
    (sourceStop src s).groups = s.groups ∧ (sourceStop src s).map = s.map ∧ (sourceStop src s).streams = s.streams ∧
    (sourceStop src s).frame = s.frame ∧ (sourceStop src s).buf = s.buf ∧ (sourceStop src s).link = s.link ∧
    (sourceStop src s).units = s.units ∧ (sourceStop src s).outs = s.outs ∧ (sourceStop src s).aux = s.aux ∧
    (sourceStop src s).ev = s.ev ∧ (sourceStop src s).ptp = s.ptp ∧ (sourceStop src s).modPhase = s.modPhase ∧
    (sourceStop src s).shift = s.shift ∧ (sourceStop src s).segIdent = s.segIdent ∧ (sourceStop src s).fv = s.fv ∧
    (sourceStop src s).out = s.out ∧ (sourceStop src s).power.vmain = s.power.vmain ∧
    (sourceStop src s).power.mode = s.power.mode := by
  simp only [sourceStop]; (repeat' split) <;> simp

@[simp] theorem sourceRun_frame (src : Source) (s : State) :
    (sourceRun src s).pending = s.pending ∧ (sourceRun src s).time = s.time ∧ (sourceRun src s).conf = s.conf ∧
    (sourceRun src s).act = s.act ∧ (sourceRun src s).dict = s.dict ∧ (sourceRun src s).store = s.store ∧
    (sourceRun src s).health = s.health ∧ (sourceRun src s).chans = s.chans ∧ (sourceRun src s).dies = s.dies ∧
    (sourceRun src s).ref = s.ref ∧ (sourceRun src s).cal = s.cal ∧ (sourceRun src s).groups = s.groups ∧
    (sourceRun src s).map = s.map ∧ (sourceRun src s).streams = s.streams ∧ (sourceRun src s).frame = s.frame ∧
    (sourceRun src s).buf = s.buf ∧ (sourceRun src s).link = s.link ∧ (sourceRun src s).units = s.units ∧
    (sourceRun src s).outs = s.outs ∧ (sourceRun src s).aux = s.aux ∧ (sourceRun src s).ev = s.ev ∧
    (sourceRun src s).ptp = s.ptp ∧ (sourceRun src s).modPhase = s.modPhase ∧ (sourceRun src s).shift = s.shift ∧
    (sourceRun src s).segIdent = s.segIdent ∧ (sourceRun src s).fv = s.fv ∧ (sourceRun src s).out = s.out ∧
    (sourceRun src s).power.vmain = s.power.vmain ∧ (sourceRun src s).power.mode = s.power.mode := by
  simp [sourceRun]

@[simp] theorem refclkMeasure_frame (ppb : Int) (s : State) :
    (refclkMeasure ppb s).pending = s.pending ∧ (refclkMeasure ppb s).conf.cfg = s.conf.cfg ∧
    (refclkMeasure ppb s).power.vmain = s.power.vmain ∧ (refclkMeasure ppb s).time.tw = s.time.tw := by
  simp [refclkMeasure]

@[simp] theorem tickTune_frame (v : Rat) (s : State) :
    (tickTune v s).pending = s.pending ∧ (tickTune v s).power = s.power ∧ (tickTune v s).time = s.time ∧
    (tickTune v s).conf = s.conf ∧ (tickTune v s).act = s.act ∧ (tickTune v s).dict = s.dict ∧
    (tickTune v s).store = s.store ∧ (tickTune v s).health = s.health ∧ (tickTune v s).chans = s.chans ∧
    (tickTune v s).dies = s.dies ∧ (tickTune v s).ref = s.ref ∧ (tickTune v s).cal = s.cal ∧
    (tickTune v s).groups = s.groups ∧ (tickTune v s).map = s.map ∧ (tickTune v s).streams = s.streams ∧
    (tickTune v s).frame = s.frame ∧ (tickTune v s).buf = s.buf ∧ (tickTune v s).link = s.link ∧
    (tickTune v s).units = s.units ∧ (tickTune v s).outs = s.outs ∧ (tickTune v s).aux = s.aux ∧
    (tickTune v s).ev = s.ev ∧ (tickTune v s).ptp = s.ptp ∧ (tickTune v s).modPhase = s.modPhase ∧
    (tickTune v s).shift = s.shift ∧ (tickTune v s).segIdent = s.segIdent ∧ (tickTune v s).fv = s.fv ∧
    (tickTune v s).out = s.out := by
  simp [tickTune]

@[simp] theorem switchComplete_frame (s : State) :
    (switchComplete s).pending = s.pending ∧ (switchComplete s).conf.cfg = s.conf.cfg ∧
    (switchComplete s).power.vmain = s.power.vmain ∧ (switchComplete s).time.tw = s.time.tw := by
  unfold switchComplete; (repeat' split) <;> simp

@[simp] theorem levelDone_frame (windowNs : Nat) (s : State) :
    (levelDone windowNs s).pending = s.pending ∧ (levelDone windowNs s).conf.cfg = s.conf.cfg ∧
    (levelDone windowNs s).power.vmain = s.power.vmain ∧ (levelDone windowNs s).time.tw = s.time.tw := by
  unfold levelDone; (repeat' split) <;> simp

@[simp] theorem gatePut_frame (d v : Nat) (s : State) :
    (gatePut d v s).pending = s.pending ∧ (gatePut d v s).power = s.power ∧ (gatePut d v s).time = s.time ∧
    (gatePut d v s).conf = s.conf ∧ (gatePut d v s).act = s.act ∧ (gatePut d v s).dict = s.dict ∧
    (gatePut d v s).store = s.store ∧ (gatePut d v s).health = s.health ∧ (gatePut d v s).chans = s.chans ∧
    (gatePut d v s).dies = s.dies ∧ (gatePut d v s).ref = s.ref ∧ (gatePut d v s).cal = s.cal ∧
    (gatePut d v s).groups = s.groups ∧ (gatePut d v s).map = s.map ∧ (gatePut d v s).streams = s.streams ∧
    (gatePut d v s).frame = s.frame ∧ (gatePut d v s).buf = s.buf ∧ (gatePut d v s).link = s.link ∧
    (gatePut d v s).units = s.units ∧ (gatePut d v s).outs = s.outs ∧ (gatePut d v s).aux = s.aux ∧
    (gatePut d v s).ev = s.ev ∧ (gatePut d v s).ptp = s.ptp ∧ (gatePut d v s).modPhase = s.modPhase ∧
    (gatePut d v s).shift = s.shift ∧ (gatePut d v s).segIdent = s.segIdent ∧ (gatePut d v s).fv = s.fv ∧
    (gatePut d v s).out = s.out := by
  simp [gatePut]

@[simp] theorem gateIdle_frame (d : Nat) (s : State) :
    (gateIdle d s).pending = s.pending ∧ (gateIdle d s).conf.cfg = s.conf.cfg ∧
    (gateIdle d s).power.vmain = s.power.vmain ∧ (gateIdle d s).time.tw = s.time.tw := by
  simp [gateIdle]

@[simp] theorem gateTimeout_frame (d : Nat) (s : State) :
    (gateTimeout d s).pending = s.pending ∧ (gateTimeout d s).power = s.power ∧ (gateTimeout d s).time = s.time ∧
    (gateTimeout d s).conf = s.conf ∧ (gateTimeout d s).act = s.act ∧ (gateTimeout d s).dict = s.dict ∧
    (gateTimeout d s).store = s.store ∧ (gateTimeout d s).chans = s.chans ∧ (gateTimeout d s).dies = s.dies ∧
    (gateTimeout d s).ref = s.ref ∧ (gateTimeout d s).cal = s.cal ∧ (gateTimeout d s).groups = s.groups ∧
    (gateTimeout d s).map = s.map ∧ (gateTimeout d s).streams = s.streams ∧ (gateTimeout d s).frame = s.frame ∧
    (gateTimeout d s).buf = s.buf ∧ (gateTimeout d s).link = s.link ∧ (gateTimeout d s).units = s.units ∧
    (gateTimeout d s).outs = s.outs ∧ (gateTimeout d s).aux = s.aux ∧ (gateTimeout d s).ev = s.ev ∧
    (gateTimeout d s).ptp = s.ptp ∧ (gateTimeout d s).modPhase = s.modPhase ∧ (gateTimeout d s).shift = s.shift ∧
    (gateTimeout d s).segIdent = s.segIdent ∧ (gateTimeout d s).fv = s.fv ∧ (gateTimeout d s).out = s.out := by
  simp [gateTimeout]

@[simp] theorem gateTick_frame (d : Nat) (s : State) :
    (gateTick d s).pending = s.pending ∧ (gateTick d s).power = s.power ∧ (gateTick d s).time = s.time ∧
    (gateTick d s).conf = s.conf ∧ (gateTick d s).act = s.act ∧ (gateTick d s).dict = s.dict ∧
    (gateTick d s).store = s.store ∧ (gateTick d s).health = s.health ∧ (gateTick d s).chans = s.chans ∧
    (gateTick d s).dies = s.dies ∧ (gateTick d s).ref = s.ref ∧ (gateTick d s).cal = s.cal ∧
    (gateTick d s).groups = s.groups ∧ (gateTick d s).map = s.map ∧ (gateTick d s).streams = s.streams ∧
    (gateTick d s).frame = s.frame ∧ (gateTick d s).buf = s.buf ∧ (gateTick d s).link = s.link ∧
    (gateTick d s).units = s.units ∧ (gateTick d s).outs = s.outs ∧ (gateTick d s).aux = s.aux ∧
    (gateTick d s).ev = s.ev ∧ (gateTick d s).ptp = s.ptp ∧ (gateTick d s).modPhase = s.modPhase ∧
    (gateTick d s).shift = s.shift ∧ (gateTick d s).segIdent = s.segIdent ∧ (gateTick d s).fv = s.fv ∧
    (gateTick d s).out = s.out := by
  simp [gateTick]

@[simp] theorem refReadySet_frame (g : Nat) (s : State) :
    (refReadySet g s).pending = s.pending ∧ (refReadySet g s).power = s.power ∧ (refReadySet g s).time = s.time ∧
    (refReadySet g s).conf = s.conf ∧ (refReadySet g s).act = s.act ∧ (refReadySet g s).dict = s.dict ∧
    (refReadySet g s).store = s.store ∧ (refReadySet g s).health = s.health ∧ (refReadySet g s).clocks = s.clocks ∧
    (refReadySet g s).chans = s.chans ∧ (refReadySet g s).ref = s.ref ∧ (refReadySet g s).cal = s.cal ∧
    (refReadySet g s).groups = s.groups ∧ (refReadySet g s).map = s.map ∧ (refReadySet g s).streams = s.streams ∧
    (refReadySet g s).frame = s.frame ∧ (refReadySet g s).buf = s.buf ∧ (refReadySet g s).link = s.link ∧
    (refReadySet g s).units = s.units ∧ (refReadySet g s).outs = s.outs ∧ (refReadySet g s).aux = s.aux ∧
    (refReadySet g s).ev = s.ev ∧ (refReadySet g s).ptp = s.ptp ∧ (refReadySet g s).modPhase = s.modPhase ∧
    (refReadySet g s).shift = s.shift ∧ (refReadySet g s).segIdent = s.segIdent ∧ (refReadySet g s).fv = s.fv ∧
    (refReadySet g s).out = s.out := by
  simp [refReadySet]

@[simp] theorem refbufWrite_frame (r : Role) (g : Nat) (v : Nat) (s : State) :
    (refbufWrite r g v s).st.pending = s.pending ∧ (refbufWrite r g v s).st.power = s.power ∧
    (refbufWrite r g v s).st.time = s.time ∧ (refbufWrite r g v s).st.conf = s.conf ∧
    (refbufWrite r g v s).st.act = s.act ∧ (refbufWrite r g v s).st.dict = s.dict ∧
    (refbufWrite r g v s).st.store = s.store ∧ (refbufWrite r g v s).st.health = s.health ∧
    (refbufWrite r g v s).st.ref = s.ref ∧ (refbufWrite r g v s).st.cal = s.cal ∧
    (refbufWrite r g v s).st.groups = s.groups ∧ (refbufWrite r g v s).st.map = s.map ∧
    (refbufWrite r g v s).st.streams = s.streams ∧ (refbufWrite r g v s).st.frame = s.frame ∧
    (refbufWrite r g v s).st.buf = s.buf ∧ (refbufWrite r g v s).st.link = s.link ∧
    (refbufWrite r g v s).st.units = s.units ∧ (refbufWrite r g v s).st.outs = s.outs ∧
    (refbufWrite r g v s).st.aux = s.aux ∧ (refbufWrite r g v s).st.ev = s.ev ∧ (refbufWrite r g v s).st.ptp = s.ptp ∧
    (refbufWrite r g v s).st.modPhase = s.modPhase ∧ (refbufWrite r g v s).st.shift = s.shift ∧
    (refbufWrite r g v s).st.segIdent = s.segIdent ∧ (refbufWrite r g v s).st.fv = s.fv ∧
    (refbufWrite r g v s).st.out = s.out := by
  unfold refbufWrite gate; dsimp only; (repeat' split) <;> first | rfl | simp

@[simp] theorem bufCheck_frame (g : Nat) (s : State) :
    (bufCheck g s).pending = s.pending ∧ (bufCheck g s).time = s.time ∧ (bufCheck g s).dict = s.dict ∧
    (bufCheck g s).store = s.store ∧ (bufCheck g s).clocks = s.clocks ∧ (bufCheck g s).ref = s.ref ∧
    (bufCheck g s).map = s.map ∧ (bufCheck g s).frame = s.frame ∧ (bufCheck g s).aux = s.aux ∧
    (bufCheck g s).ptp = s.ptp ∧ (bufCheck g s).modPhase = s.modPhase ∧ (bufCheck g s).shift = s.shift ∧
    (bufCheck g s).segIdent = s.segIdent ∧ (bufCheck g s).out = s.out ∧ (bufCheck g s).conf.cfg = s.conf.cfg ∧
    (bufCheck g s).power.vmain = s.power.vmain := by
  simp [bufCheck]

@[simp] theorem calAgain_frame (s : State) :
    (calAgain s).pending = s.pending ∧ (calAgain s).power = s.power ∧ (calAgain s).time = s.time ∧
    (calAgain s).conf = s.conf ∧ (calAgain s).act = s.act ∧ (calAgain s).dict = s.dict ∧
    (calAgain s).store = s.store ∧ (calAgain s).health = s.health ∧ (calAgain s).clocks = s.clocks ∧
    (calAgain s).chans = s.chans ∧ (calAgain s).dies = s.dies ∧ (calAgain s).ref = s.ref ∧
    (calAgain s).groups = s.groups ∧ (calAgain s).map = s.map ∧ (calAgain s).streams = s.streams ∧
    (calAgain s).frame = s.frame ∧ (calAgain s).buf = s.buf ∧ (calAgain s).link = s.link ∧
    (calAgain s).units = s.units ∧ (calAgain s).outs = s.outs ∧ (calAgain s).aux = s.aux ∧ (calAgain s).ev = s.ev ∧
    (calAgain s).ptp = s.ptp ∧ (calAgain s).modPhase = s.modPhase ∧ (calAgain s).shift = s.shift ∧
    (calAgain s).segIdent = s.segIdent ∧ (calAgain s).fv = s.fv ∧ (calAgain s).out = s.out := by
  simp [calAgain]

@[simp] theorem refChange_frame (k : Int) (s : State) :
    (refChange k s).pending = s.pending ∧ (refChange k s).power = s.power ∧ (refChange k s).time = s.time ∧
    (refChange k s).conf = s.conf ∧ (refChange k s).act = s.act ∧ (refChange k s).dict = s.dict ∧
    (refChange k s).health = s.health ∧ (refChange k s).clocks = s.clocks ∧ (refChange k s).groups = s.groups ∧
    (refChange k s).map = s.map ∧ (refChange k s).streams = s.streams ∧ (refChange k s).frame = s.frame ∧
    (refChange k s).buf = s.buf ∧ (refChange k s).link = s.link ∧ (refChange k s).units = s.units ∧
    (refChange k s).outs = s.outs ∧ (refChange k s).aux = s.aux ∧ (refChange k s).ev = s.ev ∧
    (refChange k s).ptp = s.ptp ∧ (refChange k s).modPhase = s.modPhase ∧ (refChange k s).shift = s.shift ∧
    (refChange k s).segIdent = s.segIdent ∧ (refChange k s).fv = s.fv ∧ (refChange k s).out = s.out := by
  simp [refChange]

@[simp] theorem retirePrimary_frame (codes : List Int) (s : State) :
    (retirePrimary codes s).pending = s.pending ∧ (retirePrimary codes s).power = s.power ∧
    (retirePrimary codes s).time = s.time ∧ (retirePrimary codes s).conf = s.conf ∧
    (retirePrimary codes s).act = s.act ∧ (retirePrimary codes s).dict = s.dict ∧
    (retirePrimary codes s).clocks = s.clocks ∧ (retirePrimary codes s).groups = s.groups ∧
    (retirePrimary codes s).map = s.map ∧ (retirePrimary codes s).streams = s.streams ∧
    (retirePrimary codes s).frame = s.frame ∧ (retirePrimary codes s).buf = s.buf ∧
    (retirePrimary codes s).link = s.link ∧ (retirePrimary codes s).units = s.units ∧
    (retirePrimary codes s).outs = s.outs ∧ (retirePrimary codes s).aux = s.aux ∧ (retirePrimary codes s).ev = s.ev ∧
    (retirePrimary codes s).ptp = s.ptp ∧ (retirePrimary codes s).modPhase = s.modPhase ∧
    (retirePrimary codes s).shift = s.shift ∧ (retirePrimary codes s).segIdent = s.segIdent ∧
    (retirePrimary codes s).fv = s.fv ∧ (retirePrimary codes s).out = s.out := by
  simp [retirePrimary]

@[simp] theorem judgeZener_frame (code : Int) (clip : Bool) (s : State) :
    (judgeZener code clip s).pending = s.pending ∧ (judgeZener code clip s).time = s.time ∧
    (judgeZener code clip s).conf = s.conf ∧ (judgeZener code clip s).act = s.act ∧
    (judgeZener code clip s).dict = s.dict ∧ (judgeZener code clip s).clocks = s.clocks ∧
    (judgeZener code clip s).groups = s.groups ∧ (judgeZener code clip s).map = s.map ∧
    (judgeZener code clip s).streams = s.streams ∧ (judgeZener code clip s).frame = s.frame ∧
    (judgeZener code clip s).buf = s.buf ∧ (judgeZener code clip s).link = s.link ∧
    (judgeZener code clip s).units = s.units ∧ (judgeZener code clip s).outs = s.outs ∧
    (judgeZener code clip s).aux = s.aux ∧ (judgeZener code clip s).ev = s.ev ∧ (judgeZener code clip s).ptp = s.ptp ∧
    (judgeZener code clip s).modPhase = s.modPhase ∧ (judgeZener code clip s).shift = s.shift ∧
    (judgeZener code clip s).segIdent = s.segIdent ∧ (judgeZener code clip s).fv = s.fv ∧
    (judgeZener code clip s).out = s.out ∧ (judgeZener code clip s).power.vmain = s.power.vmain ∧
    (judgeZener code clip s).power.mode = s.power.mode := by
  simp only [judgeZener]; (repeat' split) <;> simp

@[simp] theorem supervise_frame (arrived : List (Nat × Int × Bool)) (s : State) :
    (supervise arrived s).pending = s.pending ∧ (supervise arrived s).time = s.time ∧
    (supervise arrived s).dict = s.dict ∧ (supervise arrived s).clocks = s.clocks ∧
    (supervise arrived s).map = s.map ∧ (supervise arrived s).frame = s.frame ∧ (supervise arrived s).aux = s.aux ∧
    (supervise arrived s).ptp = s.ptp ∧ (supervise arrived s).modPhase = s.modPhase ∧
    (supervise arrived s).shift = s.shift ∧ (supervise arrived s).segIdent = s.segIdent ∧
    (supervise arrived s).out = s.out ∧ (supervise arrived s).conf.cfg = s.conf.cfg ∧
    (supervise arrived s).power.vmain = s.power.vmain := by
  simp [supervise]

@[simp] theorem calStartWrite_frame (r : Role) (v : BitVec 8) (s : State) :
    (calStartWrite r v s).st.pending = s.pending ∧ (calStartWrite r v s).st.power = s.power ∧
    (calStartWrite r v s).st.time = s.time ∧ (calStartWrite r v s).st.conf = s.conf ∧
    (calStartWrite r v s).st.act = s.act ∧ (calStartWrite r v s).st.dict = s.dict ∧
    (calStartWrite r v s).st.store = s.store ∧ (calStartWrite r v s).st.health = s.health ∧
    (calStartWrite r v s).st.clocks = s.clocks ∧ (calStartWrite r v s).st.chans = s.chans ∧
    (calStartWrite r v s).st.dies = s.dies ∧ (calStartWrite r v s).st.ref = s.ref ∧
    (calStartWrite r v s).st.groups = s.groups ∧ (calStartWrite r v s).st.map = s.map ∧
    (calStartWrite r v s).st.streams = s.streams ∧ (calStartWrite r v s).st.frame = s.frame ∧
    (calStartWrite r v s).st.buf = s.buf ∧ (calStartWrite r v s).st.link = s.link ∧
    (calStartWrite r v s).st.units = s.units ∧ (calStartWrite r v s).st.outs = s.outs ∧
    (calStartWrite r v s).st.aux = s.aux ∧ (calStartWrite r v s).st.ev = s.ev ∧ (calStartWrite r v s).st.ptp = s.ptp ∧
    (calStartWrite r v s).st.modPhase = s.modPhase ∧ (calStartWrite r v s).st.shift = s.shift ∧
    (calStartWrite r v s).st.segIdent = s.segIdent ∧ (calStartWrite r v s).st.fv = s.fv ∧
    (calStartWrite r v s).st.out = s.out := by
  unfold calStartWrite gate; dsimp only; (repeat' split) <;> first | rfl | simp

@[simp] theorem calBegin_frame (mask : Nat) (s : State) :
    (calBegin mask s).pending = s.pending ∧ (calBegin mask s).power = s.power ∧ (calBegin mask s).time = s.time ∧
    (calBegin mask s).conf = s.conf ∧ (calBegin mask s).act = s.act ∧ (calBegin mask s).dict = s.dict ∧
    (calBegin mask s).store = s.store ∧ (calBegin mask s).health = s.health ∧ (calBegin mask s).clocks = s.clocks ∧
    (calBegin mask s).ref = s.ref ∧ (calBegin mask s).groups = s.groups ∧ (calBegin mask s).map = s.map ∧
    (calBegin mask s).streams = s.streams ∧ (calBegin mask s).frame = s.frame ∧ (calBegin mask s).buf = s.buf ∧
    (calBegin mask s).link = s.link ∧ (calBegin mask s).units = s.units ∧ (calBegin mask s).outs = s.outs ∧
    (calBegin mask s).ev = s.ev ∧ (calBegin mask s).ptp = s.ptp ∧ (calBegin mask s).modPhase = s.modPhase ∧
    (calBegin mask s).shift = s.shift ∧ (calBegin mask s).segIdent = s.segIdent ∧ (calBegin mask s).fv = s.fv ∧
    (calBegin mask s).out = s.out := by
  simp [calBegin]

@[simp] theorem calC0_frame (s : State) :
    (calC0 s).pending = s.pending ∧ (calC0 s).time = s.time ∧ (calC0 s).conf = s.conf ∧ (calC0 s).act = s.act ∧
    (calC0 s).dict = s.dict ∧ (calC0 s).store = s.store ∧ (calC0 s).health = s.health ∧ (calC0 s).clocks = s.clocks ∧
    (calC0 s).ref = s.ref ∧ (calC0 s).groups = s.groups ∧ (calC0 s).map = s.map ∧ (calC0 s).streams = s.streams ∧
    (calC0 s).frame = s.frame ∧ (calC0 s).buf = s.buf ∧ (calC0 s).link = s.link ∧ (calC0 s).units = s.units ∧
    (calC0 s).ev = s.ev ∧ (calC0 s).ptp = s.ptp ∧ (calC0 s).modPhase = s.modPhase ∧ (calC0 s).shift = s.shift ∧
    (calC0 s).segIdent = s.segIdent ∧ (calC0 s).fv = s.fv ∧ (calC0 s).out = s.out ∧
    (calC0 s).power.vmain = s.power.vmain := by
  simp [calC0]

@[simp] theorem calRestart_frame (s : State) :
    (calRestart s).pending = s.pending ∧ (calRestart s).power = s.power ∧ (calRestart s).time = s.time ∧
    (calRestart s).conf = s.conf ∧ (calRestart s).act = s.act ∧ (calRestart s).dict = s.dict ∧
    (calRestart s).store = s.store ∧ (calRestart s).health = s.health ∧ (calRestart s).clocks = s.clocks ∧
    (calRestart s).ref = s.ref ∧ (calRestart s).groups = s.groups ∧ (calRestart s).map = s.map ∧
    (calRestart s).streams = s.streams ∧ (calRestart s).frame = s.frame ∧ (calRestart s).buf = s.buf ∧
    (calRestart s).link = s.link ∧ (calRestart s).units = s.units ∧ (calRestart s).outs = s.outs ∧
    (calRestart s).ev = s.ev ∧ (calRestart s).ptp = s.ptp ∧ (calRestart s).modPhase = s.modPhase ∧
    (calRestart s).shift = s.shift ∧ (calRestart s).segIdent = s.segIdent ∧ (calRestart s).fv = s.fv ∧
    (calRestart s).out = s.out := by
  simp [calRestart]

@[simp] theorem calRetire_frame (g k : Nat) (s : State) :
    (calRetire g k s).pending = s.pending ∧ (calRetire g k s).power = s.power ∧ (calRetire g k s).time = s.time ∧
    (calRetire g k s).conf = s.conf ∧ (calRetire g k s).act = s.act ∧ (calRetire g k s).dict = s.dict ∧
    (calRetire g k s).clocks = s.clocks ∧ (calRetire g k s).ref = s.ref ∧ (calRetire g k s).groups = s.groups ∧
    (calRetire g k s).map = s.map ∧ (calRetire g k s).frame = s.frame ∧ (calRetire g k s).link = s.link ∧
    (calRetire g k s).outs = s.outs ∧ (calRetire g k s).aux = s.aux ∧ (calRetire g k s).ev = s.ev ∧
    (calRetire g k s).ptp = s.ptp ∧ (calRetire g k s).modPhase = s.modPhase ∧ (calRetire g k s).shift = s.shift ∧
    (calRetire g k s).segIdent = s.segIdent ∧ (calRetire g k s).fv = s.fv ∧ (calRetire g k s).out = s.out := by
  simp [calRetire]

@[simp] theorem calFail_frame (bad : Nat → Nat → Bool) (s : State) :
    (calFail bad s).1.pending = s.pending ∧ (calFail bad s).1.power = s.power ∧ (calFail bad s).1.time = s.time ∧
    (calFail bad s).1.conf = s.conf ∧ (calFail bad s).1.act = s.act ∧ (calFail bad s).1.dict = s.dict ∧
    (calFail bad s).1.clocks = s.clocks ∧ (calFail bad s).1.ref = s.ref ∧ (calFail bad s).1.groups = s.groups ∧
    (calFail bad s).1.map = s.map ∧ (calFail bad s).1.frame = s.frame ∧ (calFail bad s).1.link = s.link ∧
    (calFail bad s).1.outs = s.outs ∧ (calFail bad s).1.aux = s.aux ∧ (calFail bad s).1.ev = s.ev ∧
    (calFail bad s).1.ptp = s.ptp ∧ (calFail bad s).1.modPhase = s.modPhase ∧ (calFail bad s).1.shift = s.shift ∧
    (calFail bad s).1.segIdent = s.segIdent ∧ (calFail bad s).1.fv = s.fv ∧ (calFail bad s).1.out = s.out := by
  unfold calFail; dsimp only; simp

@[simp] theorem calStep3_frame (l : List SliceMeas) (s : State) :
    (calStep3 l s).pending = s.pending ∧ (calStep3 l s).power = s.power ∧ (calStep3 l s).time = s.time ∧
    (calStep3 l s).conf = s.conf ∧ (calStep3 l s).act = s.act ∧ (calStep3 l s).dict = s.dict ∧
    (calStep3 l s).clocks = s.clocks ∧ (calStep3 l s).ref = s.ref ∧ (calStep3 l s).groups = s.groups ∧
    (calStep3 l s).map = s.map ∧ (calStep3 l s).frame = s.frame ∧ (calStep3 l s).link = s.link ∧
    (calStep3 l s).outs = s.outs ∧ (calStep3 l s).aux = s.aux ∧ (calStep3 l s).ev = s.ev ∧
    (calStep3 l s).ptp = s.ptp ∧ (calStep3 l s).modPhase = s.modPhase ∧ (calStep3 l s).shift = s.shift ∧
    (calStep3 l s).segIdent = s.segIdent ∧ (calStep3 l s).fv = s.fv ∧ (calStep3 l s).out = s.out := by
  simp [calStep3]

@[simp] theorem calStep5_frame (pairs : List PairMeas) (levels : List LevelMeas) (s : State) :
    (calStep5 pairs levels s).pending = s.pending ∧ (calStep5 pairs levels s).power = s.power ∧
    (calStep5 pairs levels s).time = s.time ∧ (calStep5 pairs levels s).conf = s.conf ∧
    (calStep5 pairs levels s).act = s.act ∧ (calStep5 pairs levels s).dict = s.dict ∧
    (calStep5 pairs levels s).clocks = s.clocks ∧ (calStep5 pairs levels s).ref = s.ref ∧
    (calStep5 pairs levels s).groups = s.groups ∧ (calStep5 pairs levels s).map = s.map ∧
    (calStep5 pairs levels s).frame = s.frame ∧ (calStep5 pairs levels s).link = s.link ∧
    (calStep5 pairs levels s).outs = s.outs ∧ (calStep5 pairs levels s).aux = s.aux ∧
    (calStep5 pairs levels s).ev = s.ev ∧ (calStep5 pairs levels s).ptp = s.ptp ∧
    (calStep5 pairs levels s).modPhase = s.modPhase ∧ (calStep5 pairs levels s).shift = s.shift ∧
    (calStep5 pairs levels s).segIdent = s.segIdent ∧ (calStep5 pairs levels s).fv = s.fv ∧
    (calStep5 pairs levels s).out = s.out := by
  simp [calStep5]

@[simp] theorem calStep6_frame (s : State) :
    (calStep6 s).pending = s.pending ∧ (calStep6 s).power = s.power ∧ (calStep6 s).time = s.time ∧
    (calStep6 s).conf = s.conf ∧ (calStep6 s).act = s.act ∧ (calStep6 s).dict = s.dict ∧
    (calStep6 s).health = s.health ∧ (calStep6 s).clocks = s.clocks ∧ (calStep6 s).groups = s.groups ∧
    (calStep6 s).map = s.map ∧ (calStep6 s).streams = s.streams ∧ (calStep6 s).frame = s.frame ∧
    (calStep6 s).buf = s.buf ∧ (calStep6 s).link = s.link ∧ (calStep6 s).units = s.units ∧
    (calStep6 s).outs = s.outs ∧ (calStep6 s).aux = s.aux ∧ (calStep6 s).ev = s.ev ∧ (calStep6 s).ptp = s.ptp ∧
    (calStep6 s).modPhase = s.modPhase ∧ (calStep6 s).shift = s.shift ∧ (calStep6 s).segIdent = s.segIdent ∧
    (calStep6 s).fv = s.fv ∧ (calStep6 s).out = s.out := by
  simp [calStep6]

@[simp] theorem calChan_frame (c e : Nat) (s : State) :
    (calChan c e s).pending = s.pending ∧ (calChan c e s).power = s.power ∧ (calChan c e s).time = s.time ∧
    (calChan c e s).conf = s.conf ∧ (calChan c e s).act = s.act ∧ (calChan c e s).dict = s.dict ∧
    (calChan c e s).store = s.store ∧ (calChan c e s).health = s.health ∧ (calChan c e s).clocks = s.clocks ∧
    (calChan c e s).dies = s.dies ∧ (calChan c e s).ref = s.ref ∧ (calChan c e s).cal = s.cal ∧
    (calChan c e s).groups = s.groups ∧ (calChan c e s).map = s.map ∧ (calChan c e s).streams = s.streams ∧
    (calChan c e s).frame = s.frame ∧ (calChan c e s).buf = s.buf ∧ (calChan c e s).link = s.link ∧
    (calChan c e s).units = s.units ∧ (calChan c e s).outs = s.outs ∧ (calChan c e s).aux = s.aux ∧
    (calChan c e s).ev = s.ev ∧ (calChan c e s).ptp = s.ptp ∧ (calChan c e s).modPhase = s.modPhase ∧
    (calChan c e s).shift = s.shift ∧ (calChan c e s).segIdent = s.segIdent ∧ (calChan c e s).fv = s.fv ∧
    (calChan c e s).out = s.out := by
  simp [calChan]

@[simp] theorem calEnd_frame (s : State) :
    (calEnd s).pending = s.pending ∧ (calEnd s).time = s.time ∧ (calEnd s).dict = s.dict ∧
    (calEnd s).clocks = s.clocks ∧ (calEnd s).map = s.map ∧ (calEnd s).frame = s.frame ∧ (calEnd s).aux = s.aux ∧
    (calEnd s).ptp = s.ptp ∧ (calEnd s).modPhase = s.modPhase ∧ (calEnd s).shift = s.shift ∧
    (calEnd s).segIdent = s.segIdent ∧ (calEnd s).out = s.out ∧ (calEnd s).conf.cfg = s.conf.cfg ∧
    (calEnd s).power.vmain = s.power.vmain := by
  simp [calEnd]

@[simp] theorem setRate_frame (y : Rat) (s : State) :
    (setRate y s).pending = s.pending ∧ (setRate y s).power = s.power ∧ (setRate y s).conf = s.conf ∧
    (setRate y s).act = s.act ∧ (setRate y s).dict = s.dict ∧ (setRate y s).store = s.store ∧
    (setRate y s).health = s.health ∧ (setRate y s).clocks = s.clocks ∧ (setRate y s).chans = s.chans ∧
    (setRate y s).dies = s.dies ∧ (setRate y s).ref = s.ref ∧ (setRate y s).cal = s.cal ∧
    (setRate y s).groups = s.groups ∧ (setRate y s).map = s.map ∧ (setRate y s).streams = s.streams ∧
    (setRate y s).frame = s.frame ∧ (setRate y s).buf = s.buf ∧ (setRate y s).link = s.link ∧
    (setRate y s).units = s.units ∧ (setRate y s).outs = s.outs ∧ (setRate y s).aux = s.aux ∧
    (setRate y s).ev = s.ev ∧ (setRate y s).modPhase = s.modPhase ∧ (setRate y s).shift = s.shift ∧
    (setRate y s).segIdent = s.segIdent ∧ (setRate y s).fv = s.fv ∧ (setRate y s).out = s.out ∧
    (setRate y s).time.tw = s.time.tw ∧ (setRate y s).time.quality = s.time.quality ∧
    (setRate y s).time.epoch = s.time.epoch := by
  simp [setRate]

@[simp] theorem enterHoldover_frame (manual : Bool) (s : State) :
    (enterHoldover manual s).pending = s.pending ∧ (enterHoldover manual s).power = s.power ∧
    (enterHoldover manual s).conf = s.conf ∧ (enterHoldover manual s).act = s.act ∧
    (enterHoldover manual s).dict = s.dict ∧ (enterHoldover manual s).store = s.store ∧
    (enterHoldover manual s).health = s.health ∧ (enterHoldover manual s).clocks = s.clocks ∧
    (enterHoldover manual s).chans = s.chans ∧ (enterHoldover manual s).dies = s.dies ∧
    (enterHoldover manual s).ref = s.ref ∧ (enterHoldover manual s).cal = s.cal ∧
    (enterHoldover manual s).groups = s.groups ∧ (enterHoldover manual s).map = s.map ∧
    (enterHoldover manual s).streams = s.streams ∧ (enterHoldover manual s).frame = s.frame ∧
    (enterHoldover manual s).buf = s.buf ∧ (enterHoldover manual s).link = s.link ∧
    (enterHoldover manual s).units = s.units ∧ (enterHoldover manual s).outs = s.outs ∧
    (enterHoldover manual s).aux = s.aux ∧ (enterHoldover manual s).ev = s.ev ∧
    (enterHoldover manual s).modPhase = s.modPhase ∧ (enterHoldover manual s).shift = s.shift ∧
    (enterHoldover manual s).segIdent = s.segIdent ∧ (enterHoldover manual s).fv = s.fv ∧
    (enterHoldover manual s).out = s.out ∧ (enterHoldover manual s).time.tw = s.time.tw ∧
    (enterHoldover manual s).time.epoch = s.time.epoch := by
  simp [enterHoldover]

@[simp] theorem setCause_frame (i : Nat) (s : State) :
    (setCause i s).pending = s.pending ∧ (setCause i s).power = s.power ∧ (setCause i s).conf = s.conf ∧
    (setCause i s).act = s.act ∧ (setCause i s).dict = s.dict ∧ (setCause i s).store = s.store ∧
    (setCause i s).clocks = s.clocks ∧ (setCause i s).chans = s.chans ∧ (setCause i s).dies = s.dies ∧
    (setCause i s).ref = s.ref ∧ (setCause i s).cal = s.cal ∧ (setCause i s).groups = s.groups ∧
    (setCause i s).map = s.map ∧ (setCause i s).streams = s.streams ∧ (setCause i s).frame = s.frame ∧
    (setCause i s).buf = s.buf ∧ (setCause i s).link = s.link ∧ (setCause i s).units = s.units ∧
    (setCause i s).outs = s.outs ∧ (setCause i s).aux = s.aux ∧ (setCause i s).ev = s.ev ∧
    (setCause i s).modPhase = s.modPhase ∧ (setCause i s).shift = s.shift ∧ (setCause i s).segIdent = s.segIdent ∧
    (setCause i s).fv = s.fv ∧ (setCause i s).out = s.out ∧ (setCause i s).time.tw = s.time.tw ∧
    (setCause i s).time.epoch = s.time.epoch := by
  simp [setCause]

@[simp] theorem jumpTest_frame (s : State) :
    (jumpTest s).pending = s.pending ∧ (jumpTest s).power = s.power ∧ (jumpTest s).conf = s.conf ∧
    (jumpTest s).act = s.act ∧ (jumpTest s).dict = s.dict ∧ (jumpTest s).store = s.store ∧
    (jumpTest s).clocks = s.clocks ∧ (jumpTest s).chans = s.chans ∧ (jumpTest s).dies = s.dies ∧
    (jumpTest s).ref = s.ref ∧ (jumpTest s).cal = s.cal ∧ (jumpTest s).groups = s.groups ∧ (jumpTest s).map = s.map ∧
    (jumpTest s).streams = s.streams ∧ (jumpTest s).frame = s.frame ∧ (jumpTest s).buf = s.buf ∧
    (jumpTest s).link = s.link ∧ (jumpTest s).units = s.units ∧ (jumpTest s).outs = s.outs ∧
    (jumpTest s).aux = s.aux ∧ (jumpTest s).ev = s.ev ∧ (jumpTest s).modPhase = s.modPhase ∧
    (jumpTest s).shift = s.shift ∧ (jumpTest s).segIdent = s.segIdent ∧ (jumpTest s).fv = s.fv ∧
    (jumpTest s).out = s.out ∧ (jumpTest s).time.tw = s.time.tw ∧ (jumpTest s).time.epoch = s.time.epoch := by
  simp [jumpTest]

@[simp] theorem leaveHoldover_frame (s : State) :
    (leaveHoldover s).pending = s.pending ∧ (leaveHoldover s).power = s.power ∧ (leaveHoldover s).conf = s.conf ∧
    (leaveHoldover s).act = s.act ∧ (leaveHoldover s).dict = s.dict ∧ (leaveHoldover s).store = s.store ∧
    (leaveHoldover s).health = s.health ∧ (leaveHoldover s).clocks = s.clocks ∧ (leaveHoldover s).chans = s.chans ∧
    (leaveHoldover s).dies = s.dies ∧ (leaveHoldover s).ref = s.ref ∧ (leaveHoldover s).cal = s.cal ∧
    (leaveHoldover s).groups = s.groups ∧ (leaveHoldover s).map = s.map ∧ (leaveHoldover s).streams = s.streams ∧
    (leaveHoldover s).frame = s.frame ∧ (leaveHoldover s).buf = s.buf ∧ (leaveHoldover s).link = s.link ∧
    (leaveHoldover s).units = s.units ∧ (leaveHoldover s).outs = s.outs ∧ (leaveHoldover s).aux = s.aux ∧
    (leaveHoldover s).ev = s.ev ∧ (leaveHoldover s).ptp = s.ptp ∧ (leaveHoldover s).modPhase = s.modPhase ∧
    (leaveHoldover s).shift = s.shift ∧ (leaveHoldover s).segIdent = s.segIdent ∧ (leaveHoldover s).fv = s.fv ∧
    (leaveHoldover s).out = s.out ∧ (leaveHoldover s).time.tw = s.time.tw ∧
    (leaveHoldover s).time.epoch = s.time.epoch := by
  simp [leaveHoldover]

@[simp] theorem clearCause_frame (i : Nat) (s : State) :
    (clearCause i s).pending = s.pending ∧ (clearCause i s).power = s.power ∧ (clearCause i s).conf = s.conf ∧
    (clearCause i s).act = s.act ∧ (clearCause i s).dict = s.dict ∧ (clearCause i s).store = s.store ∧
    (clearCause i s).clocks = s.clocks ∧ (clearCause i s).chans = s.chans ∧ (clearCause i s).dies = s.dies ∧
    (clearCause i s).ref = s.ref ∧ (clearCause i s).cal = s.cal ∧ (clearCause i s).groups = s.groups ∧
    (clearCause i s).map = s.map ∧ (clearCause i s).streams = s.streams ∧ (clearCause i s).frame = s.frame ∧
    (clearCause i s).buf = s.buf ∧ (clearCause i s).link = s.link ∧ (clearCause i s).units = s.units ∧
    (clearCause i s).outs = s.outs ∧ (clearCause i s).aux = s.aux ∧ (clearCause i s).ev = s.ev ∧
    (clearCause i s).modPhase = s.modPhase ∧ (clearCause i s).shift = s.shift ∧
    (clearCause i s).segIdent = s.segIdent ∧ (clearCause i s).fv = s.fv ∧ (clearCause i s).out = s.out ∧
    (clearCause i s).time.tw = s.time.tw ∧ (clearCause i s).time.epoch = s.time.epoch := by
  simp [clearCause]

@[simp] theorem portChangeEnd_frame (s : State) :
    (portChangeEnd s).pending = s.pending ∧ (portChangeEnd s).power = s.power ∧ (portChangeEnd s).conf = s.conf ∧
    (portChangeEnd s).act = s.act ∧ (portChangeEnd s).dict = s.dict ∧ (portChangeEnd s).store = s.store ∧
    (portChangeEnd s).clocks = s.clocks ∧ (portChangeEnd s).chans = s.chans ∧ (portChangeEnd s).dies = s.dies ∧
    (portChangeEnd s).ref = s.ref ∧ (portChangeEnd s).cal = s.cal ∧ (portChangeEnd s).groups = s.groups ∧
    (portChangeEnd s).map = s.map ∧ (portChangeEnd s).streams = s.streams ∧ (portChangeEnd s).frame = s.frame ∧
    (portChangeEnd s).buf = s.buf ∧ (portChangeEnd s).link = s.link ∧ (portChangeEnd s).units = s.units ∧
    (portChangeEnd s).outs = s.outs ∧ (portChangeEnd s).aux = s.aux ∧ (portChangeEnd s).ev = s.ev ∧
    (portChangeEnd s).modPhase = s.modPhase ∧ (portChangeEnd s).shift = s.shift ∧
    (portChangeEnd s).segIdent = s.segIdent ∧ (portChangeEnd s).fv = s.fv ∧ (portChangeEnd s).out = s.out ∧
    (portChangeEnd s).time.tw = s.time.tw ∧ (portChangeEnd s).time.epoch = s.time.epoch := by
  simp [portChangeEnd]

@[simp] theorem holdoverOffset_frame (s : State) :
    (holdoverOffset s).pending = s.pending ∧ (holdoverOffset s).power = s.power ∧ (holdoverOffset s).conf = s.conf ∧
    (holdoverOffset s).act = s.act ∧ (holdoverOffset s).dict = s.dict ∧ (holdoverOffset s).store = s.store ∧
    (holdoverOffset s).clocks = s.clocks ∧ (holdoverOffset s).chans = s.chans ∧ (holdoverOffset s).dies = s.dies ∧
    (holdoverOffset s).ref = s.ref ∧ (holdoverOffset s).cal = s.cal ∧ (holdoverOffset s).groups = s.groups ∧
    (holdoverOffset s).map = s.map ∧ (holdoverOffset s).streams = s.streams ∧ (holdoverOffset s).frame = s.frame ∧
    (holdoverOffset s).buf = s.buf ∧ (holdoverOffset s).link = s.link ∧ (holdoverOffset s).units = s.units ∧
    (holdoverOffset s).outs = s.outs ∧ (holdoverOffset s).aux = s.aux ∧ (holdoverOffset s).ev = s.ev ∧
    (holdoverOffset s).modPhase = s.modPhase ∧ (holdoverOffset s).shift = s.shift ∧
    (holdoverOffset s).segIdent = s.segIdent ∧ (holdoverOffset s).fv = s.fv ∧ (holdoverOffset s).out = s.out ∧
    (holdoverOffset s).time.tw = s.time.tw ∧ (holdoverOffset s).time.epoch = s.time.epoch := by
  simp [holdoverOffset]

@[simp] theorem servoUpdate_frame (theta : Int) (s : State) :
    (servoUpdate theta s).pending = s.pending ∧ (servoUpdate theta s).power = s.power ∧
    (servoUpdate theta s).conf = s.conf ∧ (servoUpdate theta s).act = s.act ∧ (servoUpdate theta s).dict = s.dict ∧
    (servoUpdate theta s).store = s.store ∧ (servoUpdate theta s).clocks = s.clocks ∧
    (servoUpdate theta s).chans = s.chans ∧ (servoUpdate theta s).dies = s.dies ∧ (servoUpdate theta s).ref = s.ref ∧
    (servoUpdate theta s).cal = s.cal ∧ (servoUpdate theta s).groups = s.groups ∧ (servoUpdate theta s).map = s.map ∧
    (servoUpdate theta s).streams = s.streams ∧ (servoUpdate theta s).frame = s.frame ∧
    (servoUpdate theta s).buf = s.buf ∧ (servoUpdate theta s).link = s.link ∧ (servoUpdate theta s).units = s.units ∧
    (servoUpdate theta s).outs = s.outs ∧ (servoUpdate theta s).aux = s.aux ∧ (servoUpdate theta s).ev = s.ev ∧
    (servoUpdate theta s).modPhase = s.modPhase ∧ (servoUpdate theta s).shift = s.shift ∧
    (servoUpdate theta s).segIdent = s.segIdent ∧ (servoUpdate theta s).fv = s.fv ∧
    (servoUpdate theta s).out = s.out ∧ (servoUpdate theta s).time.tw = s.time.tw ∧
    (servoUpdate theta s).time.epoch = s.time.epoch := by
  simp [servoUpdate]

@[simp] theorem gateOffset_frame (theta : Int) (s : State) :
    (gateOffset theta s).pending = s.pending ∧ (gateOffset theta s).power = s.power ∧
    (gateOffset theta s).conf = s.conf ∧ (gateOffset theta s).act = s.act ∧ (gateOffset theta s).dict = s.dict ∧
    (gateOffset theta s).store = s.store ∧ (gateOffset theta s).clocks = s.clocks ∧
    (gateOffset theta s).chans = s.chans ∧ (gateOffset theta s).dies = s.dies ∧ (gateOffset theta s).ref = s.ref ∧
    (gateOffset theta s).cal = s.cal ∧ (gateOffset theta s).groups = s.groups ∧ (gateOffset theta s).map = s.map ∧
    (gateOffset theta s).streams = s.streams ∧ (gateOffset theta s).frame = s.frame ∧
    (gateOffset theta s).buf = s.buf ∧ (gateOffset theta s).link = s.link ∧ (gateOffset theta s).units = s.units ∧
    (gateOffset theta s).outs = s.outs ∧ (gateOffset theta s).aux = s.aux ∧ (gateOffset theta s).ev = s.ev ∧
    (gateOffset theta s).modPhase = s.modPhase ∧ (gateOffset theta s).shift = s.shift ∧
    (gateOffset theta s).segIdent = s.segIdent ∧ (gateOffset theta s).fv = s.fv ∧ (gateOffset theta s).out = s.out ∧
    (gateOffset theta s).time.tw = s.time.tw ∧ (gateOffset theta s).time.epoch = s.time.epoch := by
  simp [gateOffset]

@[simp] theorem takeOffset_frame (theta : Int) (s : State) :
    (takeOffset theta s).pending = s.pending ∧ (takeOffset theta s).power = s.power ∧
    (takeOffset theta s).conf = s.conf ∧ (takeOffset theta s).act = s.act ∧ (takeOffset theta s).dict = s.dict ∧
    (takeOffset theta s).store = s.store ∧ (takeOffset theta s).clocks = s.clocks ∧
    (takeOffset theta s).chans = s.chans ∧ (takeOffset theta s).dies = s.dies ∧ (takeOffset theta s).ref = s.ref ∧
    (takeOffset theta s).cal = s.cal ∧ (takeOffset theta s).groups = s.groups ∧ (takeOffset theta s).map = s.map ∧
    (takeOffset theta s).streams = s.streams ∧ (takeOffset theta s).frame = s.frame ∧
    (takeOffset theta s).buf = s.buf ∧ (takeOffset theta s).link = s.link ∧ (takeOffset theta s).units = s.units ∧
    (takeOffset theta s).outs = s.outs ∧ (takeOffset theta s).aux = s.aux ∧ (takeOffset theta s).ev = s.ev ∧
    (takeOffset theta s).modPhase = s.modPhase ∧ (takeOffset theta s).shift = s.shift ∧
    (takeOffset theta s).segIdent = s.segIdent ∧ (takeOffset theta s).fv = s.fv ∧ (takeOffset theta s).out = s.out ∧
    (takeOffset theta s).time.tw = s.time.tw ∧ (takeOffset theta s).time.epoch = s.time.epoch := by
  simp only [takeOffset]; (repeat' split) <;> simp

@[simp] theorem missOffset_frame (s : State) :
    (missOffset s).pending = s.pending ∧ (missOffset s).power = s.power ∧ (missOffset s).time = s.time ∧
    (missOffset s).conf = s.conf ∧ (missOffset s).act = s.act ∧ (missOffset s).dict = s.dict ∧
    (missOffset s).store = s.store ∧ (missOffset s).health = s.health ∧ (missOffset s).clocks = s.clocks ∧
    (missOffset s).chans = s.chans ∧ (missOffset s).dies = s.dies ∧ (missOffset s).ref = s.ref ∧
    (missOffset s).cal = s.cal ∧ (missOffset s).groups = s.groups ∧ (missOffset s).map = s.map ∧
    (missOffset s).streams = s.streams ∧ (missOffset s).frame = s.frame ∧ (missOffset s).buf = s.buf ∧
    (missOffset s).link = s.link ∧ (missOffset s).units = s.units ∧ (missOffset s).outs = s.outs ∧
    (missOffset s).aux = s.aux ∧ (missOffset s).ev = s.ev ∧ (missOffset s).modPhase = s.modPhase ∧
    (missOffset s).shift = s.shift ∧ (missOffset s).segIdent = s.segIdent ∧ (missOffset s).fv = s.fv ∧
    (missOffset s).out = s.out := by
  simp [missOffset]

@[simp] theorem shiftOffsets_frame (delta : Int) (s : State) :
    (shiftOffsets delta s).power = s.power ∧ (shiftOffsets delta s).time = s.time ∧
    (shiftOffsets delta s).conf = s.conf ∧ (shiftOffsets delta s).act = s.act ∧ (shiftOffsets delta s).dict = s.dict ∧
    (shiftOffsets delta s).store = s.store ∧ (shiftOffsets delta s).health = s.health ∧
    (shiftOffsets delta s).clocks = s.clocks ∧ (shiftOffsets delta s).chans = s.chans ∧
    (shiftOffsets delta s).dies = s.dies ∧ (shiftOffsets delta s).ref = s.ref ∧ (shiftOffsets delta s).cal = s.cal ∧
    (shiftOffsets delta s).groups = s.groups ∧ (shiftOffsets delta s).map = s.map ∧
    (shiftOffsets delta s).streams = s.streams ∧ (shiftOffsets delta s).frame = s.frame ∧
    (shiftOffsets delta s).buf = s.buf ∧ (shiftOffsets delta s).link = s.link ∧
    (shiftOffsets delta s).units = s.units ∧ (shiftOffsets delta s).outs = s.outs ∧
    (shiftOffsets delta s).aux = s.aux ∧ (shiftOffsets delta s).ev = s.ev ∧
    (shiftOffsets delta s).modPhase = s.modPhase ∧ (shiftOffsets delta s).shift = s.shift ∧
    (shiftOffsets delta s).segIdent = s.segIdent ∧ (shiftOffsets delta s).fv = s.fv ∧
    (shiftOffsets delta s).out = s.out := by
  simp [shiftOffsets]

@[simp] theorem suspectTick_frame (s : State) :
    (suspectTick s).pending = s.pending ∧ (suspectTick s).power = s.power ∧ (suspectTick s).time = s.time ∧
    (suspectTick s).conf = s.conf ∧ (suspectTick s).act = s.act ∧ (suspectTick s).dict = s.dict ∧
    (suspectTick s).store = s.store ∧ (suspectTick s).health = s.health ∧ (suspectTick s).clocks = s.clocks ∧
    (suspectTick s).chans = s.chans ∧ (suspectTick s).dies = s.dies ∧ (suspectTick s).ref = s.ref ∧
    (suspectTick s).cal = s.cal ∧ (suspectTick s).groups = s.groups ∧ (suspectTick s).map = s.map ∧
    (suspectTick s).streams = s.streams ∧ (suspectTick s).frame = s.frame ∧ (suspectTick s).buf = s.buf ∧
    (suspectTick s).link = s.link ∧ (suspectTick s).units = s.units ∧ (suspectTick s).outs = s.outs ∧
    (suspectTick s).aux = s.aux ∧ (suspectTick s).ev = s.ev ∧ (suspectTick s).modPhase = s.modPhase ∧
    (suspectTick s).shift = s.shift ∧ (suspectTick s).segIdent = s.segIdent ∧ (suspectTick s).fv = s.fv ∧
    (suspectTick s).out = s.out := by
  simp [suspectTick]

@[simp] theorem standingCauses_frame (s : State) :
    (standingCauses s).pending = s.pending ∧ (standingCauses s).power = s.power ∧ (standingCauses s).conf = s.conf ∧
    (standingCauses s).act = s.act ∧ (standingCauses s).dict = s.dict ∧ (standingCauses s).store = s.store ∧
    (standingCauses s).clocks = s.clocks ∧ (standingCauses s).chans = s.chans ∧ (standingCauses s).dies = s.dies ∧
    (standingCauses s).ref = s.ref ∧ (standingCauses s).cal = s.cal ∧ (standingCauses s).groups = s.groups ∧
    (standingCauses s).map = s.map ∧ (standingCauses s).streams = s.streams ∧ (standingCauses s).frame = s.frame ∧
    (standingCauses s).buf = s.buf ∧ (standingCauses s).link = s.link ∧ (standingCauses s).units = s.units ∧
    (standingCauses s).outs = s.outs ∧ (standingCauses s).aux = s.aux ∧ (standingCauses s).ev = s.ev ∧
    (standingCauses s).modPhase = s.modPhase ∧ (standingCauses s).shift = s.shift ∧
    (standingCauses s).segIdent = s.segIdent ∧ (standingCauses s).fv = s.fv ∧ (standingCauses s).out = s.out ∧
    (standingCauses s).time.tw = s.time.tw ∧ (standingCauses s).time.epoch = s.time.epoch := by
  simp [standingCauses]

@[simp] theorem ptpDiscard_frame (s : State) :
    (ptpDiscard s).pending = s.pending ∧ (ptpDiscard s).power = s.power ∧ (ptpDiscard s).time = s.time ∧
    (ptpDiscard s).conf = s.conf ∧ (ptpDiscard s).act = s.act ∧ (ptpDiscard s).dict = s.dict ∧
    (ptpDiscard s).store = s.store ∧ (ptpDiscard s).health = s.health ∧ (ptpDiscard s).clocks = s.clocks ∧
    (ptpDiscard s).chans = s.chans ∧ (ptpDiscard s).dies = s.dies ∧ (ptpDiscard s).ref = s.ref ∧
    (ptpDiscard s).cal = s.cal ∧ (ptpDiscard s).groups = s.groups ∧ (ptpDiscard s).map = s.map ∧
    (ptpDiscard s).streams = s.streams ∧ (ptpDiscard s).frame = s.frame ∧ (ptpDiscard s).buf = s.buf ∧
    (ptpDiscard s).link = s.link ∧ (ptpDiscard s).units = s.units ∧ (ptpDiscard s).outs = s.outs ∧
    (ptpDiscard s).aux = s.aux ∧ (ptpDiscard s).ev = s.ev ∧ (ptpDiscard s).modPhase = s.modPhase ∧
    (ptpDiscard s).shift = s.shift ∧ (ptpDiscard s).segIdent = s.segIdent ∧ (ptpDiscard s).fv = s.fv ∧
    (ptpDiscard s).out = s.out := by
  simp [ptpDiscard]

@[simp] theorem clearOffsets_frame (s : State) :
    (clearOffsets s).pending = s.pending ∧ (clearOffsets s).power = s.power ∧ (clearOffsets s).time = s.time ∧
    (clearOffsets s).conf = s.conf ∧ (clearOffsets s).act = s.act ∧ (clearOffsets s).dict = s.dict ∧
    (clearOffsets s).store = s.store ∧ (clearOffsets s).health = s.health ∧ (clearOffsets s).clocks = s.clocks ∧
    (clearOffsets s).chans = s.chans ∧ (clearOffsets s).dies = s.dies ∧ (clearOffsets s).ref = s.ref ∧
    (clearOffsets s).cal = s.cal ∧ (clearOffsets s).groups = s.groups ∧ (clearOffsets s).map = s.map ∧
    (clearOffsets s).streams = s.streams ∧ (clearOffsets s).frame = s.frame ∧ (clearOffsets s).buf = s.buf ∧
    (clearOffsets s).link = s.link ∧ (clearOffsets s).units = s.units ∧ (clearOffsets s).outs = s.outs ∧
    (clearOffsets s).aux = s.aux ∧ (clearOffsets s).ev = s.ev ∧ (clearOffsets s).modPhase = s.modPhase ∧
    (clearOffsets s).shift = s.shift ∧ (clearOffsets s).segIdent = s.segIdent ∧ (clearOffsets s).fv = s.fv ∧
    (clearOffsets s).out = s.out := by
  simp [clearOffsets]

@[simp] theorem masterLost_frame (s : State) :
    (masterLost s).pending = s.pending ∧ (masterLost s).power = s.power ∧ (masterLost s).conf = s.conf ∧
    (masterLost s).act = s.act ∧ (masterLost s).dict = s.dict ∧ (masterLost s).store = s.store ∧
    (masterLost s).clocks = s.clocks ∧ (masterLost s).chans = s.chans ∧ (masterLost s).dies = s.dies ∧
    (masterLost s).ref = s.ref ∧ (masterLost s).cal = s.cal ∧ (masterLost s).groups = s.groups ∧
    (masterLost s).map = s.map ∧ (masterLost s).streams = s.streams ∧ (masterLost s).frame = s.frame ∧
    (masterLost s).buf = s.buf ∧ (masterLost s).link = s.link ∧ (masterLost s).units = s.units ∧
    (masterLost s).outs = s.outs ∧ (masterLost s).aux = s.aux ∧ (masterLost s).ev = s.ev ∧
    (masterLost s).modPhase = s.modPhase ∧ (masterLost s).shift = s.shift ∧ (masterLost s).segIdent = s.segIdent ∧
    (masterLost s).fv = s.fv ∧ (masterLost s).out = s.out ∧ (masterLost s).time.tw = s.time.tw ∧
    (masterLost s).time.epoch = s.time.epoch := by
  simp [masterLost]

@[simp] theorem newMaster_frame (b : Announce) (s : State) :
    (newMaster b s).pending = s.pending ∧ (newMaster b s).power = s.power ∧ (newMaster b s).conf = s.conf ∧
    (newMaster b s).act = s.act ∧ (newMaster b s).dict = s.dict ∧ (newMaster b s).store = s.store ∧
    (newMaster b s).clocks = s.clocks ∧ (newMaster b s).chans = s.chans ∧ (newMaster b s).dies = s.dies ∧
    (newMaster b s).ref = s.ref ∧ (newMaster b s).cal = s.cal ∧ (newMaster b s).groups = s.groups ∧
    (newMaster b s).map = s.map ∧ (newMaster b s).streams = s.streams ∧ (newMaster b s).frame = s.frame ∧
    (newMaster b s).buf = s.buf ∧ (newMaster b s).link = s.link ∧ (newMaster b s).units = s.units ∧
    (newMaster b s).outs = s.outs ∧ (newMaster b s).aux = s.aux ∧ (newMaster b s).ev = s.ev ∧
    (newMaster b s).modPhase = s.modPhase ∧ (newMaster b s).shift = s.shift ∧ (newMaster b s).segIdent = s.segIdent ∧
    (newMaster b s).fv = s.fv ∧ (newMaster b s).out = s.out ∧ (newMaster b s).time.tw = s.time.tw ∧
    (newMaster b s).time.epoch = s.time.epoch := by
  simp only [newMaster]; (repeat' split) <;> simp

@[simp] theorem newTiming_frame (same : Bool) (b : Announce) (s : State) :
    (newTiming same b s).pending = s.pending ∧ (newTiming same b s).power = s.power ∧
    (newTiming same b s).conf = s.conf ∧ (newTiming same b s).act = s.act ∧ (newTiming same b s).dict = s.dict ∧
    (newTiming same b s).store = s.store ∧ (newTiming same b s).clocks = s.clocks ∧
    (newTiming same b s).chans = s.chans ∧ (newTiming same b s).dies = s.dies ∧ (newTiming same b s).ref = s.ref ∧
    (newTiming same b s).cal = s.cal ∧ (newTiming same b s).groups = s.groups ∧ (newTiming same b s).map = s.map ∧
    (newTiming same b s).streams = s.streams ∧ (newTiming same b s).frame = s.frame ∧
    (newTiming same b s).buf = s.buf ∧ (newTiming same b s).link = s.link ∧ (newTiming same b s).units = s.units ∧
    (newTiming same b s).outs = s.outs ∧ (newTiming same b s).aux = s.aux ∧ (newTiming same b s).ev = s.ev ∧
    (newTiming same b s).modPhase = s.modPhase ∧ (newTiming same b s).shift = s.shift ∧
    (newTiming same b s).segIdent = s.segIdent ∧ (newTiming same b s).fv = s.fv ∧ (newTiming same b s).out = s.out ∧
    (newTiming same b s).time.tw = s.time.tw ∧ (newTiming same b s).time.epoch = s.time.epoch := by
  simp only [newTiming]; (repeat' split) <;> simp

@[simp] theorem masterChoice_frame (s : State) :
    (masterChoice s).pending = s.pending ∧ (masterChoice s).power = s.power ∧ (masterChoice s).conf = s.conf ∧
    (masterChoice s).act = s.act ∧ (masterChoice s).dict = s.dict ∧ (masterChoice s).store = s.store ∧
    (masterChoice s).clocks = s.clocks ∧ (masterChoice s).chans = s.chans ∧ (masterChoice s).dies = s.dies ∧
    (masterChoice s).ref = s.ref ∧ (masterChoice s).cal = s.cal ∧ (masterChoice s).groups = s.groups ∧
    (masterChoice s).map = s.map ∧ (masterChoice s).streams = s.streams ∧ (masterChoice s).frame = s.frame ∧
    (masterChoice s).buf = s.buf ∧ (masterChoice s).link = s.link ∧ (masterChoice s).units = s.units ∧
    (masterChoice s).outs = s.outs ∧ (masterChoice s).aux = s.aux ∧ (masterChoice s).ev = s.ev ∧
    (masterChoice s).modPhase = s.modPhase ∧ (masterChoice s).shift = s.shift ∧
    (masterChoice s).segIdent = s.segIdent ∧ (masterChoice s).fv = s.fv ∧ (masterChoice s).out = s.out ∧
    (masterChoice s).time.tw = s.time.tw ∧ (masterChoice s).time.epoch = s.time.epoch := by
  unfold masterChoice; (repeat' split) <;> simp

@[simp] theorem masterUpdate_frame (s : State) :
    (masterUpdate s).pending = s.pending ∧ (masterUpdate s).conf = s.conf ∧ (masterUpdate s).act = s.act ∧
    (masterUpdate s).dict = s.dict ∧ (masterUpdate s).store = s.store ∧ (masterUpdate s).chans = s.chans ∧
    (masterUpdate s).dies = s.dies ∧ (masterUpdate s).ref = s.ref ∧ (masterUpdate s).groups = s.groups ∧
    (masterUpdate s).map = s.map ∧ (masterUpdate s).streams = s.streams ∧ (masterUpdate s).frame = s.frame ∧
    (masterUpdate s).buf = s.buf ∧ (masterUpdate s).link = s.link ∧ (masterUpdate s).units = s.units ∧
    (masterUpdate s).outs = s.outs ∧ (masterUpdate s).aux = s.aux ∧ (masterUpdate s).ev = s.ev ∧
    (masterUpdate s).modPhase = s.modPhase ∧ (masterUpdate s).shift = s.shift ∧
    (masterUpdate s).segIdent = s.segIdent ∧ (masterUpdate s).fv = s.fv ∧ (masterUpdate s).out = s.out ∧
    (masterUpdate s).power.vmain = s.power.vmain ∧ (masterUpdate s).power.mode = s.power.mode ∧
    (masterUpdate s).time.tw = s.time.tw ∧ (masterUpdate s).time.epoch = s.time.epoch := by
  simp [masterUpdate]

@[simp] theorem sendPtp_frame (q kind : Nat) (seq : BitVec 16) (c : Int) (s : State) :
    (sendPtp q kind seq c s).pending = s.pending ∧ (sendPtp q kind seq c s).power = s.power ∧
    (sendPtp q kind seq c s).time = s.time ∧ (sendPtp q kind seq c s).conf = s.conf ∧
    (sendPtp q kind seq c s).act = s.act ∧ (sendPtp q kind seq c s).dict = s.dict ∧
    (sendPtp q kind seq c s).store = s.store ∧ (sendPtp q kind seq c s).health = s.health ∧
    (sendPtp q kind seq c s).clocks = s.clocks ∧ (sendPtp q kind seq c s).chans = s.chans ∧
    (sendPtp q kind seq c s).dies = s.dies ∧ (sendPtp q kind seq c s).ref = s.ref ∧
    (sendPtp q kind seq c s).cal = s.cal ∧ (sendPtp q kind seq c s).groups = s.groups ∧
    (sendPtp q kind seq c s).map = s.map ∧ (sendPtp q kind seq c s).streams = s.streams ∧
    (sendPtp q kind seq c s).frame = s.frame ∧ (sendPtp q kind seq c s).buf = s.buf ∧
    (sendPtp q kind seq c s).link = s.link ∧ (sendPtp q kind seq c s).units = s.units ∧
    (sendPtp q kind seq c s).outs = s.outs ∧ (sendPtp q kind seq c s).aux = s.aux ∧
    (sendPtp q kind seq c s).ev = s.ev ∧ (sendPtp q kind seq c s).ptp = s.ptp ∧
    (sendPtp q kind seq c s).modPhase = s.modPhase ∧ (sendPtp q kind seq c s).shift = s.shift ∧
    (sendPtp q kind seq c s).segIdent = s.segIdent ∧ (sendPtp q kind seq c s).fv = s.fv := by
  simp [sendPtp]

@[simp] theorem forwardSync_frame (p : Nat) (m : PtpEvent) (s : State) :
    (forwardSync p m s).pending = s.pending ∧ (forwardSync p m s).power = s.power ∧
    (forwardSync p m s).time = s.time ∧ (forwardSync p m s).conf = s.conf ∧ (forwardSync p m s).act = s.act ∧
    (forwardSync p m s).dict = s.dict ∧ (forwardSync p m s).store = s.store ∧ (forwardSync p m s).health = s.health ∧
    (forwardSync p m s).clocks = s.clocks ∧ (forwardSync p m s).chans = s.chans ∧ (forwardSync p m s).dies = s.dies ∧
    (forwardSync p m s).ref = s.ref ∧ (forwardSync p m s).cal = s.cal ∧ (forwardSync p m s).groups = s.groups ∧
    (forwardSync p m s).map = s.map ∧ (forwardSync p m s).streams = s.streams ∧ (forwardSync p m s).frame = s.frame ∧
    (forwardSync p m s).buf = s.buf ∧ (forwardSync p m s).link = s.link ∧ (forwardSync p m s).units = s.units ∧
    (forwardSync p m s).outs = s.outs ∧ (forwardSync p m s).aux = s.aux ∧ (forwardSync p m s).ev = s.ev ∧
    (forwardSync p m s).modPhase = s.modPhase ∧ (forwardSync p m s).shift = s.shift ∧
    (forwardSync p m s).segIdent = s.segIdent ∧ (forwardSync p m s).fv = s.fv := by
  unfold forwardSync; (repeat' split) <;> simp

@[simp] theorem takeMasterTime_frame (m : PtpEvent) (theta : Int) (s : State) :
    (takeMasterTime m theta s).pending = s.pending ∧ (takeMasterTime m theta s).power = s.power ∧
    (takeMasterTime m theta s).conf = s.conf ∧ (takeMasterTime m theta s).act = s.act ∧
    (takeMasterTime m theta s).dict = s.dict ∧ (takeMasterTime m theta s).store = s.store ∧
    (takeMasterTime m theta s).health = s.health ∧ (takeMasterTime m theta s).clocks = s.clocks ∧
    (takeMasterTime m theta s).chans = s.chans ∧ (takeMasterTime m theta s).dies = s.dies ∧
    (takeMasterTime m theta s).ref = s.ref ∧ (takeMasterTime m theta s).cal = s.cal ∧
    (takeMasterTime m theta s).groups = s.groups ∧ (takeMasterTime m theta s).map = s.map ∧
    (takeMasterTime m theta s).streams = s.streams ∧ (takeMasterTime m theta s).frame = s.frame ∧
    (takeMasterTime m theta s).buf = s.buf ∧ (takeMasterTime m theta s).link = s.link ∧
    (takeMasterTime m theta s).units = s.units ∧ (takeMasterTime m theta s).outs = s.outs ∧
    (takeMasterTime m theta s).aux = s.aux ∧ (takeMasterTime m theta s).ev = s.ev ∧
    (takeMasterTime m theta s).modPhase = s.modPhase ∧ (takeMasterTime m theta s).shift = s.shift ∧
    (takeMasterTime m theta s).segIdent = s.segIdent ∧ (takeMasterTime m theta s).fv = s.fv ∧
    (takeMasterTime m theta s).out = s.out ∧ (takeMasterTime m theta s).time.tw = s.time.tw ∧
    (takeMasterTime m theta s).time.quality = s.time.quality ∧ (takeMasterTime m theta s).time.epoch = s.time.epoch := by
  simp [takeMasterTime]

@[simp] theorem syncOffset_frame (p : Nat) (m : PtpEvent) (c : Int) (s : State) :
    (syncOffset p m c s).pending = s.pending ∧ (syncOffset p m c s).power = s.power ∧
    (syncOffset p m c s).conf = s.conf ∧ (syncOffset p m c s).act = s.act ∧ (syncOffset p m c s).dict = s.dict ∧
    (syncOffset p m c s).store = s.store ∧ (syncOffset p m c s).clocks = s.clocks ∧
    (syncOffset p m c s).chans = s.chans ∧ (syncOffset p m c s).dies = s.dies ∧ (syncOffset p m c s).ref = s.ref ∧
    (syncOffset p m c s).cal = s.cal ∧ (syncOffset p m c s).groups = s.groups ∧ (syncOffset p m c s).map = s.map ∧
    (syncOffset p m c s).streams = s.streams ∧ (syncOffset p m c s).frame = s.frame ∧
    (syncOffset p m c s).buf = s.buf ∧ (syncOffset p m c s).link = s.link ∧ (syncOffset p m c s).units = s.units ∧
    (syncOffset p m c s).outs = s.outs ∧ (syncOffset p m c s).aux = s.aux ∧ (syncOffset p m c s).ev = s.ev ∧
    (syncOffset p m c s).modPhase = s.modPhase ∧ (syncOffset p m c s).shift = s.shift ∧
    (syncOffset p m c s).segIdent = s.segIdent ∧ (syncOffset p m c s).fv = s.fv ∧ (syncOffset p m c s).out = s.out ∧
    (syncOffset p m c s).time.tw = s.time.tw ∧ (syncOffset p m c s).time.epoch = s.time.epoch := by
  simp [syncOffset]

@[simp] theorem syncReceive_frame (p : Nat) (m : PtpEvent) (s : State) :
    (syncReceive p m s).pending = s.pending ∧ (syncReceive p m s).power = s.power ∧
    (syncReceive p m s).conf = s.conf ∧ (syncReceive p m s).act = s.act ∧ (syncReceive p m s).dict = s.dict ∧
    (syncReceive p m s).store = s.store ∧ (syncReceive p m s).clocks = s.clocks ∧
    (syncReceive p m s).chans = s.chans ∧ (syncReceive p m s).dies = s.dies ∧ (syncReceive p m s).ref = s.ref ∧
    (syncReceive p m s).cal = s.cal ∧ (syncReceive p m s).groups = s.groups ∧ (syncReceive p m s).map = s.map ∧
    (syncReceive p m s).streams = s.streams ∧ (syncReceive p m s).frame = s.frame ∧ (syncReceive p m s).buf = s.buf ∧
    (syncReceive p m s).link = s.link ∧ (syncReceive p m s).units = s.units ∧ (syncReceive p m s).outs = s.outs ∧
    (syncReceive p m s).aux = s.aux ∧ (syncReceive p m s).ev = s.ev ∧ (syncReceive p m s).modPhase = s.modPhase ∧
    (syncReceive p m s).shift = s.shift ∧ (syncReceive p m s).segIdent = s.segIdent ∧ (syncReceive p m s).fv = s.fv ∧
    (syncReceive p m s).time.tw = s.time.tw ∧ (syncReceive p m s).time.epoch = s.time.epoch := by
  simp [syncReceive]

@[simp] theorem forwardFollowUp_frame (p : Nat) (m : PtpEvent) (s : State) :
    (forwardFollowUp p m s).pending = s.pending ∧ (forwardFollowUp p m s).power = s.power ∧
    (forwardFollowUp p m s).time = s.time ∧ (forwardFollowUp p m s).conf = s.conf ∧
    (forwardFollowUp p m s).act = s.act ∧ (forwardFollowUp p m s).dict = s.dict ∧
    (forwardFollowUp p m s).store = s.store ∧ (forwardFollowUp p m s).health = s.health ∧
    (forwardFollowUp p m s).clocks = s.clocks ∧ (forwardFollowUp p m s).chans = s.chans ∧
    (forwardFollowUp p m s).dies = s.dies ∧ (forwardFollowUp p m s).ref = s.ref ∧
    (forwardFollowUp p m s).cal = s.cal ∧ (forwardFollowUp p m s).groups = s.groups ∧
    (forwardFollowUp p m s).map = s.map ∧ (forwardFollowUp p m s).streams = s.streams ∧
    (forwardFollowUp p m s).frame = s.frame ∧ (forwardFollowUp p m s).buf = s.buf ∧
    (forwardFollowUp p m s).link = s.link ∧ (forwardFollowUp p m s).units = s.units ∧
    (forwardFollowUp p m s).outs = s.outs ∧ (forwardFollowUp p m s).aux = s.aux ∧ (forwardFollowUp p m s).ev = s.ev ∧
    (forwardFollowUp p m s).modPhase = s.modPhase ∧ (forwardFollowUp p m s).shift = s.shift ∧
    (forwardFollowUp p m s).segIdent = s.segIdent ∧ (forwardFollowUp p m s).fv = s.fv := by
  unfold forwardFollowUp; (repeat' split) <;> simp

@[simp] theorem followUpReceive_frame (p : Nat) (m : PtpEvent) (s : State) :
    (followUpReceive p m s).pending = s.pending ∧ (followUpReceive p m s).power = s.power ∧
    (followUpReceive p m s).conf = s.conf ∧ (followUpReceive p m s).act = s.act ∧
    (followUpReceive p m s).dict = s.dict ∧ (followUpReceive p m s).store = s.store ∧
    (followUpReceive p m s).clocks = s.clocks ∧ (followUpReceive p m s).chans = s.chans ∧
    (followUpReceive p m s).dies = s.dies ∧ (followUpReceive p m s).ref = s.ref ∧
    (followUpReceive p m s).cal = s.cal ∧ (followUpReceive p m s).groups = s.groups ∧
    (followUpReceive p m s).map = s.map ∧ (followUpReceive p m s).streams = s.streams ∧
    (followUpReceive p m s).frame = s.frame ∧ (followUpReceive p m s).buf = s.buf ∧
    (followUpReceive p m s).link = s.link ∧ (followUpReceive p m s).units = s.units ∧
    (followUpReceive p m s).outs = s.outs ∧ (followUpReceive p m s).aux = s.aux ∧ (followUpReceive p m s).ev = s.ev ∧
    (followUpReceive p m s).modPhase = s.modPhase ∧ (followUpReceive p m s).shift = s.shift ∧
    (followUpReceive p m s).segIdent = s.segIdent ∧ (followUpReceive p m s).fv = s.fv ∧
    (followUpReceive p m s).time.tw = s.time.tw ∧ (followUpReceive p m s).time.epoch = s.time.epoch := by
  simp only [followUpReceive]; (repeat' split) <;> simp

@[simp] theorem announceReceive_frame (p : Nat) (a : Announce) (s : State) :
    (announceReceive p a s).pending = s.pending ∧ (announceReceive p a s).conf = s.conf ∧
    (announceReceive p a s).act = s.act ∧ (announceReceive p a s).dict = s.dict ∧
    (announceReceive p a s).store = s.store ∧ (announceReceive p a s).chans = s.chans ∧
    (announceReceive p a s).dies = s.dies ∧ (announceReceive p a s).ref = s.ref ∧
    (announceReceive p a s).groups = s.groups ∧ (announceReceive p a s).map = s.map ∧
    (announceReceive p a s).streams = s.streams ∧ (announceReceive p a s).frame = s.frame ∧
    (announceReceive p a s).buf = s.buf ∧ (announceReceive p a s).link = s.link ∧
    (announceReceive p a s).units = s.units ∧ (announceReceive p a s).outs = s.outs ∧
    (announceReceive p a s).aux = s.aux ∧ (announceReceive p a s).ev = s.ev ∧
    (announceReceive p a s).modPhase = s.modPhase ∧ (announceReceive p a s).shift = s.shift ∧
    (announceReceive p a s).segIdent = s.segIdent ∧ (announceReceive p a s).fv = s.fv ∧
    (announceReceive p a s).power.vmain = s.power.vmain ∧ (announceReceive p a s).power.mode = s.power.mode ∧
    (announceReceive p a s).time.tw = s.time.tw ∧ (announceReceive p a s).time.epoch = s.time.epoch := by
  unfold announceReceive; (repeat' split) <;> simp

@[simp] theorem announceTimeout_frame (p : Nat) (s : State) :
    (announceTimeout p s).pending = s.pending ∧ (announceTimeout p s).conf.cfg = s.conf.cfg ∧
    (announceTimeout p s).power.vmain = s.power.vmain ∧ (announceTimeout p s).time.tw = s.time.tw := by
  simp [announceTimeout]

@[simp] theorem ptpForward_frame (p : Nat) (h : PtpHead) (octets : List Nat) (s : State) :
    (ptpForward p h octets s).pending = s.pending ∧ (ptpForward p h octets s).conf.cfg = s.conf.cfg ∧
    (ptpForward p h octets s).power.vmain = s.power.vmain ∧ (ptpForward p h octets s).time.tw = s.time.tw := by
  unfold ptpForward; (repeat' split) <;> simp

@[simp] theorem sendPeer_frame (p kind : Nat) (seq : BitVec 16) (c : Int) (s : State) :
    (sendPeer p kind seq c s).pending = s.pending ∧ (sendPeer p kind seq c s).power = s.power ∧
    (sendPeer p kind seq c s).time = s.time ∧ (sendPeer p kind seq c s).conf = s.conf ∧
    (sendPeer p kind seq c s).act = s.act ∧ (sendPeer p kind seq c s).dict = s.dict ∧
    (sendPeer p kind seq c s).store = s.store ∧ (sendPeer p kind seq c s).health = s.health ∧
    (sendPeer p kind seq c s).clocks = s.clocks ∧ (sendPeer p kind seq c s).chans = s.chans ∧
    (sendPeer p kind seq c s).dies = s.dies ∧ (sendPeer p kind seq c s).ref = s.ref ∧
    (sendPeer p kind seq c s).cal = s.cal ∧ (sendPeer p kind seq c s).groups = s.groups ∧
    (sendPeer p kind seq c s).map = s.map ∧ (sendPeer p kind seq c s).streams = s.streams ∧
    (sendPeer p kind seq c s).frame = s.frame ∧ (sendPeer p kind seq c s).buf = s.buf ∧
    (sendPeer p kind seq c s).link = s.link ∧ (sendPeer p kind seq c s).units = s.units ∧
    (sendPeer p kind seq c s).outs = s.outs ∧ (sendPeer p kind seq c s).aux = s.aux ∧
    (sendPeer p kind seq c s).ev = s.ev ∧ (sendPeer p kind seq c s).ptp = s.ptp ∧
    (sendPeer p kind seq c s).modPhase = s.modPhase ∧ (sendPeer p kind seq c s).shift = s.shift ∧
    (sendPeer p kind seq c s).segIdent = s.segIdent ∧ (sendPeer p kind seq c s).fv = s.fv := by
  simp [sendPeer]

@[simp] theorem pdelaySend_frame (p : Nat) (egress : Int) (s : State) :
    (pdelaySend p egress s).pending = s.pending ∧ (pdelaySend p egress s).conf.cfg = s.conf.cfg ∧
    (pdelaySend p egress s).power.vmain = s.power.vmain ∧ (pdelaySend p egress s).time.tw = s.time.tw := by
  simp [pdelaySend]

@[simp] theorem pdelayAnswer_frame (p : Nat) (h : PtpHead) (seq : BitVec 16) (ingress egress : Int) (s : State) :
    (pdelayAnswer p h seq ingress egress s).pending = s.pending ∧
    (pdelayAnswer p h seq ingress egress s).conf.cfg = s.conf.cfg ∧
    (pdelayAnswer p h seq ingress egress s).power.vmain = s.power.vmain ∧
    (pdelayAnswer p h seq ingress egress s).time.tw = s.time.tw := by
  unfold pdelayAnswer peerMessage; (repeat' split) <;> simp

@[simp] theorem pdelayFail_frame (p : Nat) (s : State) :
    (pdelayFail p s).pending = s.pending ∧ (pdelayFail p s).conf = s.conf ∧ (pdelayFail p s).act = s.act ∧
    (pdelayFail p s).dict = s.dict ∧ (pdelayFail p s).store = s.store ∧ (pdelayFail p s).chans = s.chans ∧
    (pdelayFail p s).dies = s.dies ∧ (pdelayFail p s).ref = s.ref ∧ (pdelayFail p s).groups = s.groups ∧
    (pdelayFail p s).map = s.map ∧ (pdelayFail p s).streams = s.streams ∧ (pdelayFail p s).frame = s.frame ∧
    (pdelayFail p s).buf = s.buf ∧ (pdelayFail p s).link = s.link ∧ (pdelayFail p s).units = s.units ∧
    (pdelayFail p s).outs = s.outs ∧ (pdelayFail p s).aux = s.aux ∧ (pdelayFail p s).ev = s.ev ∧
    (pdelayFail p s).modPhase = s.modPhase ∧ (pdelayFail p s).shift = s.shift ∧
    (pdelayFail p s).segIdent = s.segIdent ∧ (pdelayFail p s).fv = s.fv ∧ (pdelayFail p s).out = s.out ∧
    (pdelayFail p s).power.vmain = s.power.vmain ∧ (pdelayFail p s).power.mode = s.power.mode ∧
    (pdelayFail p s).time.tw = s.time.tw ∧ (pdelayFail p s).time.epoch = s.time.epoch := by
  simp [pdelayFail]

@[simp] theorem declareReroute_frame (p : Nat) (l : List Int) (s : State) :
    (declareReroute p l s).pending = s.pending ∧ (declareReroute p l s).power = s.power ∧
    (declareReroute p l s).conf = s.conf ∧ (declareReroute p l s).act = s.act ∧ (declareReroute p l s).dict = s.dict ∧
    (declareReroute p l s).store = s.store ∧ (declareReroute p l s).clocks = s.clocks ∧
    (declareReroute p l s).chans = s.chans ∧ (declareReroute p l s).dies = s.dies ∧
    (declareReroute p l s).ref = s.ref ∧ (declareReroute p l s).cal = s.cal ∧
    (declareReroute p l s).groups = s.groups ∧ (declareReroute p l s).map = s.map ∧
    (declareReroute p l s).streams = s.streams ∧ (declareReroute p l s).frame = s.frame ∧
    (declareReroute p l s).buf = s.buf ∧ (declareReroute p l s).link = s.link ∧
    (declareReroute p l s).units = s.units ∧ (declareReroute p l s).outs = s.outs ∧
    (declareReroute p l s).aux = s.aux ∧ (declareReroute p l s).ev = s.ev ∧
    (declareReroute p l s).modPhase = s.modPhase ∧ (declareReroute p l s).shift = s.shift ∧
    (declareReroute p l s).segIdent = s.segIdent ∧ (declareReroute p l s).fv = s.fv ∧
    (declareReroute p l s).out = s.out ∧ (declareReroute p l s).time.tw = s.time.tw ∧
    (declareReroute p l s).time.epoch = s.time.epoch := by
  simp [declareReroute]

@[simp] theorem pdelayAdmit_frame (p : Nat) (d : Int) (s : State) :
    (pdelayAdmit p d s).pending = s.pending ∧ (pdelayAdmit p d s).conf = s.conf ∧ (pdelayAdmit p d s).act = s.act ∧
    (pdelayAdmit p d s).dict = s.dict ∧ (pdelayAdmit p d s).store = s.store ∧ (pdelayAdmit p d s).chans = s.chans ∧
    (pdelayAdmit p d s).dies = s.dies ∧ (pdelayAdmit p d s).ref = s.ref ∧ (pdelayAdmit p d s).groups = s.groups ∧
    (pdelayAdmit p d s).map = s.map ∧ (pdelayAdmit p d s).streams = s.streams ∧ (pdelayAdmit p d s).frame = s.frame ∧
    (pdelayAdmit p d s).buf = s.buf ∧ (pdelayAdmit p d s).link = s.link ∧ (pdelayAdmit p d s).units = s.units ∧
    (pdelayAdmit p d s).outs = s.outs ∧ (pdelayAdmit p d s).aux = s.aux ∧ (pdelayAdmit p d s).ev = s.ev ∧
    (pdelayAdmit p d s).modPhase = s.modPhase ∧ (pdelayAdmit p d s).shift = s.shift ∧
    (pdelayAdmit p d s).segIdent = s.segIdent ∧ (pdelayAdmit p d s).fv = s.fv ∧ (pdelayAdmit p d s).out = s.out ∧
    (pdelayAdmit p d s).power.vmain = s.power.vmain ∧ (pdelayAdmit p d s).power.mode = s.power.mode ∧
    (pdelayAdmit p d s).time.tw = s.time.tw ∧ (pdelayAdmit p d s).time.epoch = s.time.epoch := by
  simp [pdelayAdmit]

@[simp] theorem pdelayComplete_frame (p : Nat) (d : Int) (s : State) :
    (pdelayComplete p d s).pending = s.pending ∧ (pdelayComplete p d s).conf = s.conf ∧
    (pdelayComplete p d s).act = s.act ∧ (pdelayComplete p d s).dict = s.dict ∧
    (pdelayComplete p d s).store = s.store ∧ (pdelayComplete p d s).chans = s.chans ∧
    (pdelayComplete p d s).dies = s.dies ∧ (pdelayComplete p d s).ref = s.ref ∧
    (pdelayComplete p d s).groups = s.groups ∧ (pdelayComplete p d s).map = s.map ∧
    (pdelayComplete p d s).streams = s.streams ∧ (pdelayComplete p d s).frame = s.frame ∧
    (pdelayComplete p d s).buf = s.buf ∧ (pdelayComplete p d s).link = s.link ∧
    (pdelayComplete p d s).units = s.units ∧ (pdelayComplete p d s).outs = s.outs ∧
    (pdelayComplete p d s).aux = s.aux ∧ (pdelayComplete p d s).ev = s.ev ∧
    (pdelayComplete p d s).modPhase = s.modPhase ∧ (pdelayComplete p d s).shift = s.shift ∧
    (pdelayComplete p d s).segIdent = s.segIdent ∧ (pdelayComplete p d s).fv = s.fv ∧
    (pdelayComplete p d s).out = s.out ∧ (pdelayComplete p d s).power.vmain = s.power.vmain ∧
    (pdelayComplete p d s).power.mode = s.power.mode ∧ (pdelayComplete p d s).time.tw = s.time.tw ∧
    (pdelayComplete p d s).time.epoch = s.time.epoch := by
  simp [pdelayComplete]

@[simp] theorem pdelayResp_frame (p : Nat) (m : PdelayResp) (s : State) :
    (pdelayResp p m s).pending = s.pending ∧ (pdelayResp p m s).conf.cfg = s.conf.cfg ∧
    (pdelayResp p m s).power.vmain = s.power.vmain ∧ (pdelayResp p m s).time.tw = s.time.tw := by
  unfold pdelayResp peerMessage; split
  · simp
  · split
    · simp
    · dsimp only; rcases (ptpAt s p).pend with _ | ⟨q, t1⟩
      · simp
      · dsimp only; (repeat' split) <;> simp

@[simp] theorem pdelayFollowUp_frame (p : Nat) (h : PtpHead) (seq : BitVec 16) (origin correction : Int) (s : State) :
    (pdelayFollowUp p h seq origin correction s).pending = s.pending ∧
    (pdelayFollowUp p h seq origin correction s).conf.cfg = s.conf.cfg ∧
    (pdelayFollowUp p h seq origin correction s).power.vmain = s.power.vmain ∧
    (pdelayFollowUp p h seq origin correction s).time.tw = s.time.tw := by
  unfold pdelayFollowUp peerMessage; split
  · simp
  · split
    · simp
    · dsimp only; rcases (ptpAt s p).resp with _ | ⟨q, t1, t4, c, t2⟩
      · simp
      · dsimp only; (repeat' split) <;> simp

@[simp] theorem pdelayTimeout_frame (p : Nat) (s : State) :
    (pdelayTimeout p s).pending = s.pending ∧ (pdelayTimeout p s).conf.cfg = s.conf.cfg ∧
    (pdelayTimeout p s).power.vmain = s.power.vmain ∧ (pdelayTimeout p s).time.tw = s.time.tw := by
  simp [pdelayTimeout]

@[simp] theorem noOffset_frame (s : State) :
    (noOffset s).pending = s.pending ∧ (noOffset s).conf.cfg = s.conf.cfg ∧ (noOffset s).power.vmain = s.power.vmain ∧
    (noOffset s).time.tw = s.time.tw := by
  simp [noOffset]

@[simp] theorem rerouteWrite_frame (r : Role) (v : Nat) (s : State) :
    (rerouteWrite r v s).st.pending = s.pending ∧ (rerouteWrite r v s).st.power = s.power ∧
    (rerouteWrite r v s).st.time = s.time ∧ (rerouteWrite r v s).st.act = s.act ∧
    (rerouteWrite r v s).st.dict = s.dict ∧ (rerouteWrite r v s).st.health = s.health ∧
    (rerouteWrite r v s).st.clocks = s.clocks ∧ (rerouteWrite r v s).st.chans = s.chans ∧
    (rerouteWrite r v s).st.dies = s.dies ∧ (rerouteWrite r v s).st.ref = s.ref ∧
    (rerouteWrite r v s).st.cal = s.cal ∧ (rerouteWrite r v s).st.groups = s.groups ∧
    (rerouteWrite r v s).st.map = s.map ∧ (rerouteWrite r v s).st.streams = s.streams ∧
    (rerouteWrite r v s).st.frame = s.frame ∧ (rerouteWrite r v s).st.buf = s.buf ∧
    (rerouteWrite r v s).st.link = s.link ∧ (rerouteWrite r v s).st.units = s.units ∧
    (rerouteWrite r v s).st.outs = s.outs ∧ (rerouteWrite r v s).st.aux = s.aux ∧ (rerouteWrite r v s).st.ev = s.ev ∧
    (rerouteWrite r v s).st.modPhase = s.modPhase ∧ (rerouteWrite r v s).st.shift = s.shift ∧
    (rerouteWrite r v s).st.segIdent = s.segIdent ∧ (rerouteWrite r v s).st.fv = s.fv ∧
    (rerouteWrite r v s).st.out = s.out := by
  unfold rerouteWrite gate; dsimp only; (repeat' split) <;> first | rfl | simp

@[simp] theorem epochWrite_frame (r : Role) (v : BitVec 16) (s : State) :
    (epochWrite r v s).st.pending = s.pending ∧ (epochWrite r v s).st.power = s.power ∧
    (epochWrite r v s).st.conf = s.conf ∧ (epochWrite r v s).st.act = s.act ∧ (epochWrite r v s).st.dict = s.dict ∧
    (epochWrite r v s).st.health = s.health ∧ (epochWrite r v s).st.clocks = s.clocks ∧
    (epochWrite r v s).st.chans = s.chans ∧ (epochWrite r v s).st.dies = s.dies ∧ (epochWrite r v s).st.ref = s.ref ∧
    (epochWrite r v s).st.cal = s.cal ∧ (epochWrite r v s).st.groups = s.groups ∧ (epochWrite r v s).st.map = s.map ∧
    (epochWrite r v s).st.streams = s.streams ∧ (epochWrite r v s).st.frame = s.frame ∧
    (epochWrite r v s).st.buf = s.buf ∧ (epochWrite r v s).st.link = s.link ∧ (epochWrite r v s).st.units = s.units ∧
    (epochWrite r v s).st.outs = s.outs ∧ (epochWrite r v s).st.aux = s.aux ∧
    (epochWrite r v s).st.ptp = s.ptp ∧ (epochWrite r v s).st.modPhase = s.modPhase ∧
    (epochWrite r v s).st.shift = s.shift ∧ (epochWrite r v s).st.segIdent = s.segIdent ∧
    (epochWrite r v s).st.fv = s.fv ∧ (epochWrite r v s).st.out = s.out ∧ (epochWrite r v s).st.time.tw = s.time.tw ∧
    (epochWrite r v s).st.time.quality = s.time.quality := by
  unfold epochWrite gate; dsimp only; (repeat' split) <;> first | rfl | simp

@[simp] theorem stepWrite_frame (r : Role) (d : BitVec 64) (s : State) :
    (stepWrite r d s).st.pending = s.pending ∧ (stepWrite r d s).st.power = s.power ∧
    (stepWrite r d s).st.time = s.time ∧ (stepWrite r d s).st.conf = s.conf ∧ (stepWrite r d s).st.dict = s.dict ∧
    (stepWrite r d s).st.store = s.store ∧ (stepWrite r d s).st.health = s.health ∧
    (stepWrite r d s).st.clocks = s.clocks ∧ (stepWrite r d s).st.chans = s.chans ∧
    (stepWrite r d s).st.dies = s.dies ∧ (stepWrite r d s).st.ref = s.ref ∧ (stepWrite r d s).st.cal = s.cal ∧
    (stepWrite r d s).st.groups = s.groups ∧ (stepWrite r d s).st.map = s.map ∧
    (stepWrite r d s).st.streams = s.streams ∧ (stepWrite r d s).st.frame = s.frame ∧
    (stepWrite r d s).st.buf = s.buf ∧ (stepWrite r d s).st.link = s.link ∧ (stepWrite r d s).st.units = s.units ∧
    (stepWrite r d s).st.outs = s.outs ∧ (stepWrite r d s).st.aux = s.aux ∧ (stepWrite r d s).st.ev = s.ev ∧
    (stepWrite r d s).st.ptp = s.ptp ∧ (stepWrite r d s).st.modPhase = s.modPhase ∧
    (stepWrite r d s).st.shift = s.shift ∧ (stepWrite r d s).st.segIdent = s.segIdent ∧
    (stepWrite r d s).st.fv = s.fv ∧ (stepWrite r d s).st.out = s.out := by
  unfold stepWrite gate; dsimp only; (repeat' split) <;> first | rfl | simp

@[simp] theorem setWrite_frame (r : Role) (t : TW) (s : State) :
    (setWrite r t s).st.pending = s.pending ∧ (setWrite r t s).st.power = s.power ∧
    (setWrite r t s).st.conf = s.conf ∧ (setWrite r t s).st.act = s.act ∧ (setWrite r t s).st.dict = s.dict ∧
    (setWrite r t s).st.store = s.store ∧ (setWrite r t s).st.health = s.health ∧
    (setWrite r t s).st.clocks = s.clocks ∧ (setWrite r t s).st.chans = s.chans ∧ (setWrite r t s).st.dies = s.dies ∧
    (setWrite r t s).st.ref = s.ref ∧ (setWrite r t s).st.cal = s.cal ∧ (setWrite r t s).st.groups = s.groups ∧
    (setWrite r t s).st.map = s.map ∧ (setWrite r t s).st.streams = s.streams ∧ (setWrite r t s).st.frame = s.frame ∧
    (setWrite r t s).st.buf = s.buf ∧ (setWrite r t s).st.link = s.link ∧ (setWrite r t s).st.units = s.units ∧
    (setWrite r t s).st.outs = s.outs ∧ (setWrite r t s).st.aux = s.aux ∧ (setWrite r t s).st.ev = s.ev ∧
    (setWrite r t s).st.ptp = s.ptp ∧ (setWrite r t s).st.modPhase = s.modPhase ∧
    (setWrite r t s).st.shift = s.shift ∧ (setWrite r t s).st.segIdent = s.segIdent ∧ (setWrite r t s).st.fv = s.fv ∧
    (setWrite r t s).st.out = s.out ∧ (setWrite r t s).st.time.tw = s.time.tw ∧
    (setWrite r t s).st.time.quality = s.time.quality ∧ (setWrite r t s).st.time.epoch = s.time.epoch := by
  unfold setWrite gate; dsimp only; (repeat' split) <;> first | rfl | simp

@[simp] theorem portsFresh_frame (s : State) :
    (portsFresh s).pending = s.pending ∧ (portsFresh s).power = s.power ∧ (portsFresh s).time = s.time ∧
    (portsFresh s).conf = s.conf ∧ (portsFresh s).act = s.act ∧ (portsFresh s).dict = s.dict ∧
    (portsFresh s).store = s.store ∧ (portsFresh s).health = s.health ∧ (portsFresh s).clocks = s.clocks ∧
    (portsFresh s).chans = s.chans ∧ (portsFresh s).dies = s.dies ∧ (portsFresh s).ref = s.ref ∧
    (portsFresh s).cal = s.cal ∧ (portsFresh s).groups = s.groups ∧ (portsFresh s).map = s.map ∧
    (portsFresh s).streams = s.streams ∧ (portsFresh s).frame = s.frame ∧ (portsFresh s).buf = s.buf ∧
    (portsFresh s).units = s.units ∧ (portsFresh s).outs = s.outs ∧ (portsFresh s).aux = s.aux ∧
    (portsFresh s).ev = s.ev ∧ (portsFresh s).ptp = s.ptp ∧ (portsFresh s).modPhase = s.modPhase ∧
    (portsFresh s).shift = s.shift ∧ (portsFresh s).segIdent = s.segIdent ∧ (portsFresh s).fv = s.fv ∧
    (portsFresh s).out = s.out := by
  simp [portsFresh]

@[simp] theorem forwardOut_frame (p : Nat) (l : List Nat) (s : State) :
    (forwardOut p l s).pending = s.pending ∧ (forwardOut p l s).conf.cfg = s.conf.cfg ∧
    (forwardOut p l s).power.vmain = s.power.vmain ∧ (forwardOut p l s).time.tw = s.time.tw := by
  unfold forwardOut; (repeat' split) <;> simp

@[simp] theorem takeFrame_frame (l : List Nat) (s : State) :
    (takeFrame l s).pending = s.pending ∧ (takeFrame l s).conf.cfg = s.conf.cfg ∧
    (takeFrame l s).power.vmain = s.power.vmain ∧ (takeFrame l s).time.tw = s.time.tw := by
  simp [takeFrame]

@[simp] theorem axindReceive_frame (p : Nat) (f : RxFrame) (s : State) :
    (axindReceive p f s).pending = s.pending ∧ (axindReceive p f s).conf.cfg = s.conf.cfg ∧
    (axindReceive p f s).power.vmain = s.power.vmain ∧ (axindReceive p f s).time.tw = s.time.tw := by
  simp [axindReceive]

@[simp] theorem sendBreak_frame (q : Nat) (clear : Bool) (s : State) :
    (sendBreak q clear s).pending = s.pending ∧ (sendBreak q clear s).power = s.power ∧
    (sendBreak q clear s).time = s.time ∧ (sendBreak q clear s).conf = s.conf ∧ (sendBreak q clear s).act = s.act ∧
    (sendBreak q clear s).dict = s.dict ∧ (sendBreak q clear s).store = s.store ∧
    (sendBreak q clear s).health = s.health ∧ (sendBreak q clear s).clocks = s.clocks ∧
    (sendBreak q clear s).chans = s.chans ∧ (sendBreak q clear s).dies = s.dies ∧ (sendBreak q clear s).ref = s.ref ∧
    (sendBreak q clear s).cal = s.cal ∧ (sendBreak q clear s).groups = s.groups ∧ (sendBreak q clear s).map = s.map ∧
    (sendBreak q clear s).streams = s.streams ∧ (sendBreak q clear s).frame = s.frame ∧
    (sendBreak q clear s).buf = s.buf ∧ (sendBreak q clear s).units = s.units ∧ (sendBreak q clear s).outs = s.outs ∧
    (sendBreak q clear s).aux = s.aux ∧ (sendBreak q clear s).ev = s.ev ∧ (sendBreak q clear s).ptp = s.ptp ∧
    (sendBreak q clear s).modPhase = s.modPhase ∧ (sendBreak q clear s).shift = s.shift ∧
    (sendBreak q clear s).segIdent = s.segIdent ∧ (sendBreak q clear s).fv = s.fv ∧ (sendBreak q clear s).out = s.out := by
  simp [sendBreak]

@[simp] theorem breakSend_frame (p : Nat) (s : State) :
    (breakSend p s).pending = s.pending ∧ (breakSend p s).power = s.power ∧ (breakSend p s).time = s.time ∧
    (breakSend p s).conf = s.conf ∧ (breakSend p s).act = s.act ∧ (breakSend p s).dict = s.dict ∧
    (breakSend p s).store = s.store ∧ (breakSend p s).health = s.health ∧ (breakSend p s).clocks = s.clocks ∧
    (breakSend p s).chans = s.chans ∧ (breakSend p s).dies = s.dies ∧ (breakSend p s).ref = s.ref ∧
    (breakSend p s).cal = s.cal ∧ (breakSend p s).groups = s.groups ∧ (breakSend p s).map = s.map ∧
    (breakSend p s).streams = s.streams ∧ (breakSend p s).frame = s.frame ∧ (breakSend p s).buf = s.buf ∧
    (breakSend p s).units = s.units ∧ (breakSend p s).outs = s.outs ∧ (breakSend p s).aux = s.aux ∧
    (breakSend p s).ev = s.ev ∧ (breakSend p s).ptp = s.ptp ∧ (breakSend p s).modPhase = s.modPhase ∧
    (breakSend p s).shift = s.shift ∧ (breakSend p s).segIdent = s.segIdent ∧ (breakSend p s).fv = s.fv ∧
    (breakSend p s).out = s.out := by
  unfold breakSend; (repeat' split) <;> simp

@[simp] theorem breakClear_frame (p : Nat) (s : State) :
    (breakClear p s).pending = s.pending ∧ (breakClear p s).power = s.power ∧ (breakClear p s).time = s.time ∧
    (breakClear p s).conf = s.conf ∧ (breakClear p s).act = s.act ∧ (breakClear p s).dict = s.dict ∧
    (breakClear p s).store = s.store ∧ (breakClear p s).health = s.health ∧ (breakClear p s).clocks = s.clocks ∧
    (breakClear p s).chans = s.chans ∧ (breakClear p s).dies = s.dies ∧ (breakClear p s).ref = s.ref ∧
    (breakClear p s).cal = s.cal ∧ (breakClear p s).groups = s.groups ∧ (breakClear p s).map = s.map ∧
    (breakClear p s).streams = s.streams ∧ (breakClear p s).frame = s.frame ∧ (breakClear p s).buf = s.buf ∧
    (breakClear p s).units = s.units ∧ (breakClear p s).outs = s.outs ∧ (breakClear p s).aux = s.aux ∧
    (breakClear p s).ev = s.ev ∧ (breakClear p s).ptp = s.ptp ∧ (breakClear p s).modPhase = s.modPhase ∧
    (breakClear p s).shift = s.shift ∧ (breakClear p s).segIdent = s.segIdent ∧ (breakClear p s).fv = s.fv ∧
    (breakClear p s).out = s.out := by
  simp only [breakClear]; (repeat' split) <;> simp

@[simp] theorem exchangeRoles_frame (s : State) :
    (exchangeRoles s).pending = s.pending ∧ (exchangeRoles s).power = s.power ∧ (exchangeRoles s).time = s.time ∧
    (exchangeRoles s).conf = s.conf ∧ (exchangeRoles s).act = s.act ∧ (exchangeRoles s).dict = s.dict ∧
    (exchangeRoles s).store = s.store ∧ (exchangeRoles s).health = s.health ∧ (exchangeRoles s).clocks = s.clocks ∧
    (exchangeRoles s).chans = s.chans ∧ (exchangeRoles s).dies = s.dies ∧ (exchangeRoles s).ref = s.ref ∧
    (exchangeRoles s).cal = s.cal ∧ (exchangeRoles s).groups = s.groups ∧ (exchangeRoles s).map = s.map ∧
    (exchangeRoles s).streams = s.streams ∧ (exchangeRoles s).frame = s.frame ∧ (exchangeRoles s).buf = s.buf ∧
    (exchangeRoles s).units = s.units ∧ (exchangeRoles s).outs = s.outs ∧ (exchangeRoles s).aux = s.aux ∧
    (exchangeRoles s).ev = s.ev ∧ (exchangeRoles s).ptp = s.ptp ∧ (exchangeRoles s).modPhase = s.modPhase ∧
    (exchangeRoles s).shift = s.shift ∧ (exchangeRoles s).segIdent = s.segIdent ∧ (exchangeRoles s).fv = s.fv ∧
    (exchangeRoles s).out = s.out := by
  simp [exchangeRoles]

@[simp] theorem failover_frame (s : State) :
    (failover s).pending = s.pending ∧ (failover s).power = s.power ∧ (failover s).time = s.time ∧
    (failover s).conf = s.conf ∧ (failover s).act = s.act ∧ (failover s).dict = s.dict ∧
    (failover s).store = s.store ∧ (failover s).health = s.health ∧ (failover s).clocks = s.clocks ∧
    (failover s).chans = s.chans ∧ (failover s).dies = s.dies ∧ (failover s).ref = s.ref ∧ (failover s).cal = s.cal ∧
    (failover s).groups = s.groups ∧ (failover s).map = s.map ∧ (failover s).streams = s.streams ∧
    (failover s).frame = s.frame ∧ (failover s).units = s.units ∧ (failover s).outs = s.outs ∧
    (failover s).aux = s.aux ∧ (failover s).ev = s.ev ∧ (failover s).ptp = s.ptp ∧
    (failover s).modPhase = s.modPhase ∧ (failover s).shift = s.shift ∧ (failover s).segIdent = s.segIdent ∧
    (failover s).fv = s.fv ∧ (failover s).out = s.out := by
  simp [failover]

@[simp] theorem breakReceive_frame (p : Nat) (clear : Bool) (s : State) :
    (breakReceive p clear s).pending = s.pending ∧ (breakReceive p clear s).conf.cfg = s.conf.cfg ∧
    (breakReceive p clear s).power.vmain = s.power.vmain ∧ (breakReceive p clear s).time.tw = s.time.tw := by
  simp [breakReceive]

@[simp] theorem ptpFresh_frame (p : Nat) (s : State) :
    (ptpFresh p s).pending = s.pending ∧ (ptpFresh p s).power = s.power ∧ (ptpFresh p s).time = s.time ∧
    (ptpFresh p s).conf = s.conf ∧ (ptpFresh p s).act = s.act ∧ (ptpFresh p s).dict = s.dict ∧
    (ptpFresh p s).store = s.store ∧ (ptpFresh p s).health = s.health ∧ (ptpFresh p s).clocks = s.clocks ∧
    (ptpFresh p s).chans = s.chans ∧ (ptpFresh p s).dies = s.dies ∧ (ptpFresh p s).ref = s.ref ∧
    (ptpFresh p s).cal = s.cal ∧ (ptpFresh p s).groups = s.groups ∧ (ptpFresh p s).map = s.map ∧
    (ptpFresh p s).streams = s.streams ∧ (ptpFresh p s).frame = s.frame ∧ (ptpFresh p s).buf = s.buf ∧
    (ptpFresh p s).link = s.link ∧ (ptpFresh p s).units = s.units ∧ (ptpFresh p s).outs = s.outs ∧
    (ptpFresh p s).aux = s.aux ∧ (ptpFresh p s).ev = s.ev ∧ (ptpFresh p s).modPhase = s.modPhase ∧
    (ptpFresh p s).shift = s.shift ∧ (ptpFresh p s).segIdent = s.segIdent ∧ (ptpFresh p s).fv = s.fv ∧
    (ptpFresh p s).out = s.out := by
  simp [ptpFresh]

@[simp] theorem localFault_frame (p : Nat) (s : State) :
    (localFault p s).pending = s.pending ∧ (localFault p s).conf.cfg = s.conf.cfg ∧
    (localFault p s).power.vmain = s.power.vmain ∧ (localFault p s).time.tw = s.time.tw := by
  unfold localFault; (repeat' split) <;> simp

@[simp] theorem linkReturn_frame (p : Nat) (s : State) :
    (linkReturn p s).pending = s.pending ∧ (linkReturn p s).conf.cfg = s.conf.cfg ∧
    (linkReturn p s).power.vmain = s.power.vmain ∧ (linkReturn p s).time.tw = s.time.tw := by
  simp [linkReturn]

@[simp] theorem promote_frame (p : Nat) (s : State) :
    (promote p s).pending = s.pending ∧ (promote p s).conf.cfg = s.conf.cfg ∧
    (promote p s).power.vmain = s.power.vmain ∧ (promote p s).time.tw = s.time.tw := by
  unfold promote; (repeat' split) <;> simp

@[simp] theorem revert_frame (s : State) :
    (revert s).pending = s.pending ∧ (revert s).conf.cfg = s.conf.cfg ∧ (revert s).power.vmain = s.power.vmain ∧
    (revert s).time.tw = s.time.tw := by
  unfold revert; (repeat' split) <;> simp

@[simp] theorem selfTestRun_frame (p : Nat) (s : State) :
    (selfTestRun p s).pending = s.pending ∧ (selfTestRun p s).power = s.power ∧ (selfTestRun p s).time = s.time ∧
    (selfTestRun p s).conf = s.conf ∧ (selfTestRun p s).act = s.act ∧ (selfTestRun p s).dict = s.dict ∧
    (selfTestRun p s).store = s.store ∧ (selfTestRun p s).clocks = s.clocks ∧ (selfTestRun p s).chans = s.chans ∧
    (selfTestRun p s).dies = s.dies ∧ (selfTestRun p s).ref = s.ref ∧ (selfTestRun p s).cal = s.cal ∧
    (selfTestRun p s).groups = s.groups ∧ (selfTestRun p s).map = s.map ∧ (selfTestRun p s).streams = s.streams ∧
    (selfTestRun p s).frame = s.frame ∧ (selfTestRun p s).buf = s.buf ∧ (selfTestRun p s).link = s.link ∧
    (selfTestRun p s).units = s.units ∧ (selfTestRun p s).outs = s.outs ∧ (selfTestRun p s).aux = s.aux ∧
    (selfTestRun p s).ev = s.ev ∧ (selfTestRun p s).ptp = s.ptp ∧ (selfTestRun p s).modPhase = s.modPhase ∧
    (selfTestRun p s).shift = s.shift ∧ (selfTestRun p s).segIdent = s.segIdent ∧ (selfTestRun p s).fv = s.fv ∧
    (selfTestRun p s).out = s.out := by
  simp [selfTestRun]

@[simp] theorem selfTestTick_frame (s : State) :
    (selfTestTick s).pending = s.pending ∧ (selfTestTick s).power = s.power ∧ (selfTestTick s).time = s.time ∧
    (selfTestTick s).conf = s.conf ∧ (selfTestTick s).act = s.act ∧ (selfTestTick s).dict = s.dict ∧
    (selfTestTick s).store = s.store ∧ (selfTestTick s).clocks = s.clocks ∧ (selfTestTick s).chans = s.chans ∧
    (selfTestTick s).dies = s.dies ∧ (selfTestTick s).ref = s.ref ∧ (selfTestTick s).cal = s.cal ∧
    (selfTestTick s).groups = s.groups ∧ (selfTestTick s).map = s.map ∧ (selfTestTick s).streams = s.streams ∧
    (selfTestTick s).frame = s.frame ∧ (selfTestTick s).buf = s.buf ∧ (selfTestTick s).link = s.link ∧
    (selfTestTick s).units = s.units ∧ (selfTestTick s).outs = s.outs ∧ (selfTestTick s).aux = s.aux ∧
    (selfTestTick s).ev = s.ev ∧ (selfTestTick s).ptp = s.ptp ∧ (selfTestTick s).modPhase = s.modPhase ∧
    (selfTestTick s).shift = s.shift ∧ (selfTestTick s).segIdent = s.segIdent ∧ (selfTestTick s).fv = s.fv ∧
    (selfTestTick s).out = s.out := by
  simp [selfTestTick]

@[simp] theorem retirePort_frame (p : Nat) (s : State) :
    (retirePort p s).pending = s.pending ∧ (retirePort p s).conf.cfg = s.conf.cfg ∧
    (retirePort p s).power.vmain = s.power.vmain ∧ (retirePort p s).time.tw = s.time.tw := by
  simp [retirePort]

@[simp] theorem selfTestEnd_frame (p : Nat) (errors : Bool) (s : State) :
    (selfTestEnd p errors s).pending = s.pending ∧ (selfTestEnd p errors s).conf.cfg = s.conf.cfg ∧
    (selfTestEnd p errors s).power.vmain = s.power.vmain ∧ (selfTestEnd p errors s).time.tw = s.time.tw := by
  simp [selfTestEnd]

@[simp] theorem selfTestRetry_frame (p : Nat) (s : State) :
    (selfTestRetry p s).pending = s.pending ∧ (selfTestRetry p s).conf.cfg = s.conf.cfg ∧
    (selfTestRetry p s).power.vmain = s.power.vmain ∧ (selfTestRetry p s).time.tw = s.time.tw := by
  simp [selfTestRetry]

@[simp] theorem keepFinish_frame (s : State) :
    (keepFinish s).pending = s.pending ∧ (keepFinish s).conf.cfg = s.conf.cfg ∧
    (keepFinish s).power.vmain = s.power.vmain ∧ (keepFinish s).time.tw = s.time.tw := by
  simp [keepFinish]

@[simp] theorem cold_frame (m : Mode) (s : State) :
    (cold m s).pending = s.pending ∧ (cold m s).fv = s.fv ∧ (cold m s).out = s.out ∧
    (cold m s).power.vmain = s.power.vmain := by
  simp [cold]

@[simp] theorem bootStart_frame (cause : Nat) (s : State) :
    (bootStart cause s).pending = s.pending ∧ (bootStart cause s).out = s.out ∧
    (bootStart cause s).power.vmain = s.power.vmain := by
  simp [bootStart]

@[simp] theorem hibExit_frame (s : State) :
    (hibExit s).pending = s.pending ∧ (hibExit s).out = s.out ∧ (hibExit s).power.vmain = s.power.vmain := by
  simp [hibExit]

@[simp] theorem vmainApplied_frame (s : State) :
    (vmainApplied s).pending = s.pending ∧ (vmainApplied s).time = s.time ∧ (vmainApplied s).conf = s.conf ∧
    (vmainApplied s).act = s.act ∧ (vmainApplied s).dict = s.dict ∧ (vmainApplied s).store = s.store ∧
    (vmainApplied s).health = s.health ∧ (vmainApplied s).clocks = s.clocks ∧ (vmainApplied s).chans = s.chans ∧
    (vmainApplied s).dies = s.dies ∧ (vmainApplied s).ref = s.ref ∧ (vmainApplied s).cal = s.cal ∧
    (vmainApplied s).groups = s.groups ∧ (vmainApplied s).map = s.map ∧ (vmainApplied s).streams = s.streams ∧
    (vmainApplied s).frame = s.frame ∧ (vmainApplied s).buf = s.buf ∧ (vmainApplied s).link = s.link ∧
    (vmainApplied s).units = s.units ∧ (vmainApplied s).outs = s.outs ∧ (vmainApplied s).aux = s.aux ∧
    (vmainApplied s).ev = s.ev ∧ (vmainApplied s).ptp = s.ptp ∧ (vmainApplied s).modPhase = s.modPhase ∧
    (vmainApplied s).shift = s.shift ∧ (vmainApplied s).segIdent = s.segIdent ∧ (vmainApplied s).fv = s.fv ∧
    (vmainApplied s).out = s.out ∧ (vmainApplied s).power.mode = s.power.mode := by
  simp [vmainApplied]

@[simp] theorem vmainLost_frame (s : State) :
    (vmainLost s).pending = s.pending ∧ (vmainLost s).fv = s.fv ∧ (vmainLost s).out = s.out := by
  simp [vmainLost]

@[simp] theorem wakeChange_frame (level : Bool) (s : State) :
    (wakeChange level s).pending = s.pending ∧ (wakeChange level s).out = s.out ∧
    (wakeChange level s).power.vmain = s.power.vmain := by
  simp [wakeChange]

@[simp] theorem wakeExpiry_frame (s : State) :
    (wakeExpiry s).pending = s.pending ∧ (wakeExpiry s).conf.cfg = s.conf.cfg ∧
    (wakeExpiry s).power.vmain = s.power.vmain ∧ (wakeExpiry s).time.tw = s.time.tw := by
  simp [wakeExpiry]

@[simp] theorem resetFall_frame (s : State) :
    (resetFall s).pending = s.pending ∧ (resetFall s).out = s.out ∧ (resetFall s).power.vmain = s.power.vmain := by
  simp [resetFall]

@[simp] theorem resetRise_frame (s : State) :
    (resetRise s).pending = s.pending ∧ (resetRise s).out = s.out ∧ (resetRise s).power.vmain = s.power.vmain := by
  simp [resetRise]

@[simp] theorem loadCal_frame (r : Option CalRecord) (s : State) :
    (loadCal r s).pending = s.pending ∧ (loadCal r s).power = s.power ∧ (loadCal r s).time = s.time ∧
    (loadCal r s).conf = s.conf ∧ (loadCal r s).act = s.act ∧ (loadCal r s).dict = s.dict ∧
    (loadCal r s).store = s.store ∧ (loadCal r s).health = s.health ∧ (loadCal r s).clocks = s.clocks ∧
    (loadCal r s).ref = s.ref ∧ (loadCal r s).cal = s.cal ∧ (loadCal r s).groups = s.groups ∧
    (loadCal r s).map = s.map ∧ (loadCal r s).streams = s.streams ∧ (loadCal r s).frame = s.frame ∧
    (loadCal r s).buf = s.buf ∧ (loadCal r s).link = s.link ∧ (loadCal r s).units = s.units ∧
    (loadCal r s).outs = s.outs ∧ (loadCal r s).aux = s.aux ∧ (loadCal r s).ev = s.ev ∧ (loadCal r s).ptp = s.ptp ∧
    (loadCal r s).modPhase = s.modPhase ∧ (loadCal r s).shift = s.shift ∧ (loadCal r s).segIdent = s.segIdent ∧
    (loadCal r s).fv = s.fv ∧ (loadCal r s).out = s.out := by
  unfold loadCal; (repeat' split) <;> simp

@[simp] theorem loadKeep_frame (s : State) :
    (loadKeep s).pending = s.pending ∧ (loadKeep s).power = s.power ∧ (loadKeep s).conf = s.conf ∧
    (loadKeep s).act = s.act ∧ (loadKeep s).store = s.store ∧ (loadKeep s).clocks = s.clocks ∧
    (loadKeep s).chans = s.chans ∧ (loadKeep s).dies = s.dies ∧ (loadKeep s).cal = s.cal ∧
    (loadKeep s).groups = s.groups ∧ (loadKeep s).map = s.map ∧ (loadKeep s).streams = s.streams ∧
    (loadKeep s).frame = s.frame ∧ (loadKeep s).buf = s.buf ∧ (loadKeep s).link = s.link ∧
    (loadKeep s).units = s.units ∧ (loadKeep s).outs = s.outs ∧ (loadKeep s).aux = s.aux ∧ (loadKeep s).ev = s.ev ∧
    (loadKeep s).ptp = s.ptp ∧ (loadKeep s).modPhase = s.modPhase ∧ (loadKeep s).shift = s.shift ∧
    (loadKeep s).segIdent = s.segIdent ∧ (loadKeep s).fv = s.fv ∧ (loadKeep s).out = s.out ∧
    (loadKeep s).time.tw = s.time.tw ∧ (loadKeep s).time.quality = s.time.quality := by
  simp [loadKeep]

@[simp] theorem loadImage_frame (slot : BootRead) (s : State) :
    (loadImage slot s).pending = s.pending ∧ (loadImage slot s).power = s.power ∧ (loadImage slot s).time = s.time ∧
    (loadImage slot s).act = s.act ∧ (loadImage slot s).dict = s.dict ∧ (loadImage slot s).health = s.health ∧
    (loadImage slot s).clocks = s.clocks ∧ (loadImage slot s).ref = s.ref ∧ (loadImage slot s).cal = s.cal ∧
    (loadImage slot s).map = s.map ∧ (loadImage slot s).streams = s.streams ∧ (loadImage slot s).frame = s.frame ∧
    (loadImage slot s).buf = s.buf ∧ (loadImage slot s).link = s.link ∧ (loadImage slot s).units = s.units ∧
    (loadImage slot s).outs = s.outs ∧ (loadImage slot s).aux = s.aux ∧ (loadImage slot s).ev = s.ev ∧
    (loadImage slot s).ptp = s.ptp ∧ (loadImage slot s).modPhase = s.modPhase ∧ (loadImage slot s).shift = s.shift ∧
    (loadImage slot s).segIdent = s.segIdent ∧ (loadImage slot s).fv = s.fv ∧ (loadImage slot s).out = s.out := by
  simp [loadImage]

@[simp] theorem bootMirror_frame (s : State) :
    (bootMirror s).pending = s.pending ∧ (bootMirror s).power = s.power ∧ (bootMirror s).time = s.time ∧
    (bootMirror s).conf = s.conf ∧ (bootMirror s).act = s.act ∧ (bootMirror s).dict = s.dict ∧
    (bootMirror s).health = s.health ∧ (bootMirror s).clocks = s.clocks ∧ (bootMirror s).chans = s.chans ∧
    (bootMirror s).dies = s.dies ∧ (bootMirror s).ref = s.ref ∧ (bootMirror s).cal = s.cal ∧
    (bootMirror s).groups = s.groups ∧ (bootMirror s).map = s.map ∧ (bootMirror s).streams = s.streams ∧
    (bootMirror s).frame = s.frame ∧ (bootMirror s).buf = s.buf ∧ (bootMirror s).link = s.link ∧
    (bootMirror s).units = s.units ∧ (bootMirror s).outs = s.outs ∧ (bootMirror s).aux = s.aux ∧
    (bootMirror s).ev = s.ev ∧ (bootMirror s).ptp = s.ptp ∧ (bootMirror s).modPhase = s.modPhase ∧
    (bootMirror s).shift = s.shift ∧ (bootMirror s).segIdent = s.segIdent ∧ (bootMirror s).fv = s.fv ∧
    (bootMirror s).out = s.out := by
  simp only [bootMirror]; (repeat' split) <;> simp

@[simp] theorem bootLevel_frame (s : State) :
    (bootLevel s).pending = s.pending ∧ (bootLevel s).power = s.power ∧ (bootLevel s).time = s.time ∧
    (bootLevel s).conf = s.conf ∧ (bootLevel s).act = s.act ∧ (bootLevel s).dict = s.dict ∧
    (bootLevel s).store = s.store ∧ (bootLevel s).health = s.health ∧ (bootLevel s).chans = s.chans ∧
    (bootLevel s).dies = s.dies ∧ (bootLevel s).ref = s.ref ∧ (bootLevel s).cal = s.cal ∧
    (bootLevel s).groups = s.groups ∧ (bootLevel s).map = s.map ∧ (bootLevel s).streams = s.streams ∧
    (bootLevel s).frame = s.frame ∧ (bootLevel s).buf = s.buf ∧ (bootLevel s).link = s.link ∧
    (bootLevel s).units = s.units ∧ (bootLevel s).outs = s.outs ∧ (bootLevel s).aux = s.aux ∧
    (bootLevel s).ev = s.ev ∧ (bootLevel s).ptp = s.ptp ∧ (bootLevel s).modPhase = s.modPhase ∧
    (bootLevel s).shift = s.shift ∧ (bootLevel s).segIdent = s.segIdent ∧ (bootLevel s).out = s.out := by
  simp [bootLevel]

@[simp] theorem bootOut_frame (m : Mode) (s : State) :
    (bootOut m s).pending = s.pending ∧ (bootOut m s).conf = s.conf ∧ (bootOut m s).act = s.act ∧
    (bootOut m s).dict = s.dict ∧ (bootOut m s).store = s.store ∧ (bootOut m s).health = s.health ∧
    (bootOut m s).clocks = s.clocks ∧ (bootOut m s).chans = s.chans ∧ (bootOut m s).ref = s.ref ∧
    (bootOut m s).cal = s.cal ∧ (bootOut m s).groups = s.groups ∧ (bootOut m s).map = s.map ∧
    (bootOut m s).streams = s.streams ∧ (bootOut m s).buf = s.buf ∧ (bootOut m s).units = s.units ∧
    (bootOut m s).outs = s.outs ∧ (bootOut m s).aux = s.aux ∧ (bootOut m s).ev = s.ev ∧
    (bootOut m s).modPhase = s.modPhase ∧ (bootOut m s).shift = s.shift ∧ (bootOut m s).segIdent = s.segIdent ∧
    (bootOut m s).fv = s.fv ∧ (bootOut m s).out = s.out ∧ (bootOut m s).power.vmain = s.power.vmain ∧
    (bootOut m s).time.quality = s.time.quality ∧ (bootOut m s).time.epoch = s.time.epoch := by
  simp [bootOut]

@[simp] theorem bootComplete_frame (selfTest : Bool) (slot : BootRead) (s : State) :
    (bootComplete selfTest slot s).pending = s.pending ∧ (bootComplete selfTest slot s).act = s.act ∧
    (bootComplete selfTest slot s).cal = s.cal ∧ (bootComplete selfTest slot s).map = s.map ∧
    (bootComplete selfTest slot s).streams = s.streams ∧ (bootComplete selfTest slot s).buf = s.buf ∧
    (bootComplete selfTest slot s).units = s.units ∧ (bootComplete selfTest slot s).outs = s.outs ∧
    (bootComplete selfTest slot s).aux = s.aux ∧ (bootComplete selfTest slot s).ev = s.ev ∧
    (bootComplete selfTest slot s).modPhase = s.modPhase ∧ (bootComplete selfTest slot s).shift = s.shift ∧
    (bootComplete selfTest slot s).segIdent = s.segIdent ∧ (bootComplete selfTest slot s).out = s.out ∧
    (bootComplete selfTest slot s).power.vmain = s.power.vmain ∧
    (bootComplete selfTest slot s).time.quality = s.time.quality := by
  simp [bootComplete]

@[simp] theorem warmDone_frame (s : State) :
    (warmDone s).pending = s.pending ∧ (warmDone s).conf.cfg = s.conf.cfg ∧ (warmDone s).power.vmain = s.power.vmain ∧
    (warmDone s).time.tw = s.time.tw := by
  simp [warmDone]

@[simp] theorem warmOvertime_frame (s : State) :
    (warmOvertime s).pending = s.pending ∧ (warmOvertime s).time = s.time ∧ (warmOvertime s).conf = s.conf ∧
    (warmOvertime s).act = s.act ∧ (warmOvertime s).dict = s.dict ∧ (warmOvertime s).store = s.store ∧
    (warmOvertime s).clocks = s.clocks ∧ (warmOvertime s).chans = s.chans ∧ (warmOvertime s).dies = s.dies ∧
    (warmOvertime s).ref = s.ref ∧ (warmOvertime s).cal = s.cal ∧ (warmOvertime s).groups = s.groups ∧
    (warmOvertime s).map = s.map ∧ (warmOvertime s).streams = s.streams ∧ (warmOvertime s).frame = s.frame ∧
    (warmOvertime s).buf = s.buf ∧ (warmOvertime s).link = s.link ∧ (warmOvertime s).units = s.units ∧
    (warmOvertime s).outs = s.outs ∧ (warmOvertime s).aux = s.aux ∧ (warmOvertime s).ev = s.ev ∧
    (warmOvertime s).ptp = s.ptp ∧ (warmOvertime s).modPhase = s.modPhase ∧ (warmOvertime s).shift = s.shift ∧
    (warmOvertime s).segIdent = s.segIdent ∧ (warmOvertime s).fv = s.fv ∧ (warmOvertime s).out = s.out ∧
    (warmOvertime s).power.vmain = s.power.vmain ∧ (warmOvertime s).power.mode = s.power.mode := by
  simp [warmOvertime]

@[simp] theorem hibernateWrite_frame (r : Role) (v : BitVec 8) (s : State) :
    (hibernateWrite r v s).st.pending = s.pending ∧ (hibernateWrite r v s).st.time = s.time ∧
    (hibernateWrite r v s).st.conf = s.conf ∧ (hibernateWrite r v s).st.act = s.act ∧
    (hibernateWrite r v s).st.dict = s.dict ∧ (hibernateWrite r v s).st.store = s.store ∧
    (hibernateWrite r v s).st.health = s.health ∧ (hibernateWrite r v s).st.clocks = s.clocks ∧
    (hibernateWrite r v s).st.chans = s.chans ∧ (hibernateWrite r v s).st.dies = s.dies ∧
    (hibernateWrite r v s).st.ref = s.ref ∧ (hibernateWrite r v s).st.cal = s.cal ∧
    (hibernateWrite r v s).st.groups = s.groups ∧ (hibernateWrite r v s).st.map = s.map ∧
    (hibernateWrite r v s).st.streams = s.streams ∧ (hibernateWrite r v s).st.frame = s.frame ∧
    (hibernateWrite r v s).st.buf = s.buf ∧ (hibernateWrite r v s).st.link = s.link ∧
    (hibernateWrite r v s).st.units = s.units ∧ (hibernateWrite r v s).st.outs = s.outs ∧
    (hibernateWrite r v s).st.aux = s.aux ∧ (hibernateWrite r v s).st.ev = s.ev ∧
    (hibernateWrite r v s).st.ptp = s.ptp ∧ (hibernateWrite r v s).st.modPhase = s.modPhase ∧
    (hibernateWrite r v s).st.shift = s.shift ∧ (hibernateWrite r v s).st.segIdent = s.segIdent ∧
    (hibernateWrite r v s).st.fv = s.fv ∧ (hibernateWrite r v s).st.out = s.out ∧
    (hibernateWrite r v s).st.power.vmain = s.power.vmain ∧ (hibernateWrite r v s).st.power.mode = s.power.mode := by
  unfold hibernateWrite gate; dsimp only; (repeat' split) <;> first | rfl | simp

@[simp] theorem hibernateEntry_frame (s : State) :
    (hibernateEntry s).pending = s.pending ∧ (hibernateEntry s).power.vmain = s.power.vmain := by
  simp [hibernateEntry]

@[simp] theorem moduleResetWrite_frame (r : Role) (v : BitVec 8) (s : State) :
    (moduleResetWrite r v s).st.pending = s.pending ∧ (moduleResetWrite r v s).st.time = s.time ∧
    (moduleResetWrite r v s).st.conf = s.conf ∧ (moduleResetWrite r v s).st.act = s.act ∧
    (moduleResetWrite r v s).st.dict = s.dict ∧ (moduleResetWrite r v s).st.store = s.store ∧
    (moduleResetWrite r v s).st.health = s.health ∧ (moduleResetWrite r v s).st.clocks = s.clocks ∧
    (moduleResetWrite r v s).st.chans = s.chans ∧ (moduleResetWrite r v s).st.dies = s.dies ∧
    (moduleResetWrite r v s).st.ref = s.ref ∧ (moduleResetWrite r v s).st.cal = s.cal ∧
    (moduleResetWrite r v s).st.groups = s.groups ∧ (moduleResetWrite r v s).st.map = s.map ∧
    (moduleResetWrite r v s).st.streams = s.streams ∧ (moduleResetWrite r v s).st.frame = s.frame ∧
    (moduleResetWrite r v s).st.buf = s.buf ∧ (moduleResetWrite r v s).st.link = s.link ∧
    (moduleResetWrite r v s).st.units = s.units ∧ (moduleResetWrite r v s).st.outs = s.outs ∧
    (moduleResetWrite r v s).st.aux = s.aux ∧ (moduleResetWrite r v s).st.ev = s.ev ∧
    (moduleResetWrite r v s).st.ptp = s.ptp ∧ (moduleResetWrite r v s).st.modPhase = s.modPhase ∧
    (moduleResetWrite r v s).st.shift = s.shift ∧ (moduleResetWrite r v s).st.segIdent = s.segIdent ∧
    (moduleResetWrite r v s).st.fv = s.fv ∧ (moduleResetWrite r v s).st.out = s.out ∧
    (moduleResetWrite r v s).st.power.vmain = s.power.vmain ∧ (moduleResetWrite r v s).st.power.mode = s.power.mode := by
  unfold moduleResetWrite gate; dsimp only; (repeat' split) <;> first | rfl | simp

@[simp] theorem resetEntry_frame (s : State) :
    (resetEntry s).pending = s.pending ∧ (resetEntry s).out = s.out ∧ (resetEntry s).power.vmain = s.power.vmain := by
  unfold resetEntry; (repeat' split) <;> simp

@[simp] theorem jtagUpdate_frame (j : JtagEvent) (s : State) :
    (jtagUpdate j s).pending = s.pending ∧ (jtagUpdate j s).conf.cfg = s.conf.cfg ∧
    (jtagUpdate j s).power.vmain = s.power.vmain := by
  unfold jtagUpdate; (repeat' split) <;> simp

@[simp] theorem countTick_frame (s : State) :
    (countTick s).pending = s.pending ∧ (countTick s).power = s.power ∧ (countTick s).time = s.time ∧
    (countTick s).conf = s.conf ∧ (countTick s).dict = s.dict ∧ (countTick s).store = s.store ∧
    (countTick s).health = s.health ∧ (countTick s).clocks = s.clocks ∧ (countTick s).chans = s.chans ∧
    (countTick s).dies = s.dies ∧ (countTick s).ref = s.ref ∧ (countTick s).cal = s.cal ∧
    (countTick s).groups = s.groups ∧ (countTick s).map = s.map ∧ (countTick s).streams = s.streams ∧
    (countTick s).frame = s.frame ∧ (countTick s).buf = s.buf ∧ (countTick s).link = s.link ∧
    (countTick s).units = s.units ∧ (countTick s).outs = s.outs ∧ (countTick s).aux = s.aux ∧
    (countTick s).ev = s.ev ∧ (countTick s).ptp = s.ptp ∧ (countTick s).modPhase = s.modPhase ∧
    (countTick s).shift = s.shift ∧ (countTick s).segIdent = s.segIdent ∧ (countTick s).fv = s.fv ∧
    (countTick s).out = s.out := by
  simp [countTick]

@[simp] theorem dueAfterStep_frame (s : State) :
    (dueAfterStep s).pending = s.pending ∧ (dueAfterStep s).power = s.power ∧ (dueAfterStep s).time = s.time ∧
    (dueAfterStep s).conf = s.conf ∧ (dueAfterStep s).dict = s.dict ∧ (dueAfterStep s).store = s.store ∧
    (dueAfterStep s).health = s.health ∧ (dueAfterStep s).clocks = s.clocks ∧ (dueAfterStep s).chans = s.chans ∧
    (dueAfterStep s).dies = s.dies ∧ (dueAfterStep s).ref = s.ref ∧ (dueAfterStep s).cal = s.cal ∧
    (dueAfterStep s).groups = s.groups ∧ (dueAfterStep s).map = s.map ∧ (dueAfterStep s).streams = s.streams ∧
    (dueAfterStep s).frame = s.frame ∧ (dueAfterStep s).buf = s.buf ∧ (dueAfterStep s).link = s.link ∧
    (dueAfterStep s).units = s.units ∧ (dueAfterStep s).outs = s.outs ∧ (dueAfterStep s).aux = s.aux ∧
    (dueAfterStep s).ev = s.ev ∧ (dueAfterStep s).ptp = s.ptp ∧ (dueAfterStep s).modPhase = s.modPhase ∧
    (dueAfterStep s).shift = s.shift ∧ (dueAfterStep s).segIdent = s.segIdent ∧ (dueAfterStep s).fv = s.fv ∧
    (dueAfterStep s).out = s.out := by
  simp [dueAfterStep]

@[simp] theorem retick_frame (s : State) :
    (retick s).pending = s.pending ∧ (retick s).power = s.power ∧ (retick s).time = s.time ∧
    (retick s).conf = s.conf ∧ (retick s).dict = s.dict ∧ (retick s).store = s.store ∧ (retick s).health = s.health ∧
    (retick s).clocks = s.clocks ∧ (retick s).chans = s.chans ∧ (retick s).dies = s.dies ∧ (retick s).ref = s.ref ∧
    (retick s).cal = s.cal ∧ (retick s).groups = s.groups ∧ (retick s).map = s.map ∧ (retick s).streams = s.streams ∧
    (retick s).frame = s.frame ∧ (retick s).buf = s.buf ∧ (retick s).link = s.link ∧ (retick s).units = s.units ∧
    (retick s).outs = s.outs ∧ (retick s).aux = s.aux ∧ (retick s).ev = s.ev ∧ (retick s).ptp = s.ptp ∧
    (retick s).modPhase = s.modPhase ∧ (retick s).shift = s.shift ∧ (retick s).segIdent = s.segIdent ∧
    (retick s).fv = s.fv ∧ (retick s).out = s.out := by
  simp [retick]

@[simp] theorem newSegs_frame (lim start : Nat → Nat) (s : State) :
    (newSegs lim start s).pending = s.pending ∧ (newSegs lim start s).power = s.power ∧
    (newSegs lim start s).time = s.time ∧ (newSegs lim start s).conf = s.conf ∧ (newSegs lim start s).act = s.act ∧
    (newSegs lim start s).dict = s.dict ∧ (newSegs lim start s).store = s.store ∧
    (newSegs lim start s).health = s.health ∧ (newSegs lim start s).clocks = s.clocks ∧
    (newSegs lim start s).chans = s.chans ∧ (newSegs lim start s).dies = s.dies ∧ (newSegs lim start s).ref = s.ref ∧
    (newSegs lim start s).cal = s.cal ∧ (newSegs lim start s).groups = s.groups ∧ (newSegs lim start s).map = s.map ∧
    (newSegs lim start s).frame = s.frame ∧ (newSegs lim start s).buf = s.buf ∧ (newSegs lim start s).link = s.link ∧
    (newSegs lim start s).units = s.units ∧ (newSegs lim start s).outs = s.outs ∧ (newSegs lim start s).aux = s.aux ∧
    (newSegs lim start s).ev = s.ev ∧ (newSegs lim start s).ptp = s.ptp ∧
    (newSegs lim start s).modPhase = s.modPhase ∧ (newSegs lim start s).shift = s.shift ∧
    (newSegs lim start s).fv = s.fv ∧ (newSegs lim start s).out = s.out := by
  simp [newSegs]

@[simp] theorem jumpTo_frame (t : TW) (delta : Int) (s : State) :
    (jumpTo t delta s).power = s.power ∧ (jumpTo t delta s).conf = s.conf ∧ (jumpTo t delta s).act = s.act ∧
    (jumpTo t delta s).dict = s.dict ∧ (jumpTo t delta s).store = s.store ∧ (jumpTo t delta s).health = s.health ∧
    (jumpTo t delta s).clocks = s.clocks ∧ (jumpTo t delta s).chans = s.chans ∧ (jumpTo t delta s).dies = s.dies ∧
    (jumpTo t delta s).ref = s.ref ∧ (jumpTo t delta s).cal = s.cal ∧ (jumpTo t delta s).groups = s.groups ∧
    (jumpTo t delta s).map = s.map ∧ (jumpTo t delta s).frame = s.frame ∧ (jumpTo t delta s).buf = s.buf ∧
    (jumpTo t delta s).link = s.link ∧ (jumpTo t delta s).units = s.units ∧ (jumpTo t delta s).outs = s.outs ∧
    (jumpTo t delta s).ev = s.ev ∧ (jumpTo t delta s).modPhase = s.modPhase ∧ (jumpTo t delta s).fv = s.fv ∧
    (jumpTo t delta s).out = s.out ∧ (jumpTo t delta s).time.quality = s.time.quality ∧
    (jumpTo t delta s).time.epoch = s.time.epoch := by
  simp [jumpTo]

@[simp] theorem firstLock_frame (s : State) :
    (firstLock s).power = s.power ∧ (firstLock s).conf = s.conf ∧ (firstLock s).act = s.act ∧
    (firstLock s).dict = s.dict ∧ (firstLock s).store = s.store ∧ (firstLock s).clocks = s.clocks ∧
    (firstLock s).chans = s.chans ∧ (firstLock s).dies = s.dies ∧ (firstLock s).ref = s.ref ∧
    (firstLock s).cal = s.cal ∧ (firstLock s).groups = s.groups ∧ (firstLock s).map = s.map ∧
    (firstLock s).frame = s.frame ∧ (firstLock s).buf = s.buf ∧ (firstLock s).link = s.link ∧
    (firstLock s).units = s.units ∧ (firstLock s).outs = s.outs ∧ (firstLock s).ev = s.ev ∧
    (firstLock s).modPhase = s.modPhase ∧ (firstLock s).fv = s.fv ∧ (firstLock s).out = s.out ∧
    (firstLock s).time.epoch = s.time.epoch := by
  simp [firstLock]

@[simp] theorem firstSet_frame (t : TW) (s : State) :
    (firstSet t s).power = s.power ∧ (firstSet t s).conf = s.conf ∧ (firstSet t s).act = s.act ∧
    (firstSet t s).dict = s.dict ∧ (firstSet t s).store = s.store ∧ (firstSet t s).clocks = s.clocks ∧
    (firstSet t s).chans = s.chans ∧ (firstSet t s).dies = s.dies ∧ (firstSet t s).ref = s.ref ∧
    (firstSet t s).cal = s.cal ∧ (firstSet t s).groups = s.groups ∧ (firstSet t s).map = s.map ∧
    (firstSet t s).frame = s.frame ∧ (firstSet t s).buf = s.buf ∧ (firstSet t s).link = s.link ∧
    (firstSet t s).units = s.units ∧ (firstSet t s).outs = s.outs ∧ (firstSet t s).ev = s.ev ∧
    (firstSet t s).modPhase = s.modPhase ∧ (firstSet t s).out = s.out ∧ (firstSet t s).time.epoch = s.time.epoch := by
  simp [firstSet]

@[simp] theorem setTime_frame (s : State) :
    (setTime s).power = s.power ∧ (setTime s).conf = s.conf ∧ (setTime s).act = s.act ∧ (setTime s).dict = s.dict ∧
    (setTime s).store = s.store ∧ (setTime s).clocks = s.clocks ∧ (setTime s).chans = s.chans ∧
    (setTime s).dies = s.dies ∧ (setTime s).ref = s.ref ∧ (setTime s).cal = s.cal ∧ (setTime s).groups = s.groups ∧
    (setTime s).map = s.map ∧ (setTime s).frame = s.frame ∧ (setTime s).buf = s.buf ∧ (setTime s).link = s.link ∧
    (setTime s).units = s.units ∧ (setTime s).outs = s.outs ∧ (setTime s).ev = s.ev ∧
    (setTime s).modPhase = s.modPhase ∧ (setTime s).out = s.out ∧ (setTime s).time.epoch = s.time.epoch := by
  unfold setTime; (repeat' split) <;> simp

@[simp] theorem fireJumped_frame (n : List Nat) (s : State) :
    (fireJumped n s).pending = s.pending ∧ (fireJumped n s).power = s.power ∧ (fireJumped n s).time = s.time ∧
    (fireJumped n s).conf = s.conf ∧ (fireJumped n s).act = s.act ∧ (fireJumped n s).dict = s.dict ∧
    (fireJumped n s).store = s.store ∧ (fireJumped n s).clocks = s.clocks ∧ (fireJumped n s).chans = s.chans ∧
    (fireJumped n s).dies = s.dies ∧ (fireJumped n s).ref = s.ref ∧ (fireJumped n s).cal = s.cal ∧
    (fireJumped n s).groups = s.groups ∧ (fireJumped n s).map = s.map ∧ (fireJumped n s).streams = s.streams ∧
    (fireJumped n s).frame = s.frame ∧ (fireJumped n s).buf = s.buf ∧ (fireJumped n s).aux = s.aux ∧
    (fireJumped n s).ptp = s.ptp ∧ (fireJumped n s).modPhase = s.modPhase ∧ (fireJumped n s).shift = s.shift ∧
    (fireJumped n s).segIdent = s.segIdent ∧ (fireJumped n s).out = s.out := by
  simp [fireJumped]

@[simp] theorem stepTime_frame (delta : BitVec 64) (s : State) :
    (stepTime delta s).power = s.power ∧ (stepTime delta s).conf = s.conf ∧ (stepTime delta s).act = s.act ∧
    (stepTime delta s).dict = s.dict ∧ (stepTime delta s).clocks = s.clocks ∧ (stepTime delta s).chans = s.chans ∧
    (stepTime delta s).dies = s.dies ∧ (stepTime delta s).ref = s.ref ∧ (stepTime delta s).cal = s.cal ∧
    (stepTime delta s).groups = s.groups ∧ (stepTime delta s).map = s.map ∧ (stepTime delta s).frame = s.frame ∧
    (stepTime delta s).buf = s.buf ∧ (stepTime delta s).modPhase = s.modPhase ∧ (stepTime delta s).out = s.out ∧
    (stepTime delta s).time.quality = s.time.quality := by
  simp [stepTime]

@[simp] theorem unsched_frame (e : Sched) (s : State) :
    (unsched e s).pending = s.pending ∧ (unsched e s).power = s.power ∧ (unsched e s).time = s.time ∧
    (unsched e s).conf = s.conf ∧ (unsched e s).dict = s.dict ∧ (unsched e s).store = s.store ∧
    (unsched e s).health = s.health ∧ (unsched e s).clocks = s.clocks ∧ (unsched e s).chans = s.chans ∧
    (unsched e s).dies = s.dies ∧ (unsched e s).ref = s.ref ∧ (unsched e s).cal = s.cal ∧
    (unsched e s).groups = s.groups ∧ (unsched e s).map = s.map ∧ (unsched e s).streams = s.streams ∧
    (unsched e s).frame = s.frame ∧ (unsched e s).buf = s.buf ∧ (unsched e s).link = s.link ∧
    (unsched e s).units = s.units ∧ (unsched e s).outs = s.outs ∧ (unsched e s).aux = s.aux ∧
    (unsched e s).ev = s.ev ∧ (unsched e s).ptp = s.ptp ∧ (unsched e s).modPhase = s.modPhase ∧
    (unsched e s).shift = s.shift ∧ (unsched e s).segIdent = s.segIdent ∧ (unsched e s).fv = s.fv ∧
    (unsched e s).out = s.out := by
  simp [unsched]

@[simp] theorem startStream_frame (st : Nat) (s : State) :
    (startStream st s).pending = s.pending ∧ (startStream st s).power = s.power ∧ (startStream st s).time = s.time ∧
    (startStream st s).conf = s.conf ∧ (startStream st s).act = s.act ∧ (startStream st s).dict = s.dict ∧
    (startStream st s).store = s.store ∧ (startStream st s).health = s.health ∧ (startStream st s).clocks = s.clocks ∧
    (startStream st s).chans = s.chans ∧ (startStream st s).dies = s.dies ∧ (startStream st s).ref = s.ref ∧
    (startStream st s).cal = s.cal ∧ (startStream st s).groups = s.groups ∧ (startStream st s).map = s.map ∧
    (startStream st s).frame = s.frame ∧ (startStream st s).buf = s.buf ∧ (startStream st s).link = s.link ∧
    (startStream st s).outs = s.outs ∧ (startStream st s).aux = s.aux ∧ (startStream st s).ev = s.ev ∧
    (startStream st s).ptp = s.ptp ∧ (startStream st s).modPhase = s.modPhase ∧ (startStream st s).shift = s.shift ∧
    (startStream st s).segIdent = s.segIdent ∧ (startStream st s).fv = s.fv ∧ (startStream st s).out = s.out := by
  simp [startStream]

@[simp] theorem stopStream_frame (st : Nat) (s : State) :
    (stopStream st s).pending = s.pending ∧ (stopStream st s).power = s.power ∧ (stopStream st s).time = s.time ∧
    (stopStream st s).conf = s.conf ∧ (stopStream st s).act = s.act ∧ (stopStream st s).dict = s.dict ∧
    (stopStream st s).store = s.store ∧ (stopStream st s).health = s.health ∧ (stopStream st s).clocks = s.clocks ∧
    (stopStream st s).chans = s.chans ∧ (stopStream st s).dies = s.dies ∧ (stopStream st s).ref = s.ref ∧
    (stopStream st s).cal = s.cal ∧ (stopStream st s).groups = s.groups ∧ (stopStream st s).map = s.map ∧
    (stopStream st s).frame = s.frame ∧ (stopStream st s).buf = s.buf ∧ (stopStream st s).link = s.link ∧
    (stopStream st s).outs = s.outs ∧ (stopStream st s).aux = s.aux ∧ (stopStream st s).ev = s.ev ∧
    (stopStream st s).ptp = s.ptp ∧ (stopStream st s).modPhase = s.modPhase ∧ (stopStream st s).shift = s.shift ∧
    (stopStream st s).segIdent = s.segIdent ∧ (stopStream st s).fv = s.fv ∧ (stopStream st s).out = s.out := by
  simp [stopStream]

@[simp] theorem fireEffect_frame (e : Sched) (s : State) :
    (fireEffect e s).power = s.power ∧ (fireEffect e s).conf = s.conf ∧ (fireEffect e s).act = s.act ∧
    (fireEffect e s).dict = s.dict ∧ (fireEffect e s).clocks = s.clocks ∧ (fireEffect e s).dies = s.dies ∧
    (fireEffect e s).ref = s.ref ∧ (fireEffect e s).cal = s.cal ∧ (fireEffect e s).map = s.map ∧
    (fireEffect e s).frame = s.frame ∧ (fireEffect e s).buf = s.buf ∧ (fireEffect e s).modPhase = s.modPhase ∧
    (fireEffect e s).out = s.out ∧ (fireEffect e s).time.quality = s.time.quality := by
  unfold fireEffect; (repeat' split) <;> simp

@[simp] theorem fireOne_frame (old : TW) (a : Fired) (e : Sched) :
    (fireOne old a e).st.power = a.st.power ∧ (fireOne old a e).st.conf = a.st.conf ∧
    (fireOne old a e).st.dict = a.st.dict ∧ (fireOne old a e).st.clocks = a.st.clocks ∧
    (fireOne old a e).st.dies = a.st.dies ∧ (fireOne old a e).st.ref = a.st.ref ∧
    (fireOne old a e).st.cal = a.st.cal ∧ (fireOne old a e).st.map = a.st.map ∧
    (fireOne old a e).st.frame = a.st.frame ∧ (fireOne old a e).st.buf = a.st.buf ∧
    (fireOne old a e).st.modPhase = a.st.modPhase ∧ (fireOne old a e).st.out = a.st.out ∧
    (fireOne old a e).st.time.quality = a.st.time.quality := by
  unfold fireOne; (repeat' split) <;> simp

@[simp] theorem fireStep_frame (old : TW) (a : Fired) :
    (fireStep old a).st.power = a.st.power ∧ (fireStep old a).st.conf = a.st.conf ∧
    (fireStep old a).st.dict = a.st.dict ∧ (fireStep old a).st.clocks = a.st.clocks ∧
    (fireStep old a).st.dies = a.st.dies ∧ (fireStep old a).st.ref = a.st.ref ∧ (fireStep old a).st.cal = a.st.cal ∧
    (fireStep old a).st.map = a.st.map ∧ (fireStep old a).st.frame = a.st.frame ∧ (fireStep old a).st.buf = a.st.buf ∧
    (fireStep old a).st.modPhase = a.st.modPhase ∧ (fireStep old a).st.out = a.st.out ∧
    (fireStep old a).st.time.quality = a.st.time.quality := by
  unfold fireStep; (repeat' split) <;> simp

@[simp] theorem hoistChannels_frame (content : KV) (s : State) :
    (hoistChannels content s).pending = s.pending ∧ (hoistChannels content s).power = s.power ∧
    (hoistChannels content s).time = s.time ∧ (hoistChannels content s).conf = s.conf ∧
    (hoistChannels content s).act = s.act ∧ (hoistChannels content s).dict = s.dict ∧
    (hoistChannels content s).store = s.store ∧ (hoistChannels content s).health = s.health ∧
    (hoistChannels content s).clocks = s.clocks ∧ (hoistChannels content s).dies = s.dies ∧
    (hoistChannels content s).ref = s.ref ∧ (hoistChannels content s).cal = s.cal ∧
    (hoistChannels content s).groups = s.groups ∧ (hoistChannels content s).map = s.map ∧
    (hoistChannels content s).streams = s.streams ∧ (hoistChannels content s).frame = s.frame ∧
    (hoistChannels content s).buf = s.buf ∧ (hoistChannels content s).link = s.link ∧
    (hoistChannels content s).units = s.units ∧ (hoistChannels content s).outs = s.outs ∧
    (hoistChannels content s).aux = s.aux ∧ (hoistChannels content s).ev = s.ev ∧
    (hoistChannels content s).ptp = s.ptp ∧ (hoistChannels content s).modPhase = s.modPhase ∧
    (hoistChannels content s).shift = s.shift ∧ (hoistChannels content s).segIdent = s.segIdent ∧
    (hoistChannels content s).fv = s.fv ∧ (hoistChannels content s).out = s.out := by
  simp [hoistChannels]

@[simp] theorem hoistChains_frame (was : State) (content : KV) (s : State) :
    (hoistChains was content s).pending = s.pending ∧ (hoistChains was content s).power = s.power ∧
    (hoistChains was content s).time = s.time ∧ (hoistChains was content s).conf = s.conf ∧
    (hoistChains was content s).act = s.act ∧ (hoistChains was content s).dict = s.dict ∧
    (hoistChains was content s).store = s.store ∧ (hoistChains was content s).health = s.health ∧
    (hoistChains was content s).clocks = s.clocks ∧ (hoistChains was content s).chans = s.chans ∧
    (hoistChains was content s).dies = s.dies ∧ (hoistChains was content s).ref = s.ref ∧
    (hoistChains was content s).cal = s.cal ∧ (hoistChains was content s).map = s.map ∧
    (hoistChains was content s).streams = s.streams ∧ (hoistChains was content s).frame = s.frame ∧
    (hoistChains was content s).buf = s.buf ∧ (hoistChains was content s).link = s.link ∧
    (hoistChains was content s).units = s.units ∧ (hoistChains was content s).outs = s.outs ∧
    (hoistChains was content s).aux = s.aux ∧ (hoistChains was content s).ev = s.ev ∧
    (hoistChains was content s).ptp = s.ptp ∧ (hoistChains was content s).modPhase = s.modPhase ∧
    (hoistChains was content s).shift = s.shift ∧ (hoistChains was content s).segIdent = s.segIdent ∧
    (hoistChains was content s).fv = s.fv ∧ (hoistChains was content s).out = s.out := by
  simp [hoistChains]

@[simp] theorem hoistUnits_frame (was : State) (content : KV) (s : State) :
    (hoistUnits was content s).pending = s.pending ∧ (hoistUnits was content s).power = s.power ∧
    (hoistUnits was content s).time = s.time ∧ (hoistUnits was content s).conf = s.conf ∧
    (hoistUnits was content s).act = s.act ∧ (hoistUnits was content s).dict = s.dict ∧
    (hoistUnits was content s).store = s.store ∧ (hoistUnits was content s).health = s.health ∧
    (hoistUnits was content s).clocks = s.clocks ∧ (hoistUnits was content s).chans = s.chans ∧
    (hoistUnits was content s).dies = s.dies ∧ (hoistUnits was content s).ref = s.ref ∧
    (hoistUnits was content s).cal = s.cal ∧ (hoistUnits was content s).groups = s.groups ∧
    (hoistUnits was content s).map = s.map ∧ (hoistUnits was content s).streams = s.streams ∧
    (hoistUnits was content s).frame = s.frame ∧ (hoistUnits was content s).buf = s.buf ∧
    (hoistUnits was content s).link = s.link ∧ (hoistUnits was content s).outs = s.outs ∧
    (hoistUnits was content s).aux = s.aux ∧ (hoistUnits was content s).ev = s.ev ∧
    (hoistUnits was content s).ptp = s.ptp ∧ (hoistUnits was content s).modPhase = s.modPhase ∧
    (hoistUnits was content s).shift = s.shift ∧ (hoistUnits was content s).segIdent = s.segIdent ∧
    (hoistUnits was content s).fv = s.fv ∧ (hoistUnits was content s).out = s.out := by
  simp [hoistUnits]

@[simp] theorem hoistNet_frame (was : State) (content : KV) (s : State) :
    (hoistNet was content s).pending = s.pending ∧ (hoistNet was content s).conf = s.conf ∧
    (hoistNet was content s).act = s.act ∧ (hoistNet was content s).dict = s.dict ∧
    (hoistNet was content s).store = s.store ∧ (hoistNet was content s).chans = s.chans ∧
    (hoistNet was content s).dies = s.dies ∧ (hoistNet was content s).ref = s.ref ∧
    (hoistNet was content s).groups = s.groups ∧ (hoistNet was content s).map = s.map ∧
    (hoistNet was content s).streams = s.streams ∧ (hoistNet was content s).frame = s.frame ∧
    (hoistNet was content s).units = s.units ∧ (hoistNet was content s).outs = s.outs ∧
    (hoistNet was content s).aux = s.aux ∧ (hoistNet was content s).ev = s.ev ∧
    (hoistNet was content s).modPhase = s.modPhase ∧ (hoistNet was content s).shift = s.shift ∧
    (hoistNet was content s).segIdent = s.segIdent ∧ (hoistNet was content s).fv = s.fv ∧
    (hoistNet was content s).out = s.out ∧ (hoistNet was content s).power.vmain = s.power.vmain ∧
    (hoistNet was content s).power.mode = s.power.mode ∧ (hoistNet was content s).time.tw = s.time.tw ∧
    (hoistNet was content s).time.epoch = s.time.epoch := by
  simp [hoistNet]

@[simp] theorem slotClaim_frame (s : State) :
    (slotClaim s).pending = s.pending ∧ (slotClaim s).power = s.power ∧ (slotClaim s).time = s.time ∧
    (slotClaim s).conf = s.conf ∧ (slotClaim s).act = s.act ∧ (slotClaim s).dict = s.dict ∧
    (slotClaim s).health = s.health ∧ (slotClaim s).clocks = s.clocks ∧ (slotClaim s).chans = s.chans ∧
    (slotClaim s).dies = s.dies ∧ (slotClaim s).ref = s.ref ∧ (slotClaim s).cal = s.cal ∧
    (slotClaim s).groups = s.groups ∧ (slotClaim s).map = s.map ∧ (slotClaim s).streams = s.streams ∧
    (slotClaim s).frame = s.frame ∧ (slotClaim s).buf = s.buf ∧ (slotClaim s).link = s.link ∧
    (slotClaim s).units = s.units ∧ (slotClaim s).outs = s.outs ∧ (slotClaim s).aux = s.aux ∧
    (slotClaim s).ev = s.ev ∧ (slotClaim s).ptp = s.ptp ∧ (slotClaim s).modPhase = s.modPhase ∧
    (slotClaim s).shift = s.shift ∧ (slotClaim s).segIdent = s.segIdent ∧ (slotClaim s).fv = s.fv ∧
    (slotClaim s).out = s.out := by
  simp [slotClaim]

@[simp] theorem commit_frame (content : KV) (k : BitVec 128) (s : State) :
    (commit content k s).pending = s.pending ∧ (commit content k s).act = s.act ∧ (commit content k s).dict = s.dict ∧
    (commit content k s).dies = s.dies ∧ (commit content k s).ref = s.ref ∧ (commit content k s).map = s.map ∧
    (commit content k s).streams = s.streams ∧ (commit content k s).frame = s.frame ∧
    (commit content k s).outs = s.outs ∧ (commit content k s).aux = s.aux ∧ (commit content k s).ev = s.ev ∧
    (commit content k s).modPhase = s.modPhase ∧ (commit content k s).shift = s.shift ∧
    (commit content k s).segIdent = s.segIdent ∧ (commit content k s).fv = s.fv ∧ (commit content k s).out = s.out ∧
    (commit content k s).power.vmain = s.power.vmain ∧ (commit content k s).power.mode = s.power.mode ∧
    (commit content k s).time.tw = s.time.tw ∧ (commit content k s).time.epoch = s.time.epoch := by
  simp [commit]

@[simp] theorem fireHoist_frame (old : TW) (e : Sched) (a : Fired) :
    (fireHoist old e a).st.pending = a.st.pending ∧ (fireHoist old e a).st.dict = a.st.dict ∧
    (fireHoist old e a).st.dies = a.st.dies ∧ (fireHoist old e a).st.ref = a.st.ref ∧
    (fireHoist old e a).st.map = a.st.map ∧ (fireHoist old e a).st.streams = a.st.streams ∧
    (fireHoist old e a).st.frame = a.st.frame ∧ (fireHoist old e a).st.outs = a.st.outs ∧
    (fireHoist old e a).st.aux = a.st.aux ∧ (fireHoist old e a).st.ev = a.st.ev ∧
    (fireHoist old e a).st.modPhase = a.st.modPhase ∧ (fireHoist old e a).st.shift = a.st.shift ∧
    (fireHoist old e a).st.segIdent = a.st.segIdent ∧ (fireHoist old e a).st.fv = a.st.fv ∧
    (fireHoist old e a).st.out = a.st.out ∧ (fireHoist old e a).st.power.vmain = a.st.power.vmain ∧
    (fireHoist old e a).st.power.mode = a.st.power.mode ∧ (fireHoist old e a).st.time.tw = a.st.time.tw ∧
    (fireHoist old e a).st.time.epoch = a.st.time.epoch := by
  simp only [fireHoist]; (repeat' split) <;> simp

@[simp] theorem reserveStop_frame (a : Fired) :
    (reserveStop a).st.pending = a.st.pending ∧ (reserveStop a).st.power = a.st.power ∧
    (reserveStop a).st.time = a.st.time ∧ (reserveStop a).st.conf = a.st.conf ∧ (reserveStop a).st.act = a.st.act ∧
    (reserveStop a).st.dict = a.st.dict ∧ (reserveStop a).st.store = a.st.store ∧
    (reserveStop a).st.clocks = a.st.clocks ∧ (reserveStop a).st.chans = a.st.chans ∧
    (reserveStop a).st.dies = a.st.dies ∧ (reserveStop a).st.ref = a.st.ref ∧ (reserveStop a).st.cal = a.st.cal ∧
    (reserveStop a).st.groups = a.st.groups ∧ (reserveStop a).st.map = a.st.map ∧
    (reserveStop a).st.frame = a.st.frame ∧ (reserveStop a).st.link = a.st.link ∧
    (reserveStop a).st.outs = a.st.outs ∧ (reserveStop a).st.aux = a.st.aux ∧ (reserveStop a).st.ev = a.st.ev ∧
    (reserveStop a).st.ptp = a.st.ptp ∧ (reserveStop a).st.modPhase = a.st.modPhase ∧
    (reserveStop a).st.shift = a.st.shift ∧ (reserveStop a).st.segIdent = a.st.segIdent ∧
    (reserveStop a).st.fv = a.st.fv ∧ (reserveStop a).st.out = a.st.out := by
  simp only [reserveStop]; (repeat' split) <;> simp

@[simp] theorem fireOps_frame (old : TW) (hoist : Bool) (level : Nat) (a : Fired) :
    (fireOps old hoist level a).st.power = a.st.power ∧ (fireOps old hoist level a).st.conf = a.st.conf ∧
    (fireOps old hoist level a).st.dict = a.st.dict ∧ (fireOps old hoist level a).st.clocks = a.st.clocks ∧
    (fireOps old hoist level a).st.dies = a.st.dies ∧ (fireOps old hoist level a).st.ref = a.st.ref ∧
    (fireOps old hoist level a).st.cal = a.st.cal ∧ (fireOps old hoist level a).st.map = a.st.map ∧
    (fireOps old hoist level a).st.frame = a.st.frame ∧ (fireOps old hoist level a).st.buf = a.st.buf ∧
    (fireOps old hoist level a).st.modPhase = a.st.modPhase ∧ (fireOps old hoist level a).st.out = a.st.out ∧
    (fireOps old hoist level a).st.time.quality = a.st.time.quality := by
  have e : ∀ (r : Nat) (l : List Sched) (a : Fired),
      (l.foldl (fun a e => if a.ops < r then fireOne old a e else a) a).st.power = a.st.power ∧
      (l.foldl (fun a e => if a.ops < r then fireOne old a e else a) a).st.conf = a.st.conf ∧
      (l.foldl (fun a e => if a.ops < r then fireOne old a e else a) a).st.dict = a.st.dict ∧
      (l.foldl (fun a e => if a.ops < r then fireOne old a e else a) a).st.clocks = a.st.clocks ∧
      (l.foldl (fun a e => if a.ops < r then fireOne old a e else a) a).st.dies = a.st.dies ∧
      (l.foldl (fun a e => if a.ops < r then fireOne old a e else a) a).st.ref = a.st.ref ∧
      (l.foldl (fun a e => if a.ops < r then fireOne old a e else a) a).st.cal = a.st.cal ∧
      (l.foldl (fun a e => if a.ops < r then fireOne old a e else a) a).st.map = a.st.map ∧
      (l.foldl (fun a e => if a.ops < r then fireOne old a e else a) a).st.frame = a.st.frame ∧
      (l.foldl (fun a e => if a.ops < r then fireOne old a e else a) a).st.buf = a.st.buf ∧
      (l.foldl (fun a e => if a.ops < r then fireOne old a e else a) a).st.modPhase = a.st.modPhase ∧
      (l.foldl (fun a e => if a.ops < r then fireOne old a e else a) a).st.out = a.st.out ∧
      (l.foldl (fun a e => if a.ops < r then fireOne old a e else a) a).st.time.quality = a.st.time.quality := by
    intro r l
    induction l with
    | nil => simp
    | cons e l ih => intro a; rw [List.foldl_cons]; by_cases c : a.ops < r <;> simp [c, ih]
  unfold fireOps; dsimp only; split <;> simp [e]

@[simp] theorem runMode_frame (s : State) :
    (runMode s).pending = s.pending ∧ (runMode s).time = s.time ∧ (runMode s).conf = s.conf ∧
    (runMode s).act = s.act ∧ (runMode s).dict = s.dict ∧ (runMode s).store = s.store ∧
    (runMode s).health = s.health ∧ (runMode s).clocks = s.clocks ∧ (runMode s).chans = s.chans ∧
    (runMode s).dies = s.dies ∧ (runMode s).ref = s.ref ∧ (runMode s).cal = s.cal ∧ (runMode s).groups = s.groups ∧
    (runMode s).map = s.map ∧ (runMode s).streams = s.streams ∧ (runMode s).frame = s.frame ∧
    (runMode s).buf = s.buf ∧ (runMode s).link = s.link ∧ (runMode s).units = s.units ∧ (runMode s).outs = s.outs ∧
    (runMode s).aux = s.aux ∧ (runMode s).ev = s.ev ∧ (runMode s).ptp = s.ptp ∧ (runMode s).modPhase = s.modPhase ∧
    (runMode s).shift = s.shift ∧ (runMode s).segIdent = s.segIdent ∧ (runMode s).fv = s.fv ∧
    (runMode s).out = s.out ∧ (runMode s).power.vmain = s.power.vmain := by
  unfold runMode; (repeat' split) <;> simp

@[simp] theorem healthEnqueue_frame (s : State) :
    (healthEnqueue s).pending = s.pending ∧ (healthEnqueue s).power = s.power ∧ (healthEnqueue s).time = s.time ∧
    (healthEnqueue s).conf = s.conf ∧ (healthEnqueue s).act = s.act ∧ (healthEnqueue s).dict = s.dict ∧
    (healthEnqueue s).store = s.store ∧ (healthEnqueue s).health = s.health ∧ (healthEnqueue s).clocks = s.clocks ∧
    (healthEnqueue s).chans = s.chans ∧ (healthEnqueue s).dies = s.dies ∧ (healthEnqueue s).ref = s.ref ∧
    (healthEnqueue s).cal = s.cal ∧ (healthEnqueue s).groups = s.groups ∧ (healthEnqueue s).map = s.map ∧
    (healthEnqueue s).streams = s.streams ∧ (healthEnqueue s).frame = s.frame ∧ (healthEnqueue s).buf = s.buf ∧
    (healthEnqueue s).link = s.link ∧ (healthEnqueue s).units = s.units ∧ (healthEnqueue s).outs = s.outs ∧
    (healthEnqueue s).ev = s.ev ∧ (healthEnqueue s).ptp = s.ptp ∧ (healthEnqueue s).modPhase = s.modPhase ∧
    (healthEnqueue s).shift = s.shift ∧ (healthEnqueue s).segIdent = s.segIdent ∧ (healthEnqueue s).fv = s.fv ∧
    (healthEnqueue s).out = s.out := by
  unfold healthEnqueue auxEnqueue; dsimp only; (repeat' split) <;> simp

@[simp] theorem evaluate_frame (a : Nat × Int × Bool) (s : State) :
    (evaluate a s).pending = s.pending ∧ (evaluate a s).power = s.power ∧ (evaluate a s).time = s.time ∧
    (evaluate a s).conf = s.conf ∧ (evaluate a s).act = s.act ∧ (evaluate a s).dict = s.dict ∧
    (evaluate a s).store = s.store ∧ (evaluate a s).clocks = s.clocks ∧ (evaluate a s).chans = s.chans ∧
    (evaluate a s).dies = s.dies ∧ (evaluate a s).ref = s.ref ∧ (evaluate a s).cal = s.cal ∧
    (evaluate a s).groups = s.groups ∧ (evaluate a s).map = s.map ∧ (evaluate a s).streams = s.streams ∧
    (evaluate a s).frame = s.frame ∧ (evaluate a s).buf = s.buf ∧ (evaluate a s).link = s.link ∧
    (evaluate a s).units = s.units ∧ (evaluate a s).outs = s.outs ∧ (evaluate a s).aux = s.aux ∧
    (evaluate a s).ev = s.ev ∧ (evaluate a s).ptp = s.ptp ∧ (evaluate a s).modPhase = s.modPhase ∧
    (evaluate a s).shift = s.shift ∧ (evaluate a s).segIdent = s.segIdent ∧ (evaluate a s).fv = s.fv := by
  unfold evaluate; (repeat' split) <;> simp

@[simp] theorem takeTemp_frame (a : Nat × Int × Bool) (s : State) :
    (takeTemp a s).pending = s.pending ∧ (takeTemp a s).power = s.power ∧ (takeTemp a s).time = s.time ∧
    (takeTemp a s).conf = s.conf ∧ (takeTemp a s).act = s.act ∧ (takeTemp a s).dict = s.dict ∧
    (takeTemp a s).store = s.store ∧ (takeTemp a s).health = s.health ∧ (takeTemp a s).clocks = s.clocks ∧
    (takeTemp a s).chans = s.chans ∧ (takeTemp a s).dies = s.dies ∧ (takeTemp a s).cal = s.cal ∧
    (takeTemp a s).groups = s.groups ∧ (takeTemp a s).map = s.map ∧ (takeTemp a s).streams = s.streams ∧
    (takeTemp a s).frame = s.frame ∧ (takeTemp a s).buf = s.buf ∧ (takeTemp a s).link = s.link ∧
    (takeTemp a s).units = s.units ∧ (takeTemp a s).outs = s.outs ∧ (takeTemp a s).ev = s.ev ∧
    (takeTemp a s).modPhase = s.modPhase ∧ (takeTemp a s).shift = s.shift ∧ (takeTemp a s).segIdent = s.segIdent ∧
    (takeTemp a s).fv = s.fv ∧ (takeTemp a s).out = s.out := by
  simp only [takeTemp]; (repeat' split) <;> simp

@[simp] theorem taskEnd_frame (s : State) :
    (taskEnd s).pending = s.pending ∧ (taskEnd s).power = s.power ∧ (taskEnd s).time = s.time ∧
    (taskEnd s).conf = s.conf ∧ (taskEnd s).act = s.act ∧ (taskEnd s).dict = s.dict ∧ (taskEnd s).clocks = s.clocks ∧
    (taskEnd s).chans = s.chans ∧ (taskEnd s).dies = s.dies ∧ (taskEnd s).ref = s.ref ∧ (taskEnd s).cal = s.cal ∧
    (taskEnd s).groups = s.groups ∧ (taskEnd s).map = s.map ∧ (taskEnd s).streams = s.streams ∧
    (taskEnd s).frame = s.frame ∧ (taskEnd s).buf = s.buf ∧ (taskEnd s).link = s.link ∧ (taskEnd s).units = s.units ∧
    (taskEnd s).outs = s.outs ∧ (taskEnd s).aux = s.aux ∧ (taskEnd s).ev = s.ev ∧ (taskEnd s).ptp = s.ptp ∧
    (taskEnd s).modPhase = s.modPhase ∧ (taskEnd s).shift = s.shift ∧ (taskEnd s).segIdent = s.segIdent ∧
    (taskEnd s).fv = s.fv ∧ (taskEnd s).out = s.out := by
  simp [taskEnd]

@[simp] theorem slice_frame (o : TickObs) (s : State) :
    (slice o s).pending = s.pending ∧ (slice o s).time = s.time ∧ (slice o s).dict = s.dict ∧
    (slice o s).clocks = s.clocks ∧ (slice o s).map = s.map ∧ (slice o s).modPhase = s.modPhase ∧
    (slice o s).shift = s.shift ∧ (slice o s).segIdent = s.segIdent ∧ (slice o s).conf.cfg = s.conf.cfg ∧
    (slice o s).power.vmain = s.power.vmain := by
  simp [slice]

@[simp] theorem background_frame (o : TickObs) (hoist short : Bool) (s : State) :
    (background o hoist short s).pending = s.pending ∧ (background o hoist short s).time = s.time ∧
    (background o hoist short s).dict = s.dict ∧ (background o hoist short s).clocks = s.clocks ∧
    (background o hoist short s).map = s.map ∧ (background o hoist short s).modPhase = s.modPhase ∧
    (background o hoist short s).shift = s.shift ∧ (background o hoist short s).segIdent = s.segIdent ∧
    (background o hoist short s).conf.cfg = s.conf.cfg ∧ (background o hoist short s).power.vmain = s.power.vmain := by
  simp [background]

@[simp] theorem onEv_frame (x : Nat) (f : EvInput → EvInput) (s : State) :
    (onEv x f s).pending = s.pending ∧ (onEv x f s).power = s.power ∧ (onEv x f s).time = s.time ∧
    (onEv x f s).conf = s.conf ∧ (onEv x f s).act = s.act ∧ (onEv x f s).dict = s.dict ∧
    (onEv x f s).store = s.store ∧ (onEv x f s).health = s.health ∧ (onEv x f s).clocks = s.clocks ∧
    (onEv x f s).chans = s.chans ∧ (onEv x f s).dies = s.dies ∧ (onEv x f s).ref = s.ref ∧ (onEv x f s).cal = s.cal ∧
    (onEv x f s).groups = s.groups ∧ (onEv x f s).map = s.map ∧ (onEv x f s).streams = s.streams ∧
    (onEv x f s).frame = s.frame ∧ (onEv x f s).buf = s.buf ∧ (onEv x f s).link = s.link ∧
    (onEv x f s).units = s.units ∧ (onEv x f s).outs = s.outs ∧ (onEv x f s).aux = s.aux ∧ (onEv x f s).ptp = s.ptp ∧
    (onEv x f s).modPhase = s.modPhase ∧ (onEv x f s).shift = s.shift ∧ (onEv x f s).segIdent = s.segIdent ∧
    (onEv x f s).fv = s.fv ∧ (onEv x f s).out = s.out := by
  simp [onEv]

@[simp] theorem evWrite_frame (tick : TW) (epoch : BitVec 16) (t : TW) (x word : Nat) (s : State) :
    (evWrite tick epoch t x word s).pending = s.pending ∧ (evWrite tick epoch t x word s).power = s.power ∧
    (evWrite tick epoch t x word s).time = s.time ∧ (evWrite tick epoch t x word s).conf = s.conf ∧
    (evWrite tick epoch t x word s).act = s.act ∧ (evWrite tick epoch t x word s).dict = s.dict ∧
    (evWrite tick epoch t x word s).store = s.store ∧ (evWrite tick epoch t x word s).health = s.health ∧
    (evWrite tick epoch t x word s).clocks = s.clocks ∧ (evWrite tick epoch t x word s).chans = s.chans ∧
    (evWrite tick epoch t x word s).dies = s.dies ∧ (evWrite tick epoch t x word s).ref = s.ref ∧
    (evWrite tick epoch t x word s).cal = s.cal ∧ (evWrite tick epoch t x word s).groups = s.groups ∧
    (evWrite tick epoch t x word s).map = s.map ∧ (evWrite tick epoch t x word s).streams = s.streams ∧
    (evWrite tick epoch t x word s).frame = s.frame ∧ (evWrite tick epoch t x word s).buf = s.buf ∧
    (evWrite tick epoch t x word s).link = s.link ∧ (evWrite tick epoch t x word s).units = s.units ∧
    (evWrite tick epoch t x word s).outs = s.outs ∧ (evWrite tick epoch t x word s).aux = s.aux ∧
    (evWrite tick epoch t x word s).ptp = s.ptp ∧ (evWrite tick epoch t x word s).modPhase = s.modPhase ∧
    (evWrite tick epoch t x word s).shift = s.shift ∧ (evWrite tick epoch t x word s).segIdent = s.segIdent ∧
    (evWrite tick epoch t x word s).fv = s.fv ∧ (evWrite tick epoch t x word s).out = s.out := by
  simp [evWrite]

@[simp] theorem evOffer_frame (x : Nat) (rising : Bool) (ev : TrgEvent) (s : State) :
    (evOffer x rising ev s).pending = s.pending ∧ (evOffer x rising ev s).power = s.power ∧
    (evOffer x rising ev s).time = s.time ∧ (evOffer x rising ev s).conf = s.conf ∧
    (evOffer x rising ev s).act = s.act ∧ (evOffer x rising ev s).dict = s.dict ∧
    (evOffer x rising ev s).store = s.store ∧ (evOffer x rising ev s).clocks = s.clocks ∧
    (evOffer x rising ev s).chans = s.chans ∧ (evOffer x rising ev s).dies = s.dies ∧
    (evOffer x rising ev s).ref = s.ref ∧ (evOffer x rising ev s).cal = s.cal ∧
    (evOffer x rising ev s).groups = s.groups ∧ (evOffer x rising ev s).map = s.map ∧
    (evOffer x rising ev s).streams = s.streams ∧ (evOffer x rising ev s).frame = s.frame ∧
    (evOffer x rising ev s).buf = s.buf ∧ (evOffer x rising ev s).aux = s.aux ∧ (evOffer x rising ev s).ptp = s.ptp ∧
    (evOffer x rising ev s).modPhase = s.modPhase ∧ (evOffer x rising ev s).shift = s.shift ∧
    (evOffer x rising ev s).segIdent = s.segIdent ∧ (evOffer x rising ev s).out = s.out := by
  simp [evOffer]

@[simp] theorem evTake_frame (x : Nat) (rising : Bool) (stamp : TW) (now : Nat) (s : State) :
    (evTake x rising stamp now s).pending = s.pending ∧ (evTake x rising stamp now s).power = s.power ∧
    (evTake x rising stamp now s).time = s.time ∧ (evTake x rising stamp now s).conf = s.conf ∧
    (evTake x rising stamp now s).act = s.act ∧ (evTake x rising stamp now s).dict = s.dict ∧
    (evTake x rising stamp now s).store = s.store ∧ (evTake x rising stamp now s).clocks = s.clocks ∧
    (evTake x rising stamp now s).chans = s.chans ∧ (evTake x rising stamp now s).dies = s.dies ∧
    (evTake x rising stamp now s).ref = s.ref ∧ (evTake x rising stamp now s).cal = s.cal ∧
    (evTake x rising stamp now s).groups = s.groups ∧ (evTake x rising stamp now s).map = s.map ∧
    (evTake x rising stamp now s).streams = s.streams ∧ (evTake x rising stamp now s).frame = s.frame ∧
    (evTake x rising stamp now s).buf = s.buf ∧ (evTake x rising stamp now s).aux = s.aux ∧
    (evTake x rising stamp now s).ptp = s.ptp ∧ (evTake x rising stamp now s).modPhase = s.modPhase ∧
    (evTake x rising stamp now s).shift = s.shift ∧ (evTake x rising stamp now s).segIdent = s.segIdent ∧
    (evTake x rising stamp now s).out = s.out := by
  simp [evTake]

@[simp] theorem evEdge_frame (x b : Nat) (rising : Bool) (s : State) :
    (evEdge x b rising s).pending = s.pending ∧ (evEdge x b rising s).power = s.power ∧
    (evEdge x b rising s).conf = s.conf ∧ (evEdge x b rising s).act = s.act ∧ (evEdge x b rising s).dict = s.dict ∧
    (evEdge x b rising s).store = s.store ∧ (evEdge x b rising s).clocks = s.clocks ∧
    (evEdge x b rising s).chans = s.chans ∧ (evEdge x b rising s).dies = s.dies ∧ (evEdge x b rising s).ref = s.ref ∧
    (evEdge x b rising s).cal = s.cal ∧ (evEdge x b rising s).groups = s.groups ∧ (evEdge x b rising s).map = s.map ∧
    (evEdge x b rising s).streams = s.streams ∧ (evEdge x b rising s).frame = s.frame ∧
    (evEdge x b rising s).buf = s.buf ∧ (evEdge x b rising s).aux = s.aux ∧ (evEdge x b rising s).ptp = s.ptp ∧
    (evEdge x b rising s).modPhase = s.modPhase ∧ (evEdge x b rising s).shift = s.shift ∧
    (evEdge x b rising s).segIdent = s.segIdent ∧ (evEdge x b rising s).out = s.out := by
  simp [evEdge]

@[simp] theorem takeLate_frame (l : Late) (s : State) :
    (takeLate l s).pending = s.pending ∧ (takeLate l s).time.tw = s.time.tw ∧
    (takeLate l s).power.vmain = s.power.vmain ∧ (takeLate l s).conf.cfg = s.conf.cfg := by
  unfold takeLate; (repeat' split) <;> simp

@[simp] theorem lateTick_frame (s : State) :
    (lateTick s).pending = s.pending ∧ (lateTick s).time.tw = s.time.tw ∧ (lateTick s).power.vmain = s.power.vmain ∧
    (lateTick s).conf.cfg = s.conf.cfg := by
  simp [lateTick]

@[simp] theorem evRingReadWrite_frame (r : Role) (v : Nat) (s : State) :
    (evRingReadWrite r v s).st.pending = s.pending ∧ (evRingReadWrite r v s).st.power = s.power ∧
    (evRingReadWrite r v s).st.time = s.time ∧ (evRingReadWrite r v s).st.conf = s.conf ∧
    (evRingReadWrite r v s).st.act = s.act ∧ (evRingReadWrite r v s).st.dict = s.dict ∧
    (evRingReadWrite r v s).st.store = s.store ∧ (evRingReadWrite r v s).st.health = s.health ∧
    (evRingReadWrite r v s).st.clocks = s.clocks ∧ (evRingReadWrite r v s).st.chans = s.chans ∧
    (evRingReadWrite r v s).st.dies = s.dies ∧ (evRingReadWrite r v s).st.ref = s.ref ∧
    (evRingReadWrite r v s).st.cal = s.cal ∧ (evRingReadWrite r v s).st.groups = s.groups ∧
    (evRingReadWrite r v s).st.map = s.map ∧ (evRingReadWrite r v s).st.streams = s.streams ∧
    (evRingReadWrite r v s).st.frame = s.frame ∧ (evRingReadWrite r v s).st.buf = s.buf ∧
    (evRingReadWrite r v s).st.link = s.link ∧ (evRingReadWrite r v s).st.units = s.units ∧
    (evRingReadWrite r v s).st.outs = s.outs ∧ (evRingReadWrite r v s).st.aux = s.aux ∧
    (evRingReadWrite r v s).st.ptp = s.ptp ∧ (evRingReadWrite r v s).st.modPhase = s.modPhase ∧
    (evRingReadWrite r v s).st.shift = s.shift ∧ (evRingReadWrite r v s).st.segIdent = s.segIdent ∧
    (evRingReadWrite r v s).st.fv = s.fv ∧ (evRingReadWrite r v s).st.out = s.out := by
  unfold evRingReadWrite gate; dsimp only; (repeat' split) <;> first | rfl | simp

@[simp] theorem msgReceive_frame (m : TrgMessage) (s : State) :
    (msgReceive m s).pending = s.pending ∧ (msgReceive m s).conf.cfg = s.conf.cfg ∧
    (msgReceive m s).power.vmain = s.power.vmain ∧ (msgReceive m s).time.tw = s.time.tw := by
  simp [msgReceive]

@[simp] theorem closeTick_frame (was : State) (ran finals : List Nat) (s : State) :
    (closeTick was ran finals s).pending = s.pending ∧ (closeTick was ran finals s).power = s.power ∧
    (closeTick was ran finals s).time = s.time ∧ (closeTick was ran finals s).conf = s.conf ∧
    (closeTick was ran finals s).act = s.act ∧ (closeTick was ran finals s).dict = s.dict ∧
    (closeTick was ran finals s).store = s.store ∧ (closeTick was ran finals s).health = s.health ∧
    (closeTick was ran finals s).clocks = s.clocks ∧ (closeTick was ran finals s).chans = s.chans ∧
    (closeTick was ran finals s).dies = s.dies ∧ (closeTick was ran finals s).ref = s.ref ∧
    (closeTick was ran finals s).cal = s.cal ∧ (closeTick was ran finals s).groups = s.groups ∧
    (closeTick was ran finals s).map = s.map ∧ (closeTick was ran finals s).frame = s.frame ∧
    (closeTick was ran finals s).link = s.link ∧ (closeTick was ran finals s).units = s.units ∧
    (closeTick was ran finals s).outs = s.outs ∧ (closeTick was ran finals s).aux = s.aux ∧
    (closeTick was ran finals s).ev = s.ev ∧ (closeTick was ran finals s).ptp = s.ptp ∧
    (closeTick was ran finals s).modPhase = s.modPhase ∧ (closeTick was ran finals s).shift = s.shift ∧
    (closeTick was ran finals s).segIdent = s.segIdent ∧ (closeTick was ran finals s).fv = s.fv ∧
    (closeTick was ran finals s).out = s.out := by
  simp [closeTick]

@[simp] theorem pennantNotices_frame (was : State) (s : State) :
    (pennantNotices was s).pending = s.pending ∧ (pennantNotices was s).power = s.power ∧
    (pennantNotices was s).time = s.time ∧ (pennantNotices was s).conf = s.conf ∧ (pennantNotices was s).act = s.act ∧
    (pennantNotices was s).dict = s.dict ∧ (pennantNotices was s).store = s.store ∧
    (pennantNotices was s).health = s.health ∧ (pennantNotices was s).clocks = s.clocks ∧
    (pennantNotices was s).chans = s.chans ∧ (pennantNotices was s).dies = s.dies ∧
    (pennantNotices was s).ref = s.ref ∧ (pennantNotices was s).cal = s.cal ∧
    (pennantNotices was s).groups = s.groups ∧ (pennantNotices was s).map = s.map ∧
    (pennantNotices was s).streams = s.streams ∧ (pennantNotices was s).frame = s.frame ∧
    (pennantNotices was s).link = s.link ∧ (pennantNotices was s).units = s.units ∧
    (pennantNotices was s).outs = s.outs ∧ (pennantNotices was s).aux = s.aux ∧ (pennantNotices was s).ev = s.ev ∧
    (pennantNotices was s).ptp = s.ptp ∧ (pennantNotices was s).modPhase = s.modPhase ∧
    (pennantNotices was s).shift = s.shift ∧ (pennantNotices was s).segIdent = s.segIdent ∧
    (pennantNotices was s).fv = s.fv ∧ (pennantNotices was s).out = s.out := by
  simp [pennantNotices]

@[simp] theorem telemetry_frame (s : State) :
    (telemetry s).pending = s.pending ∧ (telemetry s).power = s.power ∧ (telemetry s).time = s.time ∧
    (telemetry s).conf = s.conf ∧ (telemetry s).act = s.act ∧ (telemetry s).dict = s.dict ∧
    (telemetry s).store = s.store ∧ (telemetry s).health = s.health ∧ (telemetry s).clocks = s.clocks ∧
    (telemetry s).chans = s.chans ∧ (telemetry s).dies = s.dies ∧ (telemetry s).ref = s.ref ∧
    (telemetry s).cal = s.cal ∧ (telemetry s).groups = s.groups ∧ (telemetry s).map = s.map ∧
    (telemetry s).streams = s.streams ∧ (telemetry s).frame = s.frame ∧ (telemetry s).link = s.link ∧
    (telemetry s).units = s.units ∧ (telemetry s).outs = s.outs ∧ (telemetry s).aux = s.aux ∧
    (telemetry s).ptp = s.ptp ∧ (telemetry s).modPhase = s.modPhase ∧ (telemetry s).shift = s.shift ∧
    (telemetry s).segIdent = s.segIdent ∧ (telemetry s).fv = s.fv ∧ (telemetry s).out = s.out := by
  simp [telemetry]

@[simp] theorem latchFrame_frame (s : State) :
    (latchFrame s).pending = s.pending ∧ (latchFrame s).power = s.power ∧ (latchFrame s).time = s.time ∧
    (latchFrame s).conf = s.conf ∧ (latchFrame s).act = s.act ∧ (latchFrame s).dict = s.dict ∧
    (latchFrame s).store = s.store ∧ (latchFrame s).health = s.health ∧ (latchFrame s).clocks = s.clocks ∧
    (latchFrame s).chans = s.chans ∧ (latchFrame s).dies = s.dies ∧ (latchFrame s).ref = s.ref ∧
    (latchFrame s).cal = s.cal ∧ (latchFrame s).groups = s.groups ∧ (latchFrame s).map = s.map ∧
    (latchFrame s).streams = s.streams ∧ (latchFrame s).buf = s.buf ∧ (latchFrame s).link = s.link ∧
    (latchFrame s).units = s.units ∧ (latchFrame s).outs = s.outs ∧ (latchFrame s).aux = s.aux ∧
    (latchFrame s).ev = s.ev ∧ (latchFrame s).ptp = s.ptp ∧ (latchFrame s).modPhase = s.modPhase ∧
    (latchFrame s).shift = s.shift ∧ (latchFrame s).segIdent = s.segIdent ∧ (latchFrame s).fv = s.fv ∧
    (latchFrame s).out = s.out := by
  simp [latchFrame]

@[simp] theorem wrapGrid_frame (s : State) :
    (wrapGrid s).pending = s.pending ∧ (wrapGrid s).power = s.power ∧ (wrapGrid s).time = s.time ∧
    (wrapGrid s).conf = s.conf ∧ (wrapGrid s).act = s.act ∧ (wrapGrid s).dict = s.dict ∧
    (wrapGrid s).store = s.store ∧ (wrapGrid s).health = s.health ∧ (wrapGrid s).clocks = s.clocks ∧
    (wrapGrid s).chans = s.chans ∧ (wrapGrid s).dies = s.dies ∧ (wrapGrid s).ref = s.ref ∧ (wrapGrid s).cal = s.cal ∧
    (wrapGrid s).groups = s.groups ∧ (wrapGrid s).map = s.map ∧ (wrapGrid s).frame = s.frame ∧
    (wrapGrid s).buf = s.buf ∧ (wrapGrid s).link = s.link ∧ (wrapGrid s).units = s.units ∧
    (wrapGrid s).outs = s.outs ∧ (wrapGrid s).aux = s.aux ∧ (wrapGrid s).ev = s.ev ∧ (wrapGrid s).ptp = s.ptp ∧
    (wrapGrid s).modPhase = s.modPhase ∧ (wrapGrid s).shift = s.shift ∧ (wrapGrid s).fv = s.fv ∧
    (wrapGrid s).out = s.out := by
  simp [wrapGrid]

@[simp] theorem mapTick_frame (len : Nat) (pos : Int) (s : State) :
    (mapTick len pos s).pending = s.pending ∧ (mapTick len pos s).power = s.power ∧
    (mapTick len pos s).time = s.time ∧ (mapTick len pos s).conf = s.conf ∧ (mapTick len pos s).act = s.act ∧
    (mapTick len pos s).dict = s.dict ∧ (mapTick len pos s).store = s.store ∧ (mapTick len pos s).health = s.health ∧
    (mapTick len pos s).clocks = s.clocks ∧ (mapTick len pos s).chans = s.chans ∧ (mapTick len pos s).dies = s.dies ∧
    (mapTick len pos s).ref = s.ref ∧ (mapTick len pos s).cal = s.cal ∧ (mapTick len pos s).groups = s.groups ∧
    (mapTick len pos s).streams = s.streams ∧ (mapTick len pos s).frame = s.frame ∧ (mapTick len pos s).buf = s.buf ∧
    (mapTick len pos s).link = s.link ∧ (mapTick len pos s).units = s.units ∧ (mapTick len pos s).outs = s.outs ∧
    (mapTick len pos s).aux = s.aux ∧ (mapTick len pos s).ptp = s.ptp ∧ (mapTick len pos s).modPhase = s.modPhase ∧
    (mapTick len pos s).shift = s.shift ∧ (mapTick len pos s).segIdent = s.segIdent ∧ (mapTick len pos s).fv = s.fv ∧
    (mapTick len pos s).out = s.out := by
  simp only [mapTick]; (repeat' split) <;> simp

@[simp] theorem tickLaunch_frame (s : State) :
    (tickLaunch s).pending = s.pending ∧ (tickLaunch s).power = s.power ∧ (tickLaunch s).time = s.time ∧
    (tickLaunch s).conf = s.conf ∧ (tickLaunch s).act = s.act ∧ (tickLaunch s).dict = s.dict ∧
    (tickLaunch s).store = s.store ∧ (tickLaunch s).health = s.health ∧ (tickLaunch s).clocks = s.clocks ∧
    (tickLaunch s).chans = s.chans ∧ (tickLaunch s).dies = s.dies ∧ (tickLaunch s).ref = s.ref ∧
    (tickLaunch s).cal = s.cal ∧ (tickLaunch s).groups = s.groups ∧ (tickLaunch s).map = s.map ∧
    (tickLaunch s).streams = s.streams ∧ (tickLaunch s).frame = s.frame ∧ (tickLaunch s).buf = s.buf ∧
    (tickLaunch s).link = s.link ∧ (tickLaunch s).units = s.units ∧ (tickLaunch s).outs = s.outs ∧
    (tickLaunch s).ev = s.ev ∧ (tickLaunch s).ptp = s.ptp ∧ (tickLaunch s).modPhase = s.modPhase ∧
    (tickLaunch s).shift = s.shift ∧ (tickLaunch s).segIdent = s.segIdent ∧ (tickLaunch s).fv = s.fv ∧
    (tickLaunch s).out = s.out := by
  simp [tickLaunch]

@[simp] theorem allowances_frame (suspended : Bool) (s : State) :
    (allowances suspended s).pending = s.pending ∧ (allowances suspended s).power = s.power ∧
    (allowances suspended s).conf = s.conf ∧ (allowances suspended s).act = s.act ∧
    (allowances suspended s).dict = s.dict ∧ (allowances suspended s).store = s.store ∧
    (allowances suspended s).health = s.health ∧ (allowances suspended s).clocks = s.clocks ∧
    (allowances suspended s).chans = s.chans ∧ (allowances suspended s).dies = s.dies ∧
    (allowances suspended s).ref = s.ref ∧ (allowances suspended s).cal = s.cal ∧
    (allowances suspended s).groups = s.groups ∧ (allowances suspended s).map = s.map ∧
    (allowances suspended s).streams = s.streams ∧ (allowances suspended s).frame = s.frame ∧
    (allowances suspended s).buf = s.buf ∧ (allowances suspended s).units = s.units ∧
    (allowances suspended s).outs = s.outs ∧ (allowances suspended s).aux = s.aux ∧
    (allowances suspended s).ev = s.ev ∧ (allowances suspended s).ptp = s.ptp ∧
    (allowances suspended s).modPhase = s.modPhase ∧ (allowances suspended s).shift = s.shift ∧
    (allowances suspended s).segIdent = s.segIdent ∧ (allowances suspended s).fv = s.fv ∧
    (allowances suspended s).out = s.out ∧ (allowances suspended s).time.tw = s.time.tw ∧
    (allowances suspended s).time.quality = s.time.quality ∧ (allowances suspended s).time.epoch = s.time.epoch := by
  simp [allowances]

@[simp] theorem clearNoted_frame (s : State) :
    (clearNoted s).pending = s.pending ∧ (clearNoted s).power = s.power ∧ (clearNoted s).time = s.time ∧
    (clearNoted s).conf = s.conf ∧ (clearNoted s).act = s.act ∧ (clearNoted s).dict = s.dict ∧
    (clearNoted s).store = s.store ∧ (clearNoted s).clocks = s.clocks ∧ (clearNoted s).chans = s.chans ∧
    (clearNoted s).dies = s.dies ∧ (clearNoted s).ref = s.ref ∧ (clearNoted s).cal = s.cal ∧
    (clearNoted s).groups = s.groups ∧ (clearNoted s).map = s.map ∧ (clearNoted s).streams = s.streams ∧
    (clearNoted s).frame = s.frame ∧ (clearNoted s).buf = s.buf ∧ (clearNoted s).link = s.link ∧
    (clearNoted s).units = s.units ∧ (clearNoted s).outs = s.outs ∧ (clearNoted s).aux = s.aux ∧
    (clearNoted s).ev = s.ev ∧ (clearNoted s).ptp = s.ptp ∧ (clearNoted s).modPhase = s.modPhase ∧
    (clearNoted s).shift = s.shift ∧ (clearNoted s).segIdent = s.segIdent ∧ (clearNoted s).fv = s.fv ∧
    (clearNoted s).out = s.out := by
  simp [clearNoted]

@[simp] theorem tickOvens_frame (o : TickObs) (s : State) :
    (tickOvens o s).pending = s.pending ∧ (tickOvens o s).time = s.time ∧ (tickOvens o s).conf = s.conf ∧
    (tickOvens o s).act = s.act ∧ (tickOvens o s).dict = s.dict ∧ (tickOvens o s).store = s.store ∧
    (tickOvens o s).clocks = s.clocks ∧ (tickOvens o s).chans = s.chans ∧ (tickOvens o s).dies = s.dies ∧
    (tickOvens o s).ref = s.ref ∧ (tickOvens o s).cal = s.cal ∧ (tickOvens o s).groups = s.groups ∧
    (tickOvens o s).map = s.map ∧ (tickOvens o s).streams = s.streams ∧ (tickOvens o s).frame = s.frame ∧
    (tickOvens o s).buf = s.buf ∧ (tickOvens o s).link = s.link ∧ (tickOvens o s).units = s.units ∧
    (tickOvens o s).outs = s.outs ∧ (tickOvens o s).aux = s.aux ∧ (tickOvens o s).ev = s.ev ∧
    (tickOvens o s).ptp = s.ptp ∧ (tickOvens o s).modPhase = s.modPhase ∧ (tickOvens o s).shift = s.shift ∧
    (tickOvens o s).segIdent = s.segIdent ∧ (tickOvens o s).fv = s.fv ∧ (tickOvens o s).out = s.out ∧
    (tickOvens o s).power.vmain = s.power.vmain ∧ (tickOvens o s).power.mode = s.power.mode := by
  simp [tickOvens]

@[simp] theorem tickPorts_frame (s : State) :
    (tickPorts s).pending = s.pending ∧ (tickPorts s).power = s.power ∧ (tickPorts s).time = s.time ∧
    (tickPorts s).conf = s.conf ∧ (tickPorts s).act = s.act ∧ (tickPorts s).dict = s.dict ∧
    (tickPorts s).store = s.store ∧ (tickPorts s).health = s.health ∧ (tickPorts s).clocks = s.clocks ∧
    (tickPorts s).chans = s.chans ∧ (tickPorts s).dies = s.dies ∧ (tickPorts s).ref = s.ref ∧
    (tickPorts s).cal = s.cal ∧ (tickPorts s).groups = s.groups ∧ (tickPorts s).map = s.map ∧
    (tickPorts s).streams = s.streams ∧ (tickPorts s).frame = s.frame ∧ (tickPorts s).buf = s.buf ∧
    (tickPorts s).units = s.units ∧ (tickPorts s).outs = s.outs ∧ (tickPorts s).aux = s.aux ∧
    (tickPorts s).ev = s.ev ∧ (tickPorts s).modPhase = s.modPhase ∧ (tickPorts s).shift = s.shift ∧
    (tickPorts s).segIdent = s.segIdent ∧ (tickPorts s).fv = s.fv ∧ (tickPorts s).out = s.out := by
  simp [tickPorts]

@[simp] theorem tickSafe_frame (s : State) :
    (tickSafe s).pending = s.pending ∧ (tickSafe s).dict = s.dict ∧ (tickSafe s).store = s.store ∧
    (tickSafe s).clocks = s.clocks ∧ (tickSafe s).ref = s.ref ∧ (tickSafe s).map = s.map ∧
    (tickSafe s).frame = s.frame ∧ (tickSafe s).aux = s.aux ∧ (tickSafe s).ptp = s.ptp ∧
    (tickSafe s).modPhase = s.modPhase ∧ (tickSafe s).shift = s.shift ∧ (tickSafe s).segIdent = s.segIdent ∧
    (tickSafe s).out = s.out ∧ (tickSafe s).conf.cfg = s.conf.cfg ∧ (tickSafe s).time.tw = s.time.tw ∧
    (tickSafe s).time.quality = s.time.quality ∧ (tickSafe s).time.epoch = s.time.epoch ∧
    (tickSafe s).power.vmain = s.power.vmain := by
  simp [tickSafe]

@[simp] theorem tickHead_frame (s : State) :
    (tickHead s).1.st.dict = s.dict ∧ (tickHead s).1.st.dies = s.dies ∧ (tickHead s).1.st.ref = s.ref ∧
    (tickHead s).1.st.map = s.map ∧ (tickHead s).1.st.frame = s.frame ∧ (tickHead s).1.st.modPhase = s.modPhase ∧
    (tickHead s).1.st.out = s.out ∧ (tickHead s).1.st.power.vmain = s.power.vmain ∧
    (tickHead s).1.st.power.mode = s.power.mode := by
  simp only [tickHead]; (repeat' split) <;> simp

@[simp] theorem tickOps_frame (old : TW) (hoist : Bool) (level : Nat) (a : Fired) :
    (tickOps old hoist level a).st.conf = a.st.conf ∧ (tickOps old hoist level a).st.dict = a.st.dict ∧
    (tickOps old hoist level a).st.clocks = a.st.clocks ∧ (tickOps old hoist level a).st.dies = a.st.dies ∧
    (tickOps old hoist level a).st.ref = a.st.ref ∧ (tickOps old hoist level a).st.cal = a.st.cal ∧
    (tickOps old hoist level a).st.map = a.st.map ∧ (tickOps old hoist level a).st.frame = a.st.frame ∧
    (tickOps old hoist level a).st.modPhase = a.st.modPhase ∧ (tickOps old hoist level a).st.out = a.st.out ∧
    (tickOps old hoist level a).st.power.vmain = a.st.power.vmain ∧
    (tickOps old hoist level a).st.time.quality = a.st.time.quality := by
  simp [tickOps]

@[simp] theorem tickJudge_frame (o : TickObs) (len : Nat) (suspended : Bool) (s : State) :
    (tickJudge o len suspended s).pending = s.pending ∧ (tickJudge o len suspended s).conf = s.conf ∧
    (tickJudge o len suspended s).act = s.act ∧ (tickJudge o len suspended s).dict = s.dict ∧
    (tickJudge o len suspended s).groups = s.groups ∧ (tickJudge o len suspended s).frame = s.frame ∧
    (tickJudge o len suspended s).outs = s.outs ∧ (tickJudge o len suspended s).modPhase = s.modPhase ∧
    (tickJudge o len suspended s).shift = s.shift ∧ (tickJudge o len suspended s).fv = s.fv ∧
    (tickJudge o len suspended s).out = s.out ∧ (tickJudge o len suspended s).power.vmain = s.power.vmain ∧
    (tickJudge o len suspended s).power.mode = s.power.mode ∧ (tickJudge o len suspended s).time.tw = s.time.tw ∧
    (tickJudge o len suspended s).time.quality = s.time.quality ∧
    (tickJudge o len suspended s).time.epoch = s.time.epoch := by
  simp [tickJudge]

@[simp] theorem drainAll_frame (o : TickObs) (s : State) :
    (drainAll o s).pending = s.pending ∧ (drainAll o s).power = s.power ∧ (drainAll o s).time = s.time ∧
    (drainAll o s).conf = s.conf ∧ (drainAll o s).act = s.act ∧ (drainAll o s).dict = s.dict ∧
    (drainAll o s).clocks = s.clocks ∧ (drainAll o s).chans = s.chans ∧ (drainAll o s).dies = s.dies ∧
    (drainAll o s).ref = s.ref ∧ (drainAll o s).cal = s.cal ∧ (drainAll o s).groups = s.groups ∧
    (drainAll o s).map = s.map ∧ (drainAll o s).streams = s.streams ∧ (drainAll o s).frame = s.frame ∧
    (drainAll o s).link = s.link ∧ (drainAll o s).outs = s.outs ∧ (drainAll o s).aux = s.aux ∧
    (drainAll o s).ev = s.ev ∧ (drainAll o s).ptp = s.ptp ∧ (drainAll o s).modPhase = s.modPhase ∧
    (drainAll o s).shift = s.shift ∧ (drainAll o s).segIdent = s.segIdent ∧ (drainAll o s).fv = s.fv ∧
    (drainAll o s).out = s.out := by
  simp [drainAll]

@[simp] theorem putKey_frame (r : Role) (x : KeyState) (s : State) :
    (putKey r x s).pending = s.pending ∧ (putKey r x s).power = s.power ∧ (putKey r x s).time = s.time ∧
    (putKey r x s).conf = s.conf ∧ (putKey r x s).act = s.act ∧ (putKey r x s).store = s.store ∧
    (putKey r x s).health = s.health ∧ (putKey r x s).clocks = s.clocks ∧ (putKey r x s).chans = s.chans ∧
    (putKey r x s).dies = s.dies ∧ (putKey r x s).ref = s.ref ∧ (putKey r x s).cal = s.cal ∧
    (putKey r x s).groups = s.groups ∧ (putKey r x s).map = s.map ∧ (putKey r x s).streams = s.streams ∧
    (putKey r x s).frame = s.frame ∧ (putKey r x s).buf = s.buf ∧ (putKey r x s).link = s.link ∧
    (putKey r x s).units = s.units ∧ (putKey r x s).outs = s.outs ∧ (putKey r x s).aux = s.aux ∧
    (putKey r x s).ev = s.ev ∧ (putKey r x s).ptp = s.ptp ∧ (putKey r x s).modPhase = s.modPhase ∧
    (putKey r x s).shift = s.shift ∧ (putKey r x s).segIdent = s.segIdent ∧ (putKey r x s).fv = s.fv ∧
    (putKey r x s).out = s.out := by
  unfold putKey; (repeat' split) <;> simp

@[simp] theorem changeKey_frame (r : Role) (key : BitVec 256) (s : State) :
    (changeKey r key s).pending = s.pending ∧ (changeKey r key s).power = s.power ∧
    (changeKey r key s).time = s.time ∧ (changeKey r key s).conf = s.conf ∧ (changeKey r key s).act = s.act ∧
    (changeKey r key s).health = s.health ∧ (changeKey r key s).clocks = s.clocks ∧
    (changeKey r key s).chans = s.chans ∧ (changeKey r key s).dies = s.dies ∧ (changeKey r key s).ref = s.ref ∧
    (changeKey r key s).cal = s.cal ∧ (changeKey r key s).groups = s.groups ∧ (changeKey r key s).map = s.map ∧
    (changeKey r key s).streams = s.streams ∧ (changeKey r key s).frame = s.frame ∧ (changeKey r key s).buf = s.buf ∧
    (changeKey r key s).link = s.link ∧ (changeKey r key s).units = s.units ∧ (changeKey r key s).outs = s.outs ∧
    (changeKey r key s).aux = s.aux ∧ (changeKey r key s).ev = s.ev ∧ (changeKey r key s).ptp = s.ptp ∧
    (changeKey r key s).modPhase = s.modPhase ∧ (changeKey r key s).shift = s.shift ∧
    (changeKey r key s).segIdent = s.segIdent ∧ (changeKey r key s).fv = s.fv ∧ (changeKey r key s).out = s.out := by
  simp [changeKey]

@[simp] theorem rwWrite_frame (r : Role) (k v : Nat) (s : State) :
    (rwWrite r k v s).st.pending = s.pending ∧ (rwWrite r k v s).st.power = s.power ∧
    (rwWrite r k v s).st.act = s.act ∧ (rwWrite r k v s).st.health = s.health ∧ (rwWrite r k v s).st.ref = s.ref ∧
    (rwWrite r k v s).st.cal = s.cal ∧ (rwWrite r k v s).st.map = s.map ∧ (rwWrite r k v s).st.streams = s.streams ∧
    (rwWrite r k v s).st.frame = s.frame ∧ (rwWrite r k v s).st.link = s.link ∧ (rwWrite r k v s).st.outs = s.outs ∧
    (rwWrite r k v s).st.ptp = s.ptp ∧ (rwWrite r k v s).st.modPhase = s.modPhase ∧
    (rwWrite r k v s).st.shift = s.shift ∧ (rwWrite r k v s).st.segIdent = s.segIdent ∧
    (rwWrite r k v s).st.fv = s.fv ∧ (rwWrite r k v s).st.out = s.out ∧ (rwWrite r k v s).st.time.tw = s.time.tw ∧
    (rwWrite r k v s).st.time.quality = s.time.quality := by
  simp only [rwWrite]; (repeat' split) <;> simp

@[simp] theorem dipWrite_frame (r : Role) (v : BitVec 8) (s : State) :
    (dipWrite r v s).st.pending = s.pending ∧ (dipWrite r v s).st.power = s.power ∧
    (dipWrite r v s).st.time = s.time ∧ (dipWrite r v s).st.conf = s.conf ∧ (dipWrite r v s).st.act = s.act ∧
    (dipWrite r v s).st.dict = s.dict ∧ (dipWrite r v s).st.store = s.store ∧ (dipWrite r v s).st.clocks = s.clocks ∧
    (dipWrite r v s).st.chans = s.chans ∧ (dipWrite r v s).st.dies = s.dies ∧ (dipWrite r v s).st.ref = s.ref ∧
    (dipWrite r v s).st.cal = s.cal ∧ (dipWrite r v s).st.groups = s.groups ∧ (dipWrite r v s).st.map = s.map ∧
    (dipWrite r v s).st.streams = s.streams ∧ (dipWrite r v s).st.frame = s.frame ∧ (dipWrite r v s).st.buf = s.buf ∧
    (dipWrite r v s).st.link = s.link ∧ (dipWrite r v s).st.units = s.units ∧ (dipWrite r v s).st.outs = s.outs ∧
    (dipWrite r v s).st.aux = s.aux ∧ (dipWrite r v s).st.ev = s.ev ∧ (dipWrite r v s).st.ptp = s.ptp ∧
    (dipWrite r v s).st.modPhase = s.modPhase ∧ (dipWrite r v s).st.shift = s.shift ∧
    (dipWrite r v s).st.segIdent = s.segIdent ∧ (dipWrite r v s).st.fv = s.fv ∧ (dipWrite r v s).st.out = s.out := by
  unfold dipWrite gate; dsimp only; (repeat' split) <;> first | rfl | simp

@[simp] theorem cmdWrite_frame (r : Role) (k v : Nat) (s : State) :
    (cmdWrite r k v s).st.pending = s.pending ∧ (cmdWrite r k v s).st.dict = s.dict ∧
    (cmdWrite r k v s).st.clocks = s.clocks ∧ (cmdWrite r k v s).st.dies = s.dies ∧
    (cmdWrite r k v s).st.ref = s.ref ∧ (cmdWrite r k v s).st.map = s.map ∧
    (cmdWrite r k v s).st.streams = s.streams ∧ (cmdWrite r k v s).st.frame = s.frame ∧
    (cmdWrite r k v s).st.link = s.link ∧ (cmdWrite r k v s).st.units = s.units ∧
    (cmdWrite r k v s).st.outs = s.outs ∧ (cmdWrite r k v s).st.ev = s.ev ∧
    (cmdWrite r k v s).st.modPhase = s.modPhase ∧ (cmdWrite r k v s).st.shift = s.shift ∧
    (cmdWrite r k v s).st.segIdent = s.segIdent ∧ (cmdWrite r k v s).st.fv = s.fv ∧
    (cmdWrite r k v s).st.out = s.out ∧ (cmdWrite r k v s).st.power.vmain = s.power.vmain ∧
    (cmdWrite r k v s).st.power.mode = s.power.mode ∧ (cmdWrite r k v s).st.time.tw = s.time.tw ∧
    (cmdWrite r k v s).st.time.quality = s.time.quality ∧ (cmdWrite r k v s).st.time.epoch = s.time.epoch := by
  unfold cmdWrite; (repeat' split) <;> simp

@[simp] theorem stage_frame (row : Row) (k v : Nat) (s : State) :
    (stage row k v s).st.pending = s.pending ∧ (stage row k v s).st.power = s.power ∧
    (stage row k v s).st.time = s.time ∧ (stage row k v s).st.act = s.act ∧ (stage row k v s).st.dict = s.dict ∧
    (stage row k v s).st.store = s.store ∧ (stage row k v s).st.health = s.health ∧
    (stage row k v s).st.clocks = s.clocks ∧ (stage row k v s).st.chans = s.chans ∧
    (stage row k v s).st.dies = s.dies ∧ (stage row k v s).st.ref = s.ref ∧ (stage row k v s).st.cal = s.cal ∧
    (stage row k v s).st.groups = s.groups ∧ (stage row k v s).st.map = s.map ∧
    (stage row k v s).st.streams = s.streams ∧ (stage row k v s).st.frame = s.frame ∧
    (stage row k v s).st.buf = s.buf ∧ (stage row k v s).st.link = s.link ∧ (stage row k v s).st.units = s.units ∧
    (stage row k v s).st.outs = s.outs ∧ (stage row k v s).st.aux = s.aux ∧ (stage row k v s).st.ev = s.ev ∧
    (stage row k v s).st.ptp = s.ptp ∧ (stage row k v s).st.modPhase = s.modPhase ∧
    (stage row k v s).st.shift = s.shift ∧ (stage row k v s).st.segIdent = s.segIdent ∧
    (stage row k v s).st.fv = s.fv ∧ (stage row k v s).st.out = s.out ∧ (stage row k v s).st.conf.cfg = s.conf.cfg := by
  simp [stage]

@[simp] theorem entryWrite_frame (r : Role) (row : Row) (k v : Nat) (s : State) :
    (entryWrite r row k v s).st.pending = s.pending ∧ (entryWrite r row k v s).st.ref = s.ref ∧
    (entryWrite r row k v s).st.map = s.map ∧ (entryWrite r row k v s).st.streams = s.streams ∧
    (entryWrite r row k v s).st.frame = s.frame ∧ (entryWrite r row k v s).st.link = s.link ∧
    (entryWrite r row k v s).st.outs = s.outs ∧ (entryWrite r row k v s).st.modPhase = s.modPhase ∧
    (entryWrite r row k v s).st.shift = s.shift ∧ (entryWrite r row k v s).st.segIdent = s.segIdent ∧
    (entryWrite r row k v s).st.fv = s.fv ∧ (entryWrite r row k v s).st.out = s.out ∧
    (entryWrite r row k v s).st.power.vmain = s.power.vmain ∧ (entryWrite r row k v s).st.power.mode = s.power.mode ∧
    (entryWrite r row k v s).st.time.tw = s.time.tw ∧ (entryWrite r row k v s).st.time.quality = s.time.quality := by
  unfold entryWrite; (repeat' split) <;> simp

@[simp] theorem hostWrite_frame (r : Role) (k len v : Nat) (s : State) :
    (hostWrite r k len v s).st.pending = s.pending ∧ (hostWrite r k len v s).st.ref = s.ref ∧
    (hostWrite r k len v s).st.map = s.map ∧ (hostWrite r k len v s).st.streams = s.streams ∧
    (hostWrite r k len v s).st.frame = s.frame ∧ (hostWrite r k len v s).st.link = s.link ∧
    (hostWrite r k len v s).st.outs = s.outs ∧ (hostWrite r k len v s).st.modPhase = s.modPhase ∧
    (hostWrite r k len v s).st.shift = s.shift ∧ (hostWrite r k len v s).st.segIdent = s.segIdent ∧
    (hostWrite r k len v s).st.fv = s.fv ∧ (hostWrite r k len v s).st.out = s.out ∧
    (hostWrite r k len v s).st.power.vmain = s.power.vmain ∧ (hostWrite r k len v s).st.power.mode = s.power.mode ∧
    (hostWrite r k len v s).st.time.tw = s.time.tw ∧ (hostWrite r k len v s).st.time.quality = s.time.quality := by
  unfold hostWrite; (repeat' split) <;> simp

@[simp] theorem queueAnswer_frame (a : Answer) (s : State) :
    (queueAnswer a s).pending = s.pending ∧ (queueAnswer a s).power = s.power ∧ (queueAnswer a s).time = s.time ∧
    (queueAnswer a s).conf = s.conf ∧ (queueAnswer a s).act = s.act ∧ (queueAnswer a s).dict = s.dict ∧
    (queueAnswer a s).store = s.store ∧ (queueAnswer a s).health = s.health ∧ (queueAnswer a s).clocks = s.clocks ∧
    (queueAnswer a s).chans = s.chans ∧ (queueAnswer a s).dies = s.dies ∧ (queueAnswer a s).ref = s.ref ∧
    (queueAnswer a s).cal = s.cal ∧ (queueAnswer a s).groups = s.groups ∧ (queueAnswer a s).map = s.map ∧
    (queueAnswer a s).streams = s.streams ∧ (queueAnswer a s).frame = s.frame ∧ (queueAnswer a s).buf = s.buf ∧
    (queueAnswer a s).units = s.units ∧ (queueAnswer a s).outs = s.outs ∧ (queueAnswer a s).aux = s.aux ∧
    (queueAnswer a s).ev = s.ev ∧ (queueAnswer a s).ptp = s.ptp ∧ (queueAnswer a s).modPhase = s.modPhase ∧
    (queueAnswer a s).shift = s.shift ∧ (queueAnswer a s).segIdent = s.segIdent ∧ (queueAnswer a s).fv = s.fv ∧
    (queueAnswer a s).out = s.out := by
  simp [queueAnswer]

@[simp] theorem newAnswer_frame (a : Answer) (s : State) :
    (newAnswer a s).pending = s.pending ∧ (newAnswer a s).power = s.power ∧ (newAnswer a s).time = s.time ∧
    (newAnswer a s).conf = s.conf ∧ (newAnswer a s).act = s.act ∧ (newAnswer a s).store = s.store ∧
    (newAnswer a s).health = s.health ∧ (newAnswer a s).clocks = s.clocks ∧ (newAnswer a s).chans = s.chans ∧
    (newAnswer a s).dies = s.dies ∧ (newAnswer a s).ref = s.ref ∧ (newAnswer a s).cal = s.cal ∧
    (newAnswer a s).groups = s.groups ∧ (newAnswer a s).map = s.map ∧ (newAnswer a s).streams = s.streams ∧
    (newAnswer a s).frame = s.frame ∧ (newAnswer a s).buf = s.buf ∧ (newAnswer a s).units = s.units ∧
    (newAnswer a s).outs = s.outs ∧ (newAnswer a s).aux = s.aux ∧ (newAnswer a s).ev = s.ev ∧
    (newAnswer a s).ptp = s.ptp ∧ (newAnswer a s).modPhase = s.modPhase ∧ (newAnswer a s).shift = s.shift ∧
    (newAnswer a s).segIdent = s.segIdent ∧ (newAnswer a s).fv = s.fv ∧ (newAnswer a s).out = s.out := by
  simp [newAnswer]

@[simp] theorem refuseWhole_frame (header payload : List Nat) (code : Nat) (s : State) :
    (refuseWhole header payload code s).pending = s.pending ∧ (refuseWhole header payload code s).power = s.power ∧
    (refuseWhole header payload code s).time = s.time ∧ (refuseWhole header payload code s).conf = s.conf ∧
    (refuseWhole header payload code s).act = s.act ∧ (refuseWhole header payload code s).store = s.store ∧
    (refuseWhole header payload code s).health = s.health ∧ (refuseWhole header payload code s).clocks = s.clocks ∧
    (refuseWhole header payload code s).chans = s.chans ∧ (refuseWhole header payload code s).dies = s.dies ∧
    (refuseWhole header payload code s).ref = s.ref ∧ (refuseWhole header payload code s).cal = s.cal ∧
    (refuseWhole header payload code s).groups = s.groups ∧ (refuseWhole header payload code s).map = s.map ∧
    (refuseWhole header payload code s).streams = s.streams ∧ (refuseWhole header payload code s).frame = s.frame ∧
    (refuseWhole header payload code s).buf = s.buf ∧ (refuseWhole header payload code s).units = s.units ∧
    (refuseWhole header payload code s).outs = s.outs ∧ (refuseWhole header payload code s).aux = s.aux ∧
    (refuseWhole header payload code s).ev = s.ev ∧ (refuseWhole header payload code s).ptp = s.ptp ∧
    (refuseWhole header payload code s).modPhase = s.modPhase ∧ (refuseWhole header payload code s).shift = s.shift ∧
    (refuseWhole header payload code s).segIdent = s.segIdent ∧ (refuseWhole header payload code s).fv = s.fv ∧
    (refuseWhole header payload code s).out = s.out := by
  simp [refuseWhole]

@[simp] theorem duplicate_frame (header payload : List Nat) (broadcast_ : Bool) (s : State) :
    (duplicate header payload broadcast_ s).pending = s.pending ∧
    (duplicate header payload broadcast_ s).conf.cfg = s.conf.cfg ∧
    (duplicate header payload broadcast_ s).power.vmain = s.power.vmain ∧
    (duplicate header payload broadcast_ s).time.tw = s.time.tw := by
  simp only [duplicate]; (repeat' split) <;> simp

@[simp] theorem enqueue_frame (p : Nat) (header payload : List Nat) (s : State) :
    (enqueue p header payload s).pending = s.pending ∧ (enqueue p header payload s).power = s.power ∧
    (enqueue p header payload s).time = s.time ∧ (enqueue p header payload s).conf = s.conf ∧
    (enqueue p header payload s).act = s.act ∧ (enqueue p header payload s).store = s.store ∧
    (enqueue p header payload s).health = s.health ∧ (enqueue p header payload s).clocks = s.clocks ∧
    (enqueue p header payload s).chans = s.chans ∧ (enqueue p header payload s).dies = s.dies ∧
    (enqueue p header payload s).ref = s.ref ∧ (enqueue p header payload s).cal = s.cal ∧
    (enqueue p header payload s).groups = s.groups ∧ (enqueue p header payload s).map = s.map ∧
    (enqueue p header payload s).streams = s.streams ∧ (enqueue p header payload s).frame = s.frame ∧
    (enqueue p header payload s).buf = s.buf ∧ (enqueue p header payload s).link = s.link ∧
    (enqueue p header payload s).units = s.units ∧ (enqueue p header payload s).outs = s.outs ∧
    (enqueue p header payload s).aux = s.aux ∧ (enqueue p header payload s).ev = s.ev ∧
    (enqueue p header payload s).ptp = s.ptp ∧ (enqueue p header payload s).modPhase = s.modPhase ∧
    (enqueue p header payload s).shift = s.shift ∧ (enqueue p header payload s).segIdent = s.segIdent ∧
    (enqueue p header payload s).fv = s.fv ∧ (enqueue p header payload s).out = s.out := by
  simp [enqueue]

@[simp] theorem receiveAuthentic_frame (p : Nat) (header payload : List Nat) (broadcast_ : Bool) (s : State) :
    (receiveAuthentic p header payload broadcast_ s).pending = s.pending ∧
    (receiveAuthentic p header payload broadcast_ s).conf.cfg = s.conf.cfg ∧
    (receiveAuthentic p header payload broadcast_ s).power.vmain = s.power.vmain ∧
    (receiveAuthentic p header payload broadcast_ s).time.tw = s.time.tw := by
  simp [receiveAuthentic]

@[simp] theorem receiveRequest_frame (p : Nat) (header payload : List Nat) (broadcast_ : Bool) (s : State) :
    (receiveRequest p header payload broadcast_ s).pending = s.pending ∧
    (receiveRequest p header payload broadcast_ s).conf.cfg = s.conf.cfg ∧
    (receiveRequest p header payload broadcast_ s).power.vmain = s.power.vmain ∧
    (receiveRequest p header payload broadcast_ s).time.tw = s.time.tw := by
  simp only [receiveRequest]; (repeat' split) <;> simp

@[simp] theorem dictReceive_frame (p : Nat) (l : List Nat) (s : State) :
    (dictReceive p l s).pending = s.pending ∧ (dictReceive p l s).conf.cfg = s.conf.cfg ∧
    (dictReceive p l s).power.vmain = s.power.vmain ∧ (dictReceive p l s).time.tw = s.time.tw := by
  simp [dictReceive]

@[simp] theorem requestWrite_frame (r : Role) (k len v : Nat) (s : State) :
    (requestWrite r k len v s).st.pending = s.pending ∧ (requestWrite r k len v s).st.power.vmain = s.power.vmain ∧
    (requestWrite r k len v s).st.time.tw = s.time.tw := by
  unfold requestWrite; (repeat' split) <;> simp

@[simp] theorem keepTraces_frame (after s : State) :
    (keepTraces after s).pending = s.pending ∧ (keepTraces after s).conf.cfg = s.conf.cfg ∧
    (keepTraces after s).power.vmain = s.power.vmain ∧ (keepTraces after s).time.tw = s.time.tw := by
  simp [keepTraces]

@[simp] theorem State.withFetchWord_frame (s : State) (nbits w : Nat) :
    (State.withFetchWord s nbits w).conf.cfg = s.conf.cfg ∧
    (State.withFetchWord s nbits w).power.vmain = s.power.vmain ∧ (State.withFetchWord s nbits w).time.tw = s.time.tw := by
  unfold State.withFetchWord; (repeat' split) <;> simp

end Sys2Proof.Machine
end

