-- ==== Sys2Proof/Laws/Ops.lean ====
section
/-! SUPPORT. What the shared ends of the meanings can do: the settling of the flags, the end of an event, the end of a
write, and the tests of a command entry; and what the rings hold after a record. -/

namespace Sys2Proof.Machine

/-- Settling touches the stores and the health alone. -/
theorem settle_only (s : State) : settle s = { s with store := (settle s).store, health := (settle s).health } := by
  have h := settle_frame s
  generalize settle s = t at h ⊢
  obtain ⟨_, _⟩ := s
  cases t
  simp_all

/-- In OFF, HIBERNATE and BOOT nothing is settled. -/
@[simp] theorem settle_of_not_live (s : State) (h : live s = false) : settle s = s := by simp [settle, h]

/-- An event ends in a next state. -/
@[simp] theorem done_eq (s : State) : done s = .next (settle s) := rfl

/-- A write ends in a next state, with its answer sent. -/
@[simp] theorem answered_eq (a : Ans) : answered a = .next (settle (emit (.answer a.code a.val) a.st)) := rfl

/-- From WARM to SAFE a write is answered. -/
theorem served_live (s : State) (k : State → Ans) (h : live s = true) : served s k = answered (k s) := by simp [served, h]

/-- In OFF, HIBERNATE and BOOT a write reaches nothing. -/
theorem served_deaf (s : State) (k : State → Ans) (h : live s = false) : served s k = .next s := by simp [served, h]

/-- A command entry refuses for the role, the value or the state, in this order, or follows its own rule. -/
theorem gate_cases (r need : Role) (valOk : Bool) (modes : List Mode) (s : State) (k : State → Ans) :
    (roleOk r need = false ∧ gate r need valOk modes s k = refuse 0x0105 s) ∨
    (roleOk r need = true ∧ valOk = false ∧ gate r need valOk modes s k = refuse 0x0201 s) ∨
    (roleOk r need = true ∧ valOk = true ∧ modes.contains s.power.mode = false ∧ gate r need valOk modes s k = refuse 0x0301 s) ∨
    (roleOk r need = true ∧ valOk = true ∧ modes.contains s.power.mode = true ∧ gate r need valOk modes s k = k s) := by
  unfold gate
  cases h1 : roleOk r need <;> cases h2 : valOk <;> cases h3 : modes.contains s.power.mode <;> simp

/-- A command entry whose tests pass follows its own rule. -/
theorem gate_pass (r need : Role) (valOk : Bool) (modes : List Mode) (s : State) (k : State → Ans) (h1 : roleOk r need = true)
    (h2 : valOk = true) (h3 : modes.contains s.power.mode = true) : gate r need valOk modes s k = k s := by
  simp only [gate, h1, h2, h3]; rfl

/-- Room for a marker and a record: the record is the last of the ring. -/
theorem ringUnder_last (size mark full : Nat) (r : Ring) (h : r.recs.length + 1 < size) :
    (ringUnder size mark full r).recs.getLast? = some full := by
  unfold ringUnder ringPut
  rw [if_neg (by omega)]
  dsimp only
  split <;> simp [h, Nat.lt_of_succ_lt h]

/-- A record put into a ring leaves the records before it, if a marker, behind it. -/
theorem ringUnder_keeps (size mark full x : Nat) (r : Ring) (h : x ∈ r.recs) : x ∈ (ringUnder size mark full r).recs := by
  unfold ringUnder ringPut
  dsimp only
  (repeat' split) <;> simp_all

/-- So do several. -/
theorem foldl_ringUnder_keeps (size mark x : Nat) (l : List EvSlot) (r : Ring) (h : x ∈ r.recs) :
    x ∈ (l.foldl (fun r e => ringUnder size (e.mark.getD mark) e.word r) r).recs := by
  induction l generalizing r with
  | nil => exact h
  | cons e l ih => exact ih _ (ringUnder_keeps _ _ _ _ _ h)

/-- One slot for each record. -/
theorem evSlots_length (m : Option Nat) (l : List Nat) : (evSlots m l).length = l.length := by
  induction l generalizing m with
  | nil => rfl
  | cons w l ih => unfold evSlots; split <;> simp [ih]

/-- Room for a marker and a record: the event ring holds the record (R243). -/
theorem evInsert_mem (s : State) (mark : Nat) (t : TW) (x full : Nat) (r : Ring) (h : r.recs.length + 1 < evRingSize) :
    full ∈ (evInsert s mark t x full r).recs := by
  unfold evInsert
  have k := evSlots_length r.base r.recs
  generalize evSlots r.base r.recs = l at k
  dsimp only
  split
  · exact List.mem_of_getLast? (ringUnder_last _ _ _ _ h)
  · refine foldl_ringUnder_keeps _ _ _ _ _ (List.mem_of_getLast? (ringUnder_last _ _ _ _ ?_))
    simp only [List.length_map, List.length_take, k]
    omega

end Sys2Proof.Machine
end

