-- ==== Sys2Proof/Laws/Settle.lean ====
section
/-! SUPPORT. What the settling of the flags at the end of a command can change, and the ends of the meanings stated with
it: the form in which the statements give their next states. -/

namespace Sys2Proof.Machine

/-- From s to t nothing has changed but what the settling of the flags may change. -/
def Settled (s t : State) : Prop := t = { s with health := s.settledHealth t, store := s.settledStore t }

theorem settled_refl (s : State) : Settled s s := rfl

theorem settled_trans {a b c : State} (h : Settled a b) (k : Settled b c) : Settled a c := by
  unfold Settled State.settledHealth State.settledStore at *
  rw [k, h]

theorem settled_forNat (n : Nat) (f : Nat → State → State) (s : State) (h : ∀ k s, Settled s (f k s)) : Settled s (forNat n f s) := by
  unfold forNat
  generalize List.range n = l
  induction l generalizing s with
  | nil => exact settled_refl s
  | cons k l ih => exact settled_trans (h k s) (ih (f k s))

theorem settled_keepSave (s : State) : Settled s (keepSave s) := by
  unfold keepSave; split <;> rfl

theorem settled_raisePn (nn : Nat) (s : State) : Settled s (raisePn nn s) := rfl

theorem settled_risePn (nn : Nat) (s : State) : Settled s (risePn nn s) := rfl

theorem settled_whenever (b : Bool) (f : State → State) (s : State) (h : Settled s (f s)) : Settled s (whenever b f s) := by
  cases b
  · exact settled_refl s
  · exact h

theorem settled_pennants (l : List Pennant) (s : State) : Settled s { s with health.pennants := l } := rfl

theorem settled_levelStep (nn : Nat) (s : State) : Settled s (levelStep nn s) :=
  settled_trans (settled_whenever _ (risePn nn) s (settled_risePn nn s)) (settled_pennants _ _)

theorem settled_halfMast (h : Bool) (tw : TW) (cause e : Nat) (s : State) :
    Settled s { s with
      health := { s.health with
        halfMast := h, spare := { s.health.spare with sinceTw := tw, sinceCause := cause, exhausted := e } } } := rfl

theorem settled_halfMastStep (s : State) : Settled s (halfMastStep s) := by
  unfold halfMastStep
  extract_lets first was spare health t
  split
  · exact settled_halfMast ..
  · exact settled_trans (settled_halfMast ..) (settled_keepSave t)

theorem settled_nextCyc (s : State) : Settled s (nextCyc s) := settled_pennants _ s

/-- The settling of the flags changes the pennants, half-mast with its first cause, and begins a write of the keep region:
nothing else. -/
theorem settle_settled (s : State) : Settled s (settle s) := by
  unfold settle
  split
  · exact settled_trans (settled_halfMastStep s) (settled_forNat 18 levelStep _ settled_levelStep)
  · exact settled_refl s

/-- From WARM to SAFE every module runs its engines. -/
theorem live_clocked {s : State} (h : live s = true) : s.power.mode.clocked = true := by
  unfold live at h
  cases hm : s.power.mode <;> simp_all [Mode.live, Mode.clocked]

/-- The next state of an event that has left the health and the stores of s as they were. -/
theorem ex_done {P : State → Prop} (s x : State) (hh : x.health = s.health) (hs : x.store = s.store)
    (h : ∀ t, t = { x with health := s.settledHealth t, store := s.settledStore t } → P t) : ∃ t, done x = .next t ∧ P t := by
  refine ⟨settle x, rfl, h _ ?_⟩
  have k := settle_settled x
  simpa only [Settled, State.settledHealth, State.settledStore, hh, hs] using k

/-- The next state of a write that has left the health and the stores of s as they were. -/
theorem ex_answered {P : State → Prop} (s : State) (a : Ans) (hh : a.st.health = s.health) (hs : a.st.store = s.store)
    (h : ∀ t, t = { a.st with out := .answer a.code a.val :: a.st.out, health := s.settledHealth t, store := s.settledStore t } → P t) :
    ∃ t, answered a = .next t ∧ P t :=
  ex_done s (emit (.answer a.code a.val) a.st) hh hs h

/-- The next state of a write that has begun no more than a settling of the flags may, beside its own effect x on s. -/
theorem ex_answered_settled {P : State → Prop} (x y : State) (code : Nat) (val : List Nat) (hy : Settled x y)
    (h : ∀ t, t = { x with out := .answer code val :: x.out, health := x.settledHealth t, store := x.settledStore t } → P t) :
    ∃ t, answered ⟨code, val, y⟩ = .next t ∧ P t := by
  refine ⟨settle (emit (.answer code val) y), rfl, h _ ?_⟩
  have k := settle_settled (emit (.answer code val) y)
  unfold Settled State.settledHealth State.settledStore at *
  rw [k, hy]
  rfl

/-- The same from WARM to SAFE for a write of an entry of its own. -/
theorem ex_served {P : State → Prop} (s : State) (k : State → Ans) (a : Ans) (hl : live s = true) (ha : k s = a)
    (hh : a.st.health = s.health) (hs : a.st.store = s.store)
    (h : ∀ t, t = { a.st with out := .answer a.code a.val :: a.st.out, health := s.settledHealth t, store := s.settledStore t } → P t) :
    ∃ t, served s k = .next t ∧ P t := by
  rw [served_live s k hl, ha]
  exact ex_answered s a hh hs h

end Sys2Proof.Machine
end

