-- ==== Sys2Proof/Laws/State.lean ====
section
/-! SUPPORT. The updates of the state: what each puts into the part that it changes, and what is read there afterwards.
Laws/Frames.lean says what each leaves alone. -/

namespace Sys2Proof.Machine

@[simp] theorem updAt_length {α : Type} (f : α → α) (k : Nat) (l : List α) : (updAt f k l).length = l.length := by
  induction l generalizing k with
  | nil => simp [updAt]
  | cons a l ih => cases k <;> simp [updAt, ih]

/-- The element changed, where the list has one. -/
theorem updAt_getD_same {α : Type} (f : α → α) (k : Nat) (l : List α) (d : α) (h : k < l.length) :
    (updAt f k l).getD k d = f (l.getD k d) := by
  induction l generalizing k with
  | nil => simp at h
  | cons a l ih =>
    cases k with
    | zero => rfl
    | succ k => simpa [updAt] using ih k (by simpa using h)

/-- Every other element stays. -/
theorem updAt_getD_other {α : Type} (f : α → α) (k j : Nat) (l : List α) (d : α) (h : j ≠ k) :
    (updAt f k l).getD j d = l.getD j d := by
  induction l generalizing k j with
  | nil => simp [updAt]
  | cons a l ih =>
    cases k with
    | zero => cases j with
      | zero => exact absurd rfl h
      | succ j => simp [updAt]
    | succ k => cases j with
      | zero => simp [updAt]
      | succ j => simpa [updAt] using ih k j (by omega)

@[simp] theorem cfgPut_cfg (idx sub v : Nat) (s : State) : (cfgPut idx sub v s).conf.cfg = cfgSet s.conf.cfg (key idx sub) v := rfl
@[simp] theorem onChan_chans (c : Nat) (f : Chan → Chan) (s : State) : (onChan c f s).chans = updAt f c s.chans := rfl
@[simp] theorem onChans_chans (f : Nat → Chan → Chan) (s : State) : (onChans f s).chans = s.chans.mapIdx f := rfl
@[simp] theorem onDie_dies (g : Nat) (f : Die → Die) (s : State) : (onDie g f s).dies = updAt f g s.dies := rfl
@[simp] theorem onSlice_dies (g k : Nat) (f : Slice → Slice) (s : State) :
    (onSlice g k f s).dies = updAt (fun d => { d with slices := updAt f k d.slices }) g s.dies := rfl
@[simp] theorem onGroup_groups (g : Nat) (f : Group → Group) (s : State) : (onGroup g f s).groups = updAt f g s.groups := rfl
@[simp] theorem onStream_streams (n : Nat) (f : Stream → Stream) (s : State) : (onStream n f s).streams = updAt f n s.streams := rfl
@[simp] theorem onPort_link (p : Nat) (f : Port → Port) (s : State) :
    (onPort p f s).link = { s.link with ports := updAt f p s.link.ports } := rfl
@[simp] theorem onUnit_units (u : Nat) (f : Unit → Unit) (s : State) : (onUnit u f s).units = updAt f u s.units := rfl
@[simp] theorem onPtp_ptp (p : Nat) (f : PtpPort → PtpPort) (s : State) :
    (onPtp p f s).ptp = { s.ptp with ports := updAt f p s.ptp.ports } := rfl
@[simp] theorem emit_out (o : Output) (s : State) : (emit o s).out = o :: s.out := rfl
@[simp] theorem fresh_value (s : State) : (fresh s).1 = Config.freeNat s.fv := rfl
@[simp] theorem fresh_fv (s : State) : (fresh s).2.fv = s.fv + 1 := rfl
@[simp] theorem refuse_code (code : Nat) (s : State) : (refuse code s).code = code := rfl
@[simp] theorem refuse_st (code : Nat) (s : State) : (refuse code s).st = s := rfl
@[simp] theorem accept_code (s : State) : (accept s).code = 0 := rfl
@[simp] theorem accept_st (s : State) : (accept s).st = s := rfl

/-- The channel changed. -/
theorem chanAt_onChan_same (c : Nat) (f : Chan → Chan) (s : State) (h : c < s.chans.length) :
    chanAt (onChan c f s) c = f (chanAt s c) := updAt_getD_same f c s.chans _ h

/-- Every other channel stays. -/
theorem chanAt_onChan_other (c j : Nat) (f : Chan → Chan) (s : State) (h : j ≠ c) :
    chanAt (onChan c f s) j = chanAt s j := updAt_getD_other f c j s.chans _ h

/-- The die changed. -/
theorem dieAt_onDie_same (g : Nat) (f : Die → Die) (s : State) (h : g < s.dies.length) :
    dieAt (onDie g f s) g = f (dieAt s g) := updAt_getD_same f g s.dies _ h

/-- Every other die stays. -/
theorem dieAt_onDie_other (g j : Nat) (f : Die → Die) (s : State) (h : j ≠ g) :
    dieAt (onDie g f s) j = dieAt s j := updAt_getD_other f g j s.dies _ h

/-- The group changed. -/
theorem groupAt_onGroup_same (g : Nat) (f : Group → Group) (s : State) (h : g < s.groups.length) :
    groupAt (onGroup g f s) g = f (groupAt s g) := updAt_getD_same f g s.groups _ h

/-- The stream changed. -/
theorem streamAt_onStream_same (n : Nat) (f : Stream → Stream) (s : State) (h : n < s.streams.length) :
    streamAt (onStream n f s) n = f (streamAt s n) := updAt_getD_same f n s.streams _ h

/-- The port changed. -/
theorem portAt_onPort_same (p : Nat) (f : Port → Port) (s : State) (h : p < s.link.ports.length) :
    portAt (onPort p f s) p = f (portAt s p) := updAt_getD_same f p s.link.ports _ h

/-- Every other port stays. -/
theorem portAt_onPort_other (p j : Nat) (f : Port → Port) (s : State) (h : j ≠ p) :
    portAt (onPort p f s) j = portAt s j := updAt_getD_other f p j s.link.ports _ h

/-- The unit changed. -/
theorem unitAt_onUnit_same (u : Nat) (f : Unit → Unit) (s : State) (h : u < s.units.length) :
    unitAt (onUnit u f s) u = f (unitAt s u) := updAt_getD_same f u s.units _ h

/-- The port as PTP sees it, changed. -/
theorem ptpAt_onPtp_same (p : Nat) (f : PtpPort → PtpPort) (s : State) (h : p < s.ptp.ports.length) :
    ptpAt (onPtp p f s) p = f (ptpAt s p) := updAt_getD_same f p s.ptp.ports _ h

end Sys2Proof.Machine
end

