-- ==== Sys2Proof/Tests/Slice0.lean ====
section
/-! SUPPORT. Tests of the model: the ill-formed commands that the well-formedness check refuses, results that the spec
states, and for every statement states and operands that meet the hypotheses of its clauses. -/

namespace Sys2Proof.Tests

open Sys2Proof Sys2Proof.Machine

/-! ### Small states -/

/-- A module with VMAIN in the mode m. -/
def at' (m : Mode) : State := { State.reset with power := { State.reset.power with mode := m, vmain := true } }

/-- A module in READY. -/
def ready : State := at' .ready

/-- The committed configuration of s with further entries; the list is in the order of its keys. -/
def conf (l : List (Nat × Nat)) (s : State) : State := { s with conf := { s.conf with cfg := l } }

/-- A port that stands wired with this status and role. -/
def port (up : Bool) (role : Nat) : Port := { Port.init with status := up, role := role, shareLeft := 100000 }

/-- A module on the ring: port 0 up, port 1 down the ring, port 2 spare; its address is 5. -/
def ringed (m : Mode) : State :=
  { conf [(key 0x1001 0, 5), (key 0x4900 2, 1)] (at' m) with
    link := { Link.init with ports := [port true 1, port true 2, port true 3, port false 0], creditLimit := 100 }
    time := { TimeEng.init with tw := 25700000, frameTw := 25600000, nextTick := 51200000, pt := 25700000, cyc := 25700000,
                                cycTw := 25700000, quality := 2 } }


/-- s with its power record changed. -/
def power (f : Power → Power) (s : State) : State := { s with power := f s.power }

/-- s with its link record changed. -/
def link (f : Link → Link) (s : State) : State := { s with link := f s.link }

/-- s with its buffers changed. -/
def buf (f : Buffers → Buffers) (s : State) : State := { s with buf := f s.buf }

/-- s with its first die changed. -/
def die (f : Die → Die) (s : State) : State := onDie 0 f s

/-- s with its first group changed. -/
def group (f : Group → Group) (s : State) : State := onGroup 0 f s

/-- s with its auxiliary path changed. -/
def aux (f : Aux → Aux) (s : State) : State := { s with aux := f s.aux }

/-- s with its stores changed. -/
def store (f : Storage → Storage) (s : State) : State := { s with store := f s.store }

/-- s with its clocks changed. -/
def clocks (f : Clocks → Clocks) (s : State) : State := { s with clocks := f s.clocks }

/-- s with its dictionary changed. -/
def dict (f : Dict → Dict) (s : State) : State := { s with dict := f s.dict }

/-- s with its network time changed. -/
def ptp (f : Ptp → Ptp) (s : State) : State := { s with ptp := f s.ptp }

/-- s with its self-calibration changed. -/
def cal (f : CalState → CalState) (s : State) : State := { s with cal := f s.cal }

/-- s with these scheduled actions. -/
def sched (l : List Sched) (s : State) : State := { s with act := { s.act with sched := l } }

/-- A module in RUN with stream 0, of channel 0, running. -/
def running : State :=
  { conf [(key 0x1001 0, 5), (key 0x4800 0, 1), (key 0x4900 2, 1)] (ringed .run) with
    streams := { Stream.init with running := true, startTw := 25600000, segs := [⟨1, none, 0, 0, 0, 0⟩] } :: List.replicate 15 .init }

/-- A visit of slice 0 in this phase. -/
def visit (phase : Nat) : Visit where
  chan := 0
  home := 0
  spare := 32
  v0 := 0
  phase := phase
  swapped := false
  fwdDone := false
  fwdSkip := false
  ladderDone := false
  reconnected := false
  revDone := false
  revKind := 0
  fitA := 5
  fitB := 6
  oldA := 1
  oldB := 2
  oldWeights := []
  newWeights := []
  oNew := 3
  oOld := 4
  dNew := 5
  dOld := 6
  refHit := false

/-- A module in RUN with this visit on die 0. -/
def visiting (v : Visit) : State := die (fun d => { d with visit := some v }) (at' .run)

/-- A fade of group 0 to bank 1. -/
def fade (first : Option Nat) : Fade := ⟨1, 16, 1000, first, 3, false, 4, 5, 6⟩

/-- A short frame of this class. -/
def frame (cls : Nat) : Frame := ⟨1, cls, List.replicate 100 7, 80, 2, [0], 3, 9, none, none, [], [], [], 0, [], false, [], [], 0⟩

/-- An entered frame. -/
def entered (ssn : BitVec 32) (sent acked : Bool) : Entered := ⟨frame 4, 0, 2, 0, 0, ssn, ssn + 1, sent, acked, 0, 0⟩

/-- A scheduled action. -/
def action (slot : Option Nat) (h : Nat) (op : Op) (tick : TW) : Sched := ⟨slot, h, 0, .operator, op, tick, 0, 0, 1⟩

/-- The octets of a frame from a host. -/
def framed (src dest typ hops : Nat) (payload : List Nat) : List Nat :=
  [0x10, typ] ++ octetsOf 5 (src * 2 ^ 20 + dest) ++ [hops] ++ octetsOf 4 0 ++ octetsOf 4 (payload.length * 2 ^ 18) ++ octetsOf 8 0
    ++ payload

/-- A read of NODE_ID. -/
def readNode : List Nat := octetsOf 8 (2 ^ 60 + 0x1001 * 2 ^ 40 + 2 ^ 24)

/-- The payload of a request of one record. -/
def request (role flags : Nat) (record : List Nat) : List Nat :=
  [role, flags, 0, 1, 1, 0, 0, 0] ++ octetsOf 8 25600000 ++ record ++ (if role = 0 then [] else List.replicate 32 0)

/-- An Announce of a master. -/
def announce : Announce := ⟨⟨0, 0, 2, 1, false⟩, 8, 0, 1, 2, 3, 4, 5, 9, 1, 3⟩

/-- A Sync of that master. -/
def sync : PtpEvent := ⟨⟨0, 0, 2, 1, false⟩, 7, false, 0, 0, 100000, 100, 25650000 * 256, 25660000 * 256, 3⟩

/-- A module that follows the master on port 0. -/
def slave : State :=
  { ringed .ready with
    ptp := { Ptp.init with
      ports := [{ PtpPort.init with valid := true, delays := [1000], masters := [⟨announce, [25690000, 25680000]⟩] },
                { PtpPort.init with untested := 1, admitted := 15, delays := [3] }, .init, .init]
      state := 9
      timingPort := some 0
      best := some announce
      offsets := [1, 2, 3] } }

/-- A descriptor of a timed action. -/
def descriptor (op arg instant : Nat) : BitVec 256 := BitVec.ofNat 256 (op * 2 ^ 248 + instant * 2 ^ 128 + arg)

/-! ### The well-formedness check refuses each ill-formed command -/

theorem test_wf_slot_octets :
    (Instr.bootComplete true ⟨[1, 256], [], [], [], []⟩).wf = false ∧ (Instr.bootComplete true ⟨[], [300], [], [], []⟩).wf = false ∧
    (Instr.bootComplete true ⟨[1, 255], [0], [false], [0], [1]⟩).wf = true := by decide

theorem test_wf_timestamps :
    (Instr.syncReceive 0 { sync with nanos := 10 ^ 9 }).wf = false ∧ (Instr.syncReceive 0 { sync with seconds := 2 ^ 48 }).wf = false ∧
    (Instr.followUpReceive 0 { sync with nanos := 10 ^ 9 }).wf = false ∧ (Instr.followUpReceive 0 sync).wf = true := by decide

theorem test_wf_tick_dram : (Instr.frameTick ⟨true, true, 0, 0, [], [], [], [⟨67584, 0, false⟩], [], [], [], []⟩).wf = false := by decide

theorem test_wf_tick_sram : (Instr.frameTick ⟨true, true, 0, 0, [], [], [], [], [(.unused, ⟨2096, 0, false⟩)], [], [], []⟩).wf = false := by decide

theorem test_wf_weights :
    (Instr.frameTick ⟨true, true, 0, 0, [⟨0, 0, [1, 2]⟩], [], [], [], [], [], [], []⟩).wf = false ∧
    (Instr.rotLadderCalEnd 0 0 ⟨List.replicate 19 (2 ^ 32), [], 0, 0, 0, 0⟩).wf = false := by decide

theorem test_wf_excursion : (Instr.overloadExcursion 3 ⟨0, .above⟩).wf = false ∧ (Instr.overloadExcursion 3 ⟨1, .below⟩).wf = true := by decide

theorem test_wf_octets :
    (Instr.ptpMessageForward 0 ⟨sync.head, [256]⟩).wf = false ∧ (Instr.dictRequestReceive 0 [1, 300]).wf = false ∧
    (Instr.axindFrameReceive 0 ⟨true, 1, [999]⟩).wf = false := by decide

theorem test_wf_level_window : (Instr.perfLevelChangeDone 40001).wf = false ∧ (Instr.perfLevelChangeDone 40000).wf = true := by
  decide

theorem test_wf_access :
    (Instr.registerWrite .custodian (key 0x1001 0) 5).wf = !(Instr.stagedWrite .custodian (key 0x1001 0) 5).wf ∧
    (Instr.registerWrite .custodian (key 0x4000 2) 5).wf = false ∧ (Instr.stagedWrite .operator (key 0x4000 2) 5).wf = false ∧
    (Instr.registerWrite .operator (key 0x9999 0) 5).wf = false := by decide

theorem test_wf_key_role : (Instr.keyWrite .custodian .observer 5).wf = false ∧ (Instr.keyWrite .custodian .operator 5).wf = true := by
  decide

theorem test_wf_arm : (Instr.trgArm .operator 0x001).wf = false ∧ (Instr.trgDisarm .operator 0x101).wf = false := by decide

theorem test_wf_reroute : (Instr.rerouteConfirm .operator 0x11).wf = false ∧ (Instr.rerouteApplyAsym .operator 0x01).wf = false := by
  decide

theorem test_wf_descriptors :
    (Instr.taSubmitStartStreams .operator (descriptor 2 1 0)).wf = false ∧
    (Instr.taSubmitStopStreams .operator (descriptor 1 1 0)).wf = false ∧
    (Instr.taSubmitTrgArm .operator (descriptor 1 1 0)).wf = false ∧
    (Instr.taSubmitHoist .operator (descriptor 1 1 0)).wf = false ∧
    (Instr.taSubmitOwc .operator (descriptor 1 1 0)).wf = false ∧
    (Instr.taSubmitStepTime .operator (descriptor 1 1 0)).wf = false ∧
    (Instr.taSubmitXfade .operator (descriptor 1 1 0)).wf = false ∧
    (Instr.taSubmitXfade .operator (descriptor 7 1 0)).wf = true := by decide

theorem test_wf_reads :
    (Instr.sbufEnter ⟨[], [⟨70000, 0, false⟩], []⟩).wf = false ∧ (Instr.frameTransmit 0 ⟨[], [⟨70000, 0, true⟩], []⟩).wf = false ∧
    (Instr.reserveRefill ⟨[], [⟨70000, 0, true⟩], []⟩).wf = false := by decide

/-! ### States that meet the hypotheses of each statement -/

theorem test_meets_StepRunsFront : ({ ready with pending := [.warmEnd, .auxCalBegin] } : State).pending = .warmEnd :: [.auxCalBegin] := by
  decide

theorem test_meets_StepIdles :
    State.reset.pending = [] ∧ State.reset.power.mode.clocked = false ∧ (at' .boot).pending = [] ∧ (at' .boot).power.mode = .boot ∧
    (ringed .ready).pending = [] ∧ live (ringed .ready) = true ∧
    (ringed .ready).time.cycInc ≤ toTickUnits (ringed .ready) ∧ (∀ x ∈ (ringed .ready).units, x.offers = []) ∧
    (let s : State := { ready with time := { ready.time with cycTw := 25599999, nextTick := 25600000 } }
     s.pending = [] ∧ live s = true ∧ toTickUnits s < s.time.cycInc ∧ ∀ x ∈ s.units, x.offers = []) := by decide

theorem test_meets_StepsAnswerAndKeepTheQueue :
    exec .vmainApplied State.reset = .next (power (fun p => { p with vmain := true, wakeWindow := true }) State.reset) := rfl

/-- A module with an unresolved re-route, before its flags settle. -/
def rerouting : State := ptp (fun p => { p with reroute := 1 }) ready

theorem test_meets_FlagsSettle :
    live rerouting = true ∧ rerouting.health.pennants[5]? = some Pennant.init ∧
    rerouting.health.pennants[18]?.isSome = true ∧ (settle rerouting).health.pennants[5]?.map (·.level) = some true := by decide

theorem test_meets_ConfigurationStaysCanonical :
    (ringed .ready).CfgInv ∧ step { ringed .off with pending := [] } = .next { ringed .off with pending := [] } :=
  ⟨by unfold State.CfgInv; decide, rfl⟩

theorem test_meets_UnpoweredStaysOff : State.reset.PowerInv ∧ step State.reset = .next State.reset :=
  ⟨fun _ => ⟨rfl, rfl, rfl⟩, rfl⟩

theorem test_meets_DarkModulesIgnore :
    live (at' .boot) = false ∧ Instr.warmEnd.actsDark = false ∧ Instr.calC0.actsUnpowered = false ∧ (at' .hibernate).power.mode.clocked = false ∧
    (Instr.sourceStop .ocxo).actsUnpowered = false := by decide

theorem test_meets_ObserverWritesNothing :
    live ready = true ∧ (Instr.hoist .observer 0).writeRole = some .observer := by decide

theorem test_meets_SupplyAndWake :
    State.reset.power.vmain = false ∧
    (let s := power (fun p => { p with wakeWindow := true }) (at' .off)
     s.power.wakeWindow = true ∧ s.power.vmain = true) ∧
    (at' .hibernate).power.vmain = true ∧ (at' .hibernate).power.mode = .hibernate ∧ ready.power.wakeWindow = false ∧
    ready.power.mode ≠ .hibernate ∧ hibSoon ready = false ∧
    (let s := power (fun p => { p with hibUntil := some 5 }) (at' .boot)
     s.power.wakeWindow = false ∧ hibSoon s = true ∧ s.power.hibWake = false) := by decide

theorem test_meets_ResetsStartBoot :
    ready.power.mode ≠ .off ∧ ready.power.resetLow = false ∧ State.reset.power.mode = .off ∧
    (let s := power (fun p => { p with resetLow := true, bootHeld := true }) (at' .boot)
     s.power.resetLow = true ∧ s.power.bootHeld = true ∧ hibSoon s = false) ∧
    live ready = true ∧
    (let s := power (fun p => { p with resetEntry := some 3 }) ready
     live s = true ∧ s.power.resetEntry = some 3) := by decide

theorem test_meets_BootEnds : (at' .boot).power.mode = .boot ∧ (at' .boot).power.bootHeld = false := by decide

/-- A module at the end of WARM. -/
def warmed : State :=
  { at' .warm with
    power := { (at' .warm).power with refOven := true, ocxoOven := true }
    clocks := { Clocks.init with ocxo := ⟨true, true, 0⟩ }
    dies := (at' .warm).dies.map fun d => { d with refReady := true }
    time := { (at' .warm).time with pt := 10 ^ 15 } }

theorem test_meets_WarmEnds :
    warmed.power.mode = .warm ∧ warmOpen warmed = 0 ∧ warmed.cal.fromWarm = false ∧
    (let s : State := { at' .warm with time := { (at' .warm).time with pt := 900 * 256000000000 } }
     s.power.mode = .warm ∧ warmOpen s ≠ 0 ∧ s.power.warmOver = false ∧ 900 * 256000000000 ≤ warmTime s) := by decide

theorem test_meets_HibernateEnters :
    ready.power.mode = .ready ∧ mayHibernate ready = true ∧
    (let s := power (fun p => { p with hibEntry := true }) ready
     s.power.mode = .ready ∧ s.power.hibEntry = true ∧ drained s = true ∧ s.power.wake = false ∧ s.power.wakeSeen = false) ∧
    (let s := power (fun p => { p with bootOnly := true }) (at' .safe)
     s.power.mode = .safe ∧ s.power.bootOnly = true) ∧
    drained (buf (fun b => { b with asm := [[frame 4], [], []] }) ready) = false ∧
    (let s := power (fun p => { p with hibEntry := true, wake := true }) ready
     s.power.mode = .ready ∧ s.power.hibEntry = true ∧ s.power.wake = true) := by decide

theorem test_meets_BoundaryScan :
    ready.power.mode.clocked = true ∧ takesContacts .samplePreload = false ∧ takesContacts .extest = true ∧
    live ready = true ∧ ready.power.mode ≠ .safe ∧
    (let e := action (some 3) 0x103 (.stopStreams 1) 256000000
     let s := sched [e] ready
     (s.act.sched.filter fun e => e.slot.isSome || leavesRecord e.op).length ≤ 64 ∧ e ∈ s.act.sched ∧ e.slot.isSome = true) := by
  decide

theorem test_meets_TickReached :
    live (ringed .run) = true ∧ (ringed .run).ptp.setDue = false ∧ (ringed .run).time.setPending = none ∧
    (ringed .run).power.hibEntry = false ∧
    (∀ e ∈ (ringed .run).act.sched, isStep e.op = false) := by decide

/-- A module in this mode whose buffers are ready. -/
def buffered (m : Mode) : State := { ringed m with dies := (ringed m).dies.map fun d => { d with refReady := true } }

/-- s with one direct operation that is due at the tick that comes. -/
def atTick (op : Op) (s : State) : State := sched [{ action none 0 op s.time.nextTick with left := 1 }] s

/-- It is due there, alone, where nothing else is. -/
theorem atTick_oneDue (op : Op) (s : State) (entry : s.power.hibEntry = false ∧ s.power.safeDue = false ∧ s.ptp.setDue = false ∧
    s.time.setPending = none ∧ s.cal.state = 0) (whole : shortAt (tf s) s.time.nextTick = false) : (atTick op s).OneDue op := by
  obtain ⟨a, b, c, d, e⟩ := entry
  refine ⟨a, b, c, d, ?_, whole, _, rfl, rfl, rfl, rfl⟩
  simp [calBars, atTick, sched, e]

/-- A module in READY with stream 0 of channel 0, whose die is ready. -/
def startable : State :=
  conf [(key 0x1001 0, 5), (key 0x4800 0, 1), (key 0x4900 2, 1)] (buffered .ready)

theorem test_meets_TickReached_operations :
    (atTick (.stepTime 7) running).OneDue (.stepTime 7) ∧ (atTick .hoist running).OneDue .hoist ∧
    (atTick (.startStreams 1) startable).OneDue (.startStreams 1) ∧ (atTick (.stopStreams 1) running).OneDue (.stopStreams 1) ∧
    (atTick (.stepTime 7) running).tickTakes ∧ running.time.quality ≠ 0 :=
  ⟨atTick_oneDue _ _ (by decide) (by decide), atTick_oneDue _ _ (by decide) (by decide), atTick_oneDue _ _ (by decide) (by decide),
    atTick_oneDue _ _ (by decide) (by decide), by unfold State.tickTakes; decide +kernel, by decide⟩

theorem test_meets_TickReached_streams :
    (let s := atTick (.startStreams 1) startable
     s.tickTakes ∧ (1 : BitVec 16) ≠ 0 ∧ s.streams.length = 16 ∧ (∀ k ∈ s.streams, k.running = false) ∧
     startCond s [] s.time.nextTick 1 = 0 ∧ s.power.mode = .ready) ∧
    (let s := atTick (.stopStreams 1) running
     s.tickTakes ∧ s.streams.length = 16 ∧ stopCond s [] 1 = 0 ∧ s.power.mode = .run ∧
     cfgAt s 0x4B05 0 * 2 ^ 20 ≥ 3 * wCfg s.conf.cfg + reserveFill s) := by
  unfold State.tickTakes
  decide +kernel

theorem test_meets_TickReached_setting :
    (let s : State := { ringed .warm with
       time := { (ringed .warm).time with quality := 0, setPending := some (7, 51200000) } }
     live s = true ∧ s.power.hibEntry = false ∧ s.power.safeDue = false ∧ s.ptp.setDue = false ∧ s.act.sched = [] ∧
     s.time.setPending = some (7, 51200000) ∧ TW.atOrBefore 51200000 s.time.nextTick = true ∧ s.time.quality = 0) ∧
    (let s : State := { atTick .hoist running with
       conf := { running.conf with hoist := some ⟨[(key 0x3600 0, 16000)], 0, .operator⟩ } }
     s.conf.hoist = some ⟨[(key 0x3600 0, 16000)], 0, .operator⟩) := by decide

theorem test_meets_FrameNumbers :
    (lookup 0x4000 2).isSome = true ∧ live running = true ∧ running.ptp.setDue = false ∧ running.time.setPending = none ∧
    running.power.hibEntry = false ∧
    (∀ e ∈ running.act.sched, isStep e.op = false) := by decide

theorem test_meets_FramesAtTheWrap :
    (let s := conf [(key 0x4001 0, 0)] (at' .ready)
     (2 * (2 ^ 64 % tf s) < tf s ∨ tf s ≤ 2 * (2 ^ 64 % tf s)) ∧ ∃ w : TW, w = BitVec.ofNat 64 (2 ^ 64 - 2 ^ 64 % tf s)) :=
  ⟨by decide, _, rfl⟩

theorem test_meets_PortSelfTests :
    (let s : State := { ringed .ready with health := { Health.init with
        selfTest := [⟨1, true, false, none, false⟩, ⟨2, true, false, none, true⟩, ⟨1, false, true, none, false⟩, ⟨1, false, true, none, false⟩] } }
     live s = true ∧ s.health.selfTest[0]? = some ⟨1, true, false, none, false⟩ ∧ 1 + 1 < 3 ∧
     s.health.selfTest[1]? = some ⟨2, true, false, none, true⟩ ∧ 3 ≤ 2 + 1 ∧ 1 < s.link.ports.length ∧
     1 < s.health.spare.portRetired.length ∧ s.health.selfTest[3]? = some ⟨1, false, true, none, false⟩) := by decide

/-- A page of the DRAM with an earlier failure of its word 7, and an SRAM row that failed before. -/
def failing : State :=
  { ringed .ready with health := { Health.init with
      dram := { Health.init.dram with seen := [(9, 7, 0)], pass := 1 }, sram := { Health.init.sram with seen := [(9, 7, 25600000)] } } }

theorem test_meets_PortSelfTests_memory :
    (∃ x ∈ failing.health.dram.seen, x.1 = 9 ∧ x.2.1 = 7 ∧ x.2.2 ≠ failing.health.dram.pass) ∧
    failing.health.spare.dramMap.any (fun p => decide (p.1 = 9)) = false ∧
    retireTo dramSpareBase 9 (freeSpare dramSpareBase 2048 failing.health.spare.dramMap) failing.health.spare.dramMap
      = some dramSpareBase ∧
    (∃ x ∈ failing.health.sram.seen, x.1 = 9 ∧ TW.diff (BitVec.ofNat 64 x.2.2) failing.time.tw ≤ dayUnits) ∧
    failing.health.spare.sramMap.any (fun p => decide (p.1 = 9)) = false ∧
    retireTo sramSpareBase 9 (freeSpare sramSpareBase 48 failing.health.spare.sramMap) failing.health.spare.sramMap
      = some sramSpareBase := by
  decide +kernel

theorem test_meets_ReferenceBuffers :
    (let s := power (fun p => { p with refOven := true }) ready
     live s = true ∧ (dieAt s 0).refEnable = true ∧ (dieAt s 0).bufOut = false ∧ s.power.refOven = true) ∧
    (let s := die (fun d => { d with refEnable := false }) ready
     live s = true ∧ roleOk .operator .operator = true ∧ (dieAt s 0).refEnable = false ∧ s.cal.state = 0) ∧
    (live ready = true ∧ (dieAt ready 3).refEnable = true ∧ ready.cal.state = 0 ∧ dieStreams ready 3 = false) := by decide

/-- The eighth reading in a row that departs, where the factory values make this reading depart; one that is clipped needs nothing. -/
theorem test_meets_ReferenceBuffers_departures (code : Int) (small : beyondPpm (departure code) 1000 = false)
    (out : beyondPpm (departure code) (cfgAt ready 0x5C60 0) = true) :
    let s : State := { ready with ref := { ready.ref with departures := List.replicate 7 code } }
    s.ref.inUse = 0 ∧ beyondPpm (departure code) 1000 = false ∧ beyondPpm (departure code) (cfgAt s 0x5C60 0) = true ∧
    s.ref.departures.length = 7 ∧ ready.ref.departures.length < 7 ∧ 0 < ready.chans.length :=
  ⟨rfl, small, out, rfl, by decide, by decide +kernel⟩

theorem test_meets_CalibrationBegins :
    (let s := buffered .ready
     calMaskOk 0x0F = true ∧ s.power.mode = .ready ∧ s.cal.state = 0 ∧
     (∀ g < 4, (0x0F : BitVec 8).toNat.testBit g = true → (dieAt s g).refReady = true ∧ fadeState s g = 0) ∧
     (∀ g < 4, owcState s g = 0) ∧ (∀ e ∈ s.act.sched, TW.atOrBefore e.fire (calEndTick s (directTick s) 0) = false)) ∧
    (let s := cal (fun c => { c with fromWarm := true, state := 1 }) (buffered .warm)
     s.power.hibEntry = false ∧ s.power.mode = .warm ∧ s.cal.fromWarm = true) ∧
    (let s := cal (fun c => { c with state := 1, mask := 3 }) (buffered .ready)
     s.power.mode = .ready ∧ s.cal.fromWarm = false ∧ s.cal.state = 1) ∧
    (let s := cal (fun c => { c with state := 2, mask := 3, restart := some 5 }) (buffered .calibrate)
     s.power.mode = .calibrate ∧ s.cal.restart.isSome = true) := by decide

theorem test_meets_CalibrationEnds :
    (let s := cal (fun c => { c with state := 2, mask := 3, judged := 1 }) (buffered .calibrate)
     s.cal.state = 2 ∧ s.cal.written = false ∧ s.cal.extensions < s.cal.judged ∧ s.store.faulty.any id = false ∧
     127 < s.chans.length) ∧
    (let s := cal (fun c => { c with state := 2, mask := 3, retiredOn := 2 }) (buffered .calibrate)
     s.power.mode = .calibrate ∧ s.cal.state = 2 ∧ s.cal.restart = none ∧ s.cal.failedOn = 0 ∧ (∀ d ∈ s.dies, d.orphan = 0) ∧
     live s = true ∧ s.cal.endTick ≠ s.cal.endTick + 1) := by
  decide +kernel

/-- A module with an overload episode open on channel 127, its last sample before this edge. -/
def overloaded (edge : Nat) : State :=
  { ringed .run with chans := updAt (fun c => { c with ovrEdge := edge, ovrFirst := edge, ovrLevel := true }) 127 (ringed .run).chans }

theorem test_meets_OverloadEpisodes :
    live (ringed .run) = true ∧ 127 < (ringed .run).chans.length ∧ 0 < 1 ∧ (chanAt (ringed .run) 127).ovrEdge = 0 ∧
    (let s := overloaded (edgeNow (ringed .run) + 5)
     ¬((chanAt s 127).ovrEdge = 0 ∨ (chanAt s 127).ovrEdge + 18 < edgeNow s)) ∧
    cfgBool (ringed .run) 0x2F43 3 = false ∧ cfgBool (conf [(key 0x2F43 3, 1)] (ringed .run)) 0x2F43 3 = true := by decide +kernel

/-- A module whose check of group 0 stands at the end of this phase. -/
def checking (phase : Nat) : State :=
  group (fun g => { g with owc := { g.owc with state := 2, phase := phase, due := true, s := 1, m := 1, ticks := 3 } })
    { ready with chans := updAt (fun c => { c with owcIn := true }) 0 ready.chans }

theorem test_meets_OpenWireChecks :
    (∀ p ∈ [2, 5], live (checking p) = true ∧ 0 < (checking p).groups.length ∧ (groupAt (checking p) 0).owc.state = 2 ∧
      (groupAt (checking p) 0).owc.due = true ∧ (groupAt (checking p) 0).owc.phase = p) ∧
    (chanAt (checking 5) 0).owcIn = true ∧ (chanAt (checking 5) 1).owcIn = false ∧ owcShared (checking 5) 0 = false := by decide

theorem test_meets_VisitForward :
    (let s := visiting (visit 1)
     live s = true ∧ 0 < s.dies.length ∧ (dieAt s 0).visit = some (visit 1) ∧ (visit 1).phase = 1 ∧ (visit 1).fwdDone = false ∧
     2 * (fitSums s (chanOf 0 (visit 1).chan) ((visit 1).v0 + 8192) 3056 ⟨[(64, 64)]⟩).n < 3056 ∧
     0 < (dieAt s 0).slices.length ∧ 32 < (dieAt s 0).slices.length) ∧
    (let v := { visit 1 with fwdDone := true, fwdSkip := true }
     (dieAt (visiting v) 0).visit = some v ∧ v.fwdDone = true ∧ v.fwdSkip = true ∧ reserveSpare (dieAt (visiting v) 0) = some 33) ∧
    (let v := { visit 1 with fwdDone := true }
     (dieAt (visiting v) 0).visit = some v ∧ v.fwdDone = true ∧ v.fwdSkip = false ∧ v.swapped = false ∧ v.home ≠ v.spare ∧
     reserveSpare (dieAt (visiting v) 0) = some 33 ∧ 33 ≠ v.spare ∧ chanOf 0 v.chan < (visiting v).chans.length) ∧
    (let v := { visit 1 with fwdDone := true, swapped := true }
     (dieAt (visiting v) 0).visit = some v ∧ v.fwdDone = true ∧ v.fwdSkip = false ∧ v.swapped = true ∧
     reserveSpare (dieAt (visiting v) 0) = some 33) := by decide +kernel

/-- The sums hold as many blocks as are valid. -/
theorem foldl_add_n (l : List (Int × Int)) (f : FitSums) : (l.foldl FitSums.add f).n = f.n + l.length := by
  induction l generalizing f with
  | nil => rfl
  | cons x l ih => rw [List.foldl_cons, ih, List.length_cons]; simp only [FitSums.add]; omega

/-- In a visit whose channel no taint span touches every block is valid. -/
theorem fitSums_n (v : Visit) (first len : Nat) (f : FitObs) (h : f.blocks.length = len) :
    (fitSums (visiting v) 0 first len f).n = len := by
  have taint : (chanAt (visiting v) 0).taint = [] := by rfl
  simp [fitSums, foldl_add_n, validBlocks, taint, List.filter_true, h]

theorem test_meets_VisitForward_fit :
    3056 ≤ 2 * (fitSums (visiting (visit 1)) (chanOf 0 (visit 1).chan) ((visit 1).v0 + 8192) 3056
      ⟨List.replicate 3056 (64, 64)⟩).n := by
  rw [show chanOf 0 (visit 1).chan = 0 from rfl, fitSums_n _ _ _ _ List.length_replicate]
  decide

theorem test_meets_VisitReverse :
    (let v := visit 2
     (dieAt (visiting v) 0).visit = some v ∧ v.phase = 2 ∧ v.ladderDone = false ∧ v.swapped = false ∧ v.refHit = false ∧
     (0 : Fin 34).val = v.home) ∧
    (let v := { visit 2 with ladderDone := true }
     (dieAt (visiting v) 0).visit = some v ∧ v.phase = 2 ∧ v.ladderDone = true ∧ v.swapped = false ∧ v.refHit = false) ∧
    (let v := visit 3
     (dieAt (visiting v) 0).visit = some v ∧ v.phase = 3 ∧ v.revDone = false) ∧
    (let v := { visit 3 with revDone := true }
     (dieAt (visiting v) 0).visit = some v ∧ v.phase = 3 ∧ v.revDone = true ∧ v.revKind ≠ 2) ∧
    (let v := { visit 3 with revDone := true, revKind := 2 }
     (dieAt (visiting v) 0).visit = some v ∧ v.phase = 3 ∧ v.revDone = true ∧ v.revKind = 2 ∧ v.home ≠ v.spare ∧
     v.home < (dieAt (visiting v) 0).slices.length ∧ v.spare < (dieAt (visiting v) 0).slices.length) ∧
    (let s := die (fun d => { d with pairDue := some ⟨0, 0, 100, 5⟩ }) (at' .run)
     live s = true ∧ (dieAt s 0).pairDue = some ⟨0, 0, 100, 5⟩ ∧ (sliceAt s 0 0).role = .working ∧ (sliceAt s 0 0).home = 0 ∧
     chanOf 0 0 < s.chans.length ∧
     ((chanAt s (chanOf 0 0)).base.map (pairTarget (100 - ((sliceAt s 0 0).oX - (chanAt s (chanOf 0 0)).oBase)) 5)).all
       pairInRange = true) := by decide +kernel

/-- A ladder calibration that measures the factory weights passes its checks, whatever those weights are. -/
theorem test_meets_VisitReverse_ladder (v : Visit) :
    ladderBad (visiting v) 0 0 ⟨(List.range 19).map (factoryWeight 0 0), List.replicate 9 0, 1, 2, 3, 4⟩ = false := by
  have h : ∀ n l, weightBad n n l = false := fun n l => by simp [weightBad]
  have w : weightsBad 0 0 ((List.range 19).map (factoryWeight 0 0)) = false := by
    simp only [weightsBad, List.any_eq_false, List.mem_range]
    intro i hi
    simp [List.getD, hi, h]
  simp only [ladderBad, w]
  rfl

theorem test_meets_FailedSlicesRetire :
    (let s := visiting (visit 1)
     live s = true ∧ 0 < s.dies.length ∧ 33 < (dieAt s 0).slices.length ∧ (dieAt s 0).refEnable = true ∧
     ((dieAt s 0).slice 33).role ≠ .retired ∧ (visit 1).home ≠ (visit 1).spare ∧ s.store.faulty.any id = false ∧
     (∀ x ∈ (s.pending.takeWhile isFailure).filterMap (failureOf 0), 33 ≤ x.1)) ∧
    (let s := die (fun d => d.serving) (at' .run)
     (((dieAt s 0).slice 0).activity = 1 ∨ ((dieAt s 0).slice 0).activity = 2) ∧ latched s 0 0 (edgeNow s) = false) := by decide +kernel

theorem test_meets_CoefficientWrites :
    live ready = true ∧ roleOk .operator .operator = true ∧
    (BitVec.ofInt 32 (-(2 ^ 23) - 1)).toInt < -(2 ^ 23) ∧ 2 ^ 23 - 1 < (BitVec.ofInt 32 (2 ^ 23)).toInt ∧
    -(2 ^ 23) ≤ (BitVec.ofInt 32 (-(2 ^ 23))).toInt ∧ (BitVec.ofInt 32 (2 ^ 23 - 1)).toInt ≤ 2 ^ 23 - 1 ∧
    bankLocked ready 0 0 = true ∧ bankLocked ready 0 1 = false := by decide

theorem test_meets_LockedBanks :
    live ready = true ∧ ((groupAt ready 0).bank 0).len < 128 ∧ bankLocked ready 0 0 = true ∧
    bits (0 : BitVec 16).toNat 15 4 = 0 ∧ bits (0 : BitVec 16).toNat 2 1 = 0 ∧ bits (0 : BitVec 16).toNat 0 0 = 0 ∧
    bits (0x20 : BitVec 16).toNat 15 6 = 0 ∧ bits (0x20 : BitVec 16).toNat 5 4 ≠ 3 := by decide

theorem test_meets_BanksSealAndLoad :
    live ready = true ∧ roleOk .operator .operator = true ∧
    bankLocked ready (bits (1 : BitVec 16).toNat 2 1) (bits (1 : BitVec 16).toNat 0 0) = false ∧
    bits (1 : BitVec 16).toNat 15 4 = 0 ∧ bits (0x29 : BitVec 16).toNat 15 6 = 0 ∧ bits (0x29 : BitVec 16).toNat 5 4 ≠ 3 ∧
    (let s := group (fun g => { g with banks := g.banks.set 1 ⟨2 ^ 22 :: List.replicate 31 0, false, 0, 0⟩ }) ready
     sealOk ((groupAt s 0).bank 1).coefs (lenOf 1) = true) ∧
    (let s := group (fun g => { g with banks := g.banks.set 1 ⟨List.replicate 31 0 ++ [2 ^ 22], false, 0, 0⟩ }) ready
     sealOk ((groupAt s 0).bank 1).coefs (lenOf 1) = false) := by decide

theorem test_meets_FadesRun :
    (let s := group (fun g => { g with fade := some (fade none) }) ready
     live s = true ∧ 0 < s.groups.length ∧ (groupAt s 0).fade = some (fade none) ∧ (fade none).first = none) ∧
    (let s := group (fun g => { g with fade := some (fade (some 8)) }) ready
     live s = true ∧ (groupAt s 0).fade = some (fade (some 8)) ∧ (fade (some 8)).first.isSome = true ∧
     s.store.faulty.any id = false) := by decide

/-- A running stream whose channel has a complete window, with the edge map of a nominal oscillator. -/
def windowed : State :=
  { running with
    chans := running.chans.map fun c => { c with path := { c.path with w := [(10 ^ 9, 5)] } }
    map := { running.map with segs := [⟨25600000, 0, 0, 2 ^ 64 / 62500, 0, false⟩] } }

/-- A running stream with a part in progress, in a frame longer than TF. -/
def parted : State :=
  { running with
    streams := updAt (fun x => { x with parts := [⟨none, [⟨3, 0, 0, 0, [7], [0]⟩]⟩] }) 0 running.streams
    time := { running.time with nextTick := 60000000 } }

theorem test_meets_OutputsAndParts :
    (live ready = true ∧ (streamAt ready 0).running = false ∧ 127 < ready.chans.length ∧
     nextConv (dieAt (die (fun d => { d with convLog := [(0, false)] }) ready) 0).convLog 0 = none) ∧
    (live windowed = true ∧ (streamAt windowed 0).running = true ∧ 0 < windowed.streams.length ∧ cfgAt windowed 0x3602 0 = 0 ∧
     (formOutput windowed 0).isSome = true) ∧
    (live parted = true ∧ (streamAt parted 0).running = true ∧
     tf parted < frameLen parted.time.frameTw parted.time.nextTick ∧
     (streamAt parted 0).parts = [⟨none, [⟨3, 0, 0, 0, [7], [0]⟩]⟩] ∧ 0 < parted.buf.asm.length ∧ 0 < parted.buf.res.length) := by
  decide +kernel

/-- An average over two outputs, at its first and at its last, and a word in and out of the range. -/
theorem test_meets_OutputsAndParts_average :
    (⟨[5], [0], 1, true, 3⟩ : Averager).open_ = true ∧ (4 + 1) % 2 ^ 1 ≠ 0 ∧ (5 + 1) % 2 ^ 1 = 0 ∧ 0 < 256 ∧
    (finalWord 1000 256).2 = false ∧ (finalWord (2 ^ 50) 256).2 = true := by decide

/-- A die that has always converted takes a conversion at every edge. -/
theorem test_meets_OutputsAndParts_edges (e : Nat) : logAt true (dieAt ready 0).convLog e = true := rfl

theorem test_meets_AuxiliaryConversions :
    (let s := aux (fun a => { a with sampling := some ⟨2, 20, 0, 0, 0⟩ }) ready
     live s = true ∧ s.aux.sampling = some ⟨2, 20, 0, 0, 0⟩ ∧ s.aux.conv = none ∧ edgeLate s = false) ∧
    edgeLate { ready with time := { ready.time with tw := 25599999, pt := 1 } } = true ∧
    (∀ k ∈ [0, 2, 3], let s := aux (fun a => { a with conv := some ⟨⟨k, 20, 1, 0, 2⟩, 9, 0, 8, false, 1, 2⟩ }) ready
     s.aux.conv = some ⟨⟨k, 20, 1, 0, 2⟩, 9, 0, 8, false, 1, 2⟩ ∧ s.aux.ring.recs.length + 1 < auxRingSize) ∧
    cfgBool ready 0x3820 5 = false ∧ cfgBool (conf [(key 0x3820 5, 1)] ready) 0x3820 5 = true := by decide

theorem test_meets_AuxiliaryCalibrationAndWindows :
    (auxModes.contains ready.power.mode = true ∧ ready.aux.calState = 0) ∧
    (let s := aux (fun a => { a with calState := 1 }) ready
     live s = true ∧ s.aux.calState = 1 ∧ s.aux.conv = none ∧ s.aux.calBefore = 0 ∧ auxSpan s = false) ∧
    (let s := aux (fun a => { a with calState := 2 }) ready
     live s = true ∧ s.aux.calState = 2) ∧
    (let s := conf [(key 0x380B 3, 1)] (aux (fun a => { a with wins := a.wins.set 3 ⟨0, 65535, true⟩ }) ready)
     live s = true ∧ s.aux.wins[3]? = some ⟨0, 65535, true⟩ ∧ cfgAt s 0x380B 3 ≠ 0 ∧ edgeLate s = false) ∧
    edgeLate { ready with time := { ready.time with tw := 25599999, pt := 1 } } = true := by decide

/-- A module whose auxiliary sequence is launched by the host. -/
def sequencing : State := conf [(key 0x3800 0, 2), (key 0x3802 0, 1)] ready

theorem test_meets_AuxiliaryRequests :
    (auxModes.contains sequencing.power.mode = true ∧ cfgAt sequencing 0x3802 0 = 1 ∧ cfgAt sequencing 0x3800 0 ≠ 0 ∧
     seqActive sequencing = false ∧ auxCalBusy sequencing = false) ∧
    seqActive (aux (fun a => { a with seq := [⟨0, 1, 0, 0, 0⟩] }) sequencing) = true ∧ sequencing.aux.latched = none ∧
    auxCalBusy (aux (fun a => { a with calState := 2 }) sequencing) = true ∧ cfgAt ready 0x3800 0 = 0 ∧
    (at' .warm).power.mode = .warm ∧ live (at' .warm) = true ∧ bits (0x0903 : BitVec 32).toNat 11 8 = 9 ∧
    bits (0x0843 : BitVec 32).toNat 31 16 = 0 ∧ bits (0x0843 : BitVec 32).toNat 11 8 ≤ 8 ∧ ready.aux.queue.length < 4 ∧
    4 ≤ (aux (fun a => { a with queue := List.replicate 4 ⟨1, 1, 1, 1, 1⟩ }) ready).aux.queue.length := by decide

/-- A running module whose unit 0 waits for instants of its own. -/
def instants (waits : Bool) (phase : Nat) : State :=
  conf [(key 0x3C00 0, 1), (key 0x3C02 0, 5), (key 0x3C0A 0, phase), (key 0x3C15 0, 1)]
    { running with units := updAt (fun x => { x with armed := true, waiting := waits }) 0 running.units }

theorem test_meets_TriggerUnitsDecide :
    (∀ w ∈ [true, false], ∀ phase ∈ [0, 1000], let s := instants w phase
     live s = true ∧ 0 < s.units.length ∧ (unitAt s 0).armed = true ∧ cfgAt s 0x3C02 0 = 5 ∧
     (cfgAt s 0x3C0A 0 ≠ 0 ∨ (unitAt s 0).nextM = 0)) ∧
    (unitAt (instants true 0) 0).waiting = true ∧ (unitAt (instants true 0) 0).blocked (storeRoom (instants true 0) 0) (sampleSize (instants true 0) 0) = false := by
  decide

theorem test_meets_TriggerPulses :
    (let s : State := { ready with outs := [⟨true, [(5, 9)], 7, 0⟩, ⟨false, [(5, 9)], 0, 0⟩] }
     live s = true ∧ s.power.mode = .ready ∧ s.outs[1]? = some ⟨false, [(5, 9)], 0, 0⟩ ∧ s.outs[0]? = some ⟨true, [(5, 9)], 7, 0⟩ ∧ 5 ≤ 7) ∧
    (let s : State := { ready with outs := [⟨true, [(8, 9)], 7, 0⟩, ⟨true, [], 7, 0⟩] }
     s.outs[0]? = some ⟨true, [(8, 9)], 7, 0⟩ ∧ 7 < 8 ∧ s.outs[1]? = some ⟨true, [], 7, 0⟩) ∧
    (at' .safe).power.mode ≠ .ready ∧ (at' .safe).power.mode ≠ .run ∧ live (at' .safe) = true := by decide

/-- A module that follows the master and has no other active ring port. -/
def leaf (f : PtpPort → PtpPort) : State :=
  ptp (fun p => { p with ports := updAt f 0 p.ports })
    (link (fun l => { l with ports := [port true 1, port false 0, port true 3, port false 0] }) slave)

/-- The offset of R222 that the Sync gives a module, with its ingress and corrections. -/
def offsetOf (s : State) (ingress correction : Int) : Int :=
  corrDiff ((timestampTw sync.seconds sync.nanos 0).toNat * 256) (instantIn s 0 ingress) - correction - linkDelay s 0 - asymmetry s 0

theorem test_meets_SyncMessages :
    (live slave = true ∧ activePort slave 0 = true ∧ 0 < slave.ptp.ports.length ∧ otherPort slave 0 = some 1 ∧
     ownDomain slave { sync.head with domain := 4 } = false) ∧
    (let s := leaf fun q => { q with held := [(sync.id, 55)] }
     (ptpAt s 0).held.find? (fun h => h.1 = sync.id) = some (sync.id, 55)) ∧
    (let s := leaf id
     live s = true ∧ activePort s 0 = true ∧ otherPort s 0 = none ∧ ownDomain s sync.head = true ∧
     ptpBad { sync.head with unsupported := true } = true ∧ ptpBad sync.head = false ∧ -7 ≤ sync.logInt ∧ sync.logInt ≤ 0 ∧
     fromMaster s 0 sync = true ∧ sync.twoStep = false ∧ s.ptp.reroute.testBit 0 = false ∧ (ptpAt s 0).valid = true ∧
     gatedBy s (offsetOf s sync.ingress sync.correction) = false ∧
     gatedBy s (offsetOf s (sync.ingress + 10 ^ 12) sync.correction) = true ∧ s.ptp.gated.length + 1 < 16) ∧
    (ownDomain slave sync.head = true ∧ fromMaster slave 0 sync = true ∧ (ptpAt slave 0).valid = true ∧
     gatedBy slave (offsetOf slave sync.ingress sync.correction) = false) ∧
    (let y := { sync with twoStep := true }
     let s := leaf fun q => { q with sync := [y] }
     (ptpAt s 0).sync.find? (fun y => y.id = sync.id) = some y ∧ fromMaster s 0 y = true ∧ s.ptp.reroute.testBit 0 = false ∧
     (ptpAt s 0).valid = true ∧ gatedBy s (offsetOf s y.ingress (y.correction + sync.correction)) = false) := by decide +kernel

theorem test_meets_MastersAndTimeouts :
    live slave = true ∧ 3 < slave.ptp.ports.length ∧ activePort slave 0 = true ∧ ownDomain slave announce.head = true ∧
    ptpBad announce.head = false ∧ ptpBad { announce.head with version := 1 } = true ∧ announcedNow slave 0 = false ∧
    announcedNow { slave with time := { slave.time with cyc := 25690000 } } 0 = true ∧
    ⟨announce, [25690000, 25680000]⟩ ∈ (ptpAt slave 0).masters ∧ slave.ptp.best = some announce ∧
    slave.time.quality ≠ 0 ∧ held slave = false ∧ otherPort slave 0 = some 1 := by decide

/-- A module with an exchange of peer delays open on port 1. -/
def exchanging : State :=
  ptp (fun p => { p with ports := updAt (fun q => { q with pend := some (9, 5), resp := some (1, 5, 5, 5, 5) }) 1 p.ports }) slave

theorem test_meets_LinkDelays :
    live exchanging = true ∧ activePort exchanging 1 = true ∧ 1 < exchanging.ptp.ports.length ∧
    (ptpAt exchanging 1).pend = some (9, 5) ∧ (ptpAt exchanging 1).resp = some (1, 5, 5, 5, 5) ∧
    0 < (ptpAt exchanging 1).untested ∧ ownDomain exchanging sync.head = true ∧ ptpBad sync.head = false ∧
    ptpBad { sync.head with minor := 2 } = true ∧ (ptpAt exchanging 0).pend = none := by decide

theorem test_meets_TimeSetAndReroutes :
    ((at' .warm).time.quality = 0 ∧ [Mode.warm, .ready, .run, .safe].contains (at' .warm).power.mode = true ∧
     (at' .warm).cal.state = 0 ∧ (at' .warm).time.setPending = none) ∧
    (ringed .ready).time.quality ≠ 0 ∧
    (let s := ptp (fun p => { p with reroute := 2, ports := p.ports.map fun q => { q with rerouted := [4, 4] } }) slave
     live s = true ∧ (0x01 : BitVec 8).toNat.testBit 4 = false ∧ (0x11 : BitVec 8).toNat.testBit 4 = true ∧
     bits (0x11 : BitVec 8).toNat 7 5 = 0 ∧ bits (0x11 : BitVec 8).toNat 3 2 = 0 ∧
     s.ptp.reroute.testBit (bits (0x10 : BitVec 8).toNat 1 0) = false ∧
     s.ptp.reroute.testBit (bits (0x11 : BitVec 8).toNat 1 0) = true ∧
     bits (0x11 : BitVec 8).toNat 1 0 < s.ptp.ports.length ∧ (ptpAt s (bits (0x11 : BitVec 8).toNat 1 0)).rerouted ≠ []) := by
  decide

/-- A module whose input 7 is in use, with its latest edge at this instant of local time, and three records on each ring. -/
def edged (last : Nat) : State :=
  conf [(key 0x5200 7, 2)]
    { ringed .run with
      ev := { (ringed .run).ev with
        inputs := List.replicate 8 ⟨3, 9, some last, false, 0, false⟩, ring := { Ring.init with recs := [1, 2, 3] } }
      aux := { Aux.init with ring := { Ring.init with recs := [1, 2, 3] } } }

theorem test_meets_EventEdgesAndRings :
    (let s := edged 25699999
     live (at' .boot) = false ∧ live s = true ∧ s.ev.inputs[0]? = some ⟨3, 9, some 25699999, false, 0, false⟩ ∧ cfgAt s 0x5200 0 = 0 ∧
     cfgAt s 0x5200 7 = 2 ∧ s.ev.ring.recs.length + 1 < evRingSize ∧ evLocal s 0 < 25699999 + evDead) ∧
    25690000 + evDead ≤ evLocal (edged 25690000) 31 ∧
    (let s := edged 0
     (3 : BitVec 16).toNat < auxRingSize ∧
     ((3 : BitVec 16).toNat + auxRingSize - s.aux.ring.read) % auxRingSize ≤ s.aux.ring.recs.length ∧
     s.aux.ring.recs.length < ((4 : BitVec 16).toNat + auxRingSize - s.aux.ring.read) % auxRingSize ∧
     (3 : BitVec 16).toNat < evRingSize ∧
     ((3 : BitVec 16).toNat + evRingSize - s.ev.ring.read) % evRingSize ≤ s.ev.ring.recs.length ∧
     s.ev.ring.recs.length < ((4095 : BitVec 16).toNat + evRingSize - s.ev.ring.read) % evRingSize) := by decide +kernel

/-- s, whose next tick lies at t. -/
def tickAt (t : TW) (s : State) : State := { s with time := { s.time with nextTick := t } }

/-- Whatever the factory skews are, the stamp of an edge lies at one next tick and before another. -/
theorem test_meets_EventEdgesAndRings_late (x b : Nat) (rising : Bool) :
    (let s := tickAt (evStamp (edged 0) x b rising) (edged 0)
     live s = true ∧ TW.atOrBefore s.time.nextTick (evStamp s x b rising) = true) ∧
    (let s := tickAt (evStamp (edged 0) x b rising + 1) (edged 0)
     live s = true ∧ TW.atOrBefore s.time.nextTick (evStamp s x b rising) = false) := by
  have e : ∀ t : TW, TW.atOrBefore t t = true := fun t => by simp [TW.atOrBefore, TW.diff]
  have n : ∀ t : TW, TW.atOrBefore (t + 1) t = false := fun t => by
    simp [TW.atOrBefore, TW.diff]
  exact ⟨⟨rfl, e _⟩, rfl, n _⟩

/-- A module that takes trigger messages of scope 7 without a tag. -/
def messaging : State := conf [(key 0x1001 0, 5), (key 0x5280 0, 7)] (ringed .run)

theorem test_meets_TriggerMessages :
    live messaging = true ∧ msgTest messaging ⟨1, 9, 2, 3, 0, 25600000, 0⟩ ≠ 0 := by decide +kernel

/-- A unit that watches the code of that message. -/
theorem test_meets_TriggerMessages_watched :
    (let s := conf [(key 0x3C02 1, 6), (key 0x3C03 1, 1)] { messaging with units := updAt (fun x => { x with armed := true }) 1 messaging.units }
     live s = true ∧ 1 < s.units.length ∧ (unitAt s 1).armed = true ∧ cfgAt s 0x3C02 1 = 6 ∧ cfgAt s 0x3C03 1 = 1) := by decide

/-- A message that carries the tag of the Operator key 5. -/
def tagged : TrgMessage :=
  ⟨1, 7, 2, 3, 0, 25600000, BitVec.ofNat 64 (natOf (trgAuth 5 (trgBody 1 7 2 3 0 25600000)))⟩

theorem test_meets_TriggerMessages_accepted :
    msgTest (dict (fun d => { d with keyOp := ⟨some 5, 1, none, 0⟩ }) messaging) tagged = 0 := by decide +kernel

theorem test_meets_TimedActions :
    (let d := descriptor 2 1 256000000
     (Instr.taSubmitStopStreams .operator d).wf = true ∧ descDecode d = some (.stopStreams 1) ∧
     roleOk .operator (descRole d) = true ∧ running.time.quality ≠ 0 ∧ readyFor running (fireTick running (descInstant d)) = true ∧
     calBars running (fireTick running (descInstant d)) = false ∧ TW.inWindow running.time.cycTw (descInstant d) = true ∧
     2 * tf running ≤ TW.diff running.time.cycTw (fireTick running (descInstant d)) ∧ freeSlot running = some 0 ∧
     actionFits running (.stopStreams 1) (fireTick running (descInstant d)) = true ∧
     actionCond running (.stopStreams 1) (fireTick running (descInstant d)) = 0) ∧
    (let d := descriptor 6 7 256000000
     (Instr.taSubmitStepTime .custodian d).wf = true ∧ descDecode d = some (.stepTime 7) ∧
     roleOk .custodian (descRole d) = true ∧ readyFor running (fireTick running (descInstant d)) = true ∧
     actionCond running (.stepTime 7) (fireTick running (descInstant d)) = 0 ∧
     stepDue running (fireTick running (descInstant d)) = false ∧
     actionFits running (.stepTime 7) (fireTick running (descInstant d)) = true) ∧
    (let d := descriptor 2 1 30000000
     calBars running (fireTick running (descInstant d)) = false ∧ TW.inWindow running.time.cycTw (descInstant d) = true ∧
     TW.diff running.time.cycTw (fireTick running (descInstant d)) < 2 * tf running) := by decide +kernel

/-- A module in READY with a staged entry, whose banks hold two-tap averages. -/
def staged : State :=
  { ringed .ready with
    conf := { (ringed .ready).conf with shadow := [(key 0x3600 0, 16000)] }
    groups := (ringed .ready).groups.map fun g => { g with banks := [⟨twoTap 64, true, 64, 0⟩, ⟨twoTap 32, true, 32, 0⟩] } }

/-- The check of a hoist from any generation to generation 1 that expects this digest. -/
def hoistKey (d : BitVec 64) : BitVec 128 := BitVec.ofNat 128 (0xFFFFFFFF * 2 ^ 96 + 2 ^ 64 + d.toNat)

theorem test_meets_ActionsCancelled :
    (let s := sched [action (some 3) 0x103 (.stopStreams 1) 256000000, action (some 4) 4 (.trg 1) 51200000,
                     action (some 5) 5 (.stepTime 1) 512000000] (ringed .ready)
     s.power.mode = .ready ∧ (∀ e ∈ s.act.sched, e.slot = none ∨ e.handle ≠ (9 : BitVec 16).toNat) ∧
     s.act.sched.find? (fun e => e.slot.isSome && decide (e.handle = (0x103 : BitVec 16).toNat))
       = some (action (some 3) 0x103 (.stopStreams 1) 256000000) ∧ roleOk .operator (opRole (.stopStreams 1)) = true ∧
     tf s ≤ TW.diff s.time.cycTw 256000000 ∧
     s.act.sched.find? (fun e => e.slot.isSome && decide (e.handle = (4 : BitVec 16).toNat))
       = some (action (some 4) 4 (.trg 1) 51200000) ∧ TW.diff s.time.cycTw 51200000 < tf s ∧
     s.act.sched.find? (fun e => e.slot.isSome && decide (e.handle = (5 : BitVec 16).toNat))
       = some (action (some 5) 5 (.stepTime 1) 512000000) ∧ roleOk .operator (opRole (.stepTime 1)) = false ∧
     roleOk .observer (opRole (.stopStreams 1)) = false) := by decide

theorem test_meets_WritesWaitForTheirTick :
    running.power.mode = .run ∧ roleOk .custodian .operator = true ∧ owcArgOk 1 = true ∧ fadeArgOk 1 = true ∧
    (2 : BitVec 16) ≠ 0 ∧ running.store.slotState ≠ 4 ∧ trgArgOk 0x101 = true ∧ trgArgOk 1 = true ∧
    roleOk .custodian .custodian = true ∧ (∀ e ∈ running.act.sched, isStep e.op = false) ∧
    stopCond running (priorTo running (directTick running) 2) 1 = 0 ∧ tickFits running (directTick running) 1 = true ∧
    stopCond running (priorTo running (directTick running) 2) 2 ≠ 0 := by decide +kernel

theorem test_meets_FramesRouted :
    live (ringed .ready) = true ∧
    (∀ f ∈ [⟨false, 1, framed 0 5 0x10 3 []⟩, (⟨true, 1, []⟩ : RxFrame)], f.fcsOk = false ∨ f.octets.length < 24) ∧
    (∀ dest ∈ [5, 6, 0xFFFFF],
      24 ≤ (framed 0 dest 0x13 3 []).length ∧ octetAt (framed 0 dest 0x13 3 []) 0 / 16 = 1 ∧
      hdrDest (framed 0 dest 0x13 3 []) = dest ∧ hdrHops (framed 0 dest 0x13 3 []) = 3) ∧
    activePort (ringed .ready) 0 = true ∧ cfgAt (ringed .ready) 0x1001 0 = 5 ∧ otherPort (ringed .ready) 0 = some 1 ∧
    takenTypes.contains (hdrType (framed 3 5 0x20 3 [])) = true ∧ hdrType (framed 3 5 0x20 3 []) = 0x20 ∧
    hdrSource (framed 3 5 0x20 3 []) = 3 ∧ takenTypes.contains (hdrType (framed 0 5 0x99 3 [])) = false := by decide

/-- There is a source address that is not the module's. -/
theorem test_meets_FramesRouted_source : (⟨true, moduleMac + 1, []⟩ : RxFrame).srcMac ≠ moduleMac := by simp

/-- A module with two frames in the stream buffer that have been sent and are not acknowledged. -/
def sent : State :=
  buf (fun b => { b with sbuf := [entered 3 true false, entered 4 true false], depth := 4 })
    (link (fun l => { l with ackNext := 3, ssnNext := 5, creditUsed := 5, ackCredit := 3 }) (ringed .ready))

theorem test_meets_CreditAndAcks :
    live sent = true ∧ serialLe sent.link.ackNext 5 = true ∧ serialLe 5 sent.link.ssnNext = true ∧
    (serialLe sent.link.ackNext 6 && serialLe 6 sent.link.ssnNext) = false ∧
    (∀ e ∈ sent.buf.sbuf, e.sent = true ∧ serialLt e.ssn 5 = true) ∧ (oldestUnacked sent).isSome = true ∧
    sent.link.ackAt ≠ some sent.time.cyc ∧
    (link (fun l => { l with ackAt := some 25700000 }) sent).link.ackAt = some sent.time.cyc := by decide

theorem test_meets_RingPortsChange :
    (let s := ringed .ready
     live s = true ∧ 3 < s.link.ports.length ∧ (portAt s 0).role = 1 ∧ (portAt s 0).status = true ∧ (portAt s 1).role ≠ 1) ∧
    (let s := link (fun l => { l with ports := [port true 1, port false 2, port true 3, port false 0] }) (ringed .ready)
     (portAt s 1).status = false ∧ (portAt s 1).role ≠ 0 ∧ standby s = some 2 ∧ (portAt s 1).role = 2) ∧
    (let s := link (fun l => { l with ports := [port true 1, port false 0, port true 3, port false 0] }) (ringed .ready)
     (portAt s 0).role = 1 ∧ ∀ q < 4, (portAt s q).role ≠ 2) ∧
    (let s := conf [(key 0x1001 0, 5), (key 0x4909 0, 1)]
       (link (fun l => { l with ports := [port true 2, port true 1, port true 3, port false 0] }) (ringed .ready))
     wired s 0 = true ∧ cfgAt s 0x4901 0 = 1 ∧ cfgBool s 0x4909 0 = true ∧ (portAt s 0).status = true ∧ (portAt s 0).role = 2) ∧
    (let s := conf [(key 0x1001 0, 5), (key 0x4909 0, 1)]
       (link (fun l => { l with ports := [port true 3, port true 1, port true 2, port false 0] }) (ringed .ready))
     wired s 0 = true ∧ cfgAt s 0x4901 0 = 1 ∧ cfgBool s 0x4909 0 = true ∧ (portAt s 0).status = true ∧ (portAt s 0).role = 3 ∧
     upPort s = some 1) := by decide

theorem test_meets_FramesLeave :
    (let s := link (fun l => { l with ports := updAt (fun x => { x with breaks := [[1], [2]] }) 1 l.ports }) (ringed .ready)
     live s = true ∧ (portAt s 1).status = true ∧ (portAt s 1).role = 2 ∧ (portAt s 1).breaks = [1] :: [[2]]) ∧
    (let s := link (fun l => { l with ports := updAt (fun x => { x with fwd := [[1, 2], [3]] }) 0 l.ports }) (ringed .ready)
     (portAt s 0).breaks = [] ∧ (portAt s 0).fwd = [1, 2] :: [[3]]) ∧
    (let s := buf (fun b => { b with sbuf := [entered 0 false false], depth := 2 }) (ringed .ready)
     (portAt s 0).role = 1 ∧ (portAt s 0).breaks = [] ∧ (portAt s 0).fwd = [] ∧ waiting s = some (entered 0 false false) ∧
     mayStart s 0 (entered 0 false false) = true ∧ (entered 0 false false).frame.cls = 4) ∧
    (let e : Entered := { entered 0 false false with frame := frame 6 }
     let s := buf (fun b => { b with sbuf := [e], depth := 2 }) (ringed .ready)
     waiting s = some e ∧ mayStart s 0 e = true ∧ e.frame.cls = 6 ∧ (portAt s 0).msgs = [] ∧ s.link.own = []) ∧
    (let s := link (fun l => { l with ports := updAt (fun x => { x with msgs := [[1, 2], [3]] }) 1 l.ports, ctlLeft := 2048 }) (ringed .ready)
     (portAt s 1).breaks = [] ∧ (portAt s 1).fwd = [] ∧ (portAt s 1).msgs = [1, 2] :: [[3]] ∧ mayControl s 1 2 = true ∧
     (portAt s 1).role = 2) ∧
    (let s := link (fun l => { l with own := [⟨none, [1, 2], none, none, true⟩], ctlLeft := 2048 }) (ringed .ready)
     waiting s = none ∧ (portAt s 0).msgs = [] ∧ mayControl s 0 (⟨none, [1, 2], none, none, true⟩ : Answer).len = true) ∧
    (let s := buf (fun b => { b with retx := some 3 }) sent
     waiting s = none ∧ s.link.own = [] ∧ s.buf.retx = some 3 ∧
     s.buf.sbuf.find? (fun x => x.sent && decide (x.ssn = 3)) = some (entered 3 true false)) ∧
    (let s := buf (fun b => { b with sbuf := [entered 0 false false], depth := 2 })
       (link (fun l => { l with ackCredit := 100 }) (ringed .ready))
     waiting s = some (entered 0 false false) ∧ mayStart s 0 (entered 0 false false) = false ∧ s.buf.retx = none) := by decide

theorem test_meets_StreamBufferMoves :
    (let s := buf (fun b => { b with asm := [[frame 4, frame 4], [], [frame 6]] }) (ringed .ready)
     live s = true ∧ noneWaiting s = true ∧ segInFlight s < 192 ∧ enterQueue s = some 0 ∧ s.buf.asm[0]? = some (frame 4 :: [frame 4])) ∧
    (let s := buf (fun b => { b with sbuf := [entered 3 true true, entered 4 true false], depth := 4 }) (ringed .ready)
     live s = true ∧ s.buf.sbuf = entered 3 true true :: [entered 4 true false] ∧ (entered 3 true true).acked = true ∧
     s.buf.portsAt ≠ some s.time.cyc) ∧
    (let s := buf (fun b => { b with portsAt := some 25700000 }) (ringed .ready)
     s.buf.portsAt = some s.time.cyc) ∧
    (let s := buf (fun b => { b with asm := [[], [], []], res := [[frame 4], [], []] }) (ringed .ready)
     live s = true ∧ refillQueue s = some 0 ∧ s.buf.res[0]? = some (frame 4 :: []) ∧ 0 < s.buf.asm.length) := by decide

theorem test_meets_RequestsArrive :
    (∀ src ∈ [0, 9], let l := framed src 5 0x10 3 (request 0 0 readNode)
     live (ringed .ready) = true ∧ activePort (ringed .ready) 0 = true ∧ 24 ≤ l.length ∧ octetAt l 0 / 16 = 1 ∧ hdrType l = 0x10 ∧
     hdrDest l = cfgAt (ringed .ready) 0x1001 0 ∧ hdrDest l ≠ 0xFFFFF ∧ cfgAt (ringed .ready) 0x1001 0 ≠ 0 ∧
     hdrSource l = src) ∧
    64 ≤ inFlight (link (fun l => { l with own := List.replicate 64 ⟨none, [1, 2], none, none, true⟩ }) (ringed .ready)) ∧
    (let l := framed 0 5 0x10 3 (request 0 0 readNode)
     inFlight (ringed .ready) < 64 ∧ (parseRequest (payloadOf l)).isSome = true ∧ octetAt (payloadOf l) 0 = 0 ∧
     digestBad (ringed .ready) (hopless l) (payloadOf l) = false) ∧
    (let l := framed 0 5 0x10 3 (request 1 0 readNode)
     (parseRequest (payloadOf l)).isSome = true ∧ octetAt (payloadOf l) 0 ≠ 0 ∧
     (keyOf ready (roleNumbered (octetAt (payloadOf l) 0))).key = none) := by decide +kernel

/-- A request tagged with zeros fails under a key of 5. -/
theorem test_meets_RequestsArrive_tag :
    (let s := dict (fun d => { d with keyOp := ⟨some 5, 0, none, 0⟩ }) (ringed .ready)
     let l := framed 0 5 0x10 3 (request 1 0 readNode)
     (keyOf s (roleNumbered (octetAt (payloadOf l) 0))).key ≠ none ∧ verifyKey s (hopless l) (payloadOf l) = none) := by decide +kernel

theorem test_meets_RequestsRun :
    live ready = true ∧ ready.dict.queue = [] ∧
    (∀ n ∈ [3, 8000],
      let q : DictReq := ⟨0, .observer, List.replicate 24 0, request 0 0 readNode, none, 0⟩
      let s := dict (fun d => { d with queue := [q] }) { ringed .ready with time := { (ringed .ready).time with reserveLeft := n } }
      let a := runRequest q s
      let cost := requestCost q a (answerBody q a s.time.cycTw)
      s.dict.queue = q :: [] ∧ (n = 3 → s.time.reserveLeft < cost) ∧ (n = 8000 → cost ≤ s.time.reserveLeft)) := by decide +kernel

theorem test_meets_KeysAndReplay :
    live ready = true ∧ Role.operator ≠ .observer ∧ (2 ^ 255 : BitVec 256) ≠ 0 ∧ Role.observer ≠ .custodian := by decide +kernel

theorem test_meets_EntryWrites :
    live ready = true ∧ lookup (keyIdx (key 0x9999 0)) (keySub (key 0x9999 0)) = none ∧
    (∃ row, lookup (keyIdx (key 0x4000 2)) (keySub (key 0x4000 2)) = some row ∧ row.acc = .ro) ∧
    (∃ row, lookup (keyIdx (key 0x3600 0)) (keySub (key 0x3600 0)) = some row ∧ row.acc = .rws ∧ roleOk .operator row.role = true ∧
      roleOk .observer row.role = false ∧ 2 ^ (8 * row.ty.size) ≤ 2 ^ 64 ∧ 16000 < 2 ^ (8 * row.ty.size) ∧
      valueTest row (key 0x3600 0) 16000 ready = 0) ∧
    (∃ row, lookup (keyIdx (key 0x1202 0)) (keySub (key 0x1202 0)) = some row ∧ row.acc = .rw ∧ storedRw 0x1202 = true ∧
      roleOk .custodian row.role = true ∧ 5 < 2 ^ (8 * row.ty.size) ∧ valueTest row (key 0x1202 0) 5 ready = 0) ∧
    roleOk .custodian .operator = true ∧ 1 < 2 ^ 32 ∧ moduleSerial + 1 ≠ moduleSerial :=
  ⟨by decide, by decide, ⟨_, rfl, by decide⟩, ⟨_, rfl, by decide⟩, ⟨_, rfl, by decide⟩, by decide, by decide, by simp⟩

theorem test_meets_SingleWrites :
    ready.power.mode = .ready ∧ (at' .warm).power.mode ≠ .ready ∧ live (at' .warm) = true ∧ roleOk .operator .operator = true ∧
    pnLevel rerouting 5 = true ∧ 63 < (64 : BitVec 8).toNat ∧ (63 : BitVec 8).toNat ≤ 63 ∧ Role.operator ≠ .custodian ∧
    (let s := raisePn 7 (ringed .ready)
     pnLevel s 7 = false ∧ (s.health.pennants.getD 7 Pennant.init).cycle = some s.time.cyc) ∧
    (∀ n ∈ [0, 7, 63], pnLevel ready n = false ∧ (ready.health.pennants.getD n Pennant.init).cycle ≠ some ready.time.cyc) ∧
    halfMastNow ready = false := by decide

theorem test_meets_ShadowAndHoist :
    (let s := ringed .ready
     s.power.mode = .ready ∧ roleOk .custodian (hoistRole s) = true ∧ calBars s (directTick s) = false ∧ s.conf.hoist = none) ∧
    (let s : State := { ringed .ready with conf := { (ringed .ready).conf with hoist := some ⟨[(key 0x3600 0, 16000)], 0, .operator⟩ } }
     s.conf.hoist.isSome = true ∧ calBars s (directTick s) = false) ∧
    (live staged = true ∧ (∀ p ∈ staged.conf.shadow, roleOk .custodian (writeRole p.1) = true) ∧
     (0x360000 : BitVec 32).toNat < 2 ^ 24 ∧ roleOk .operator (writeRole (0x360000 : BitVec 32).toNat) = true) := by decide

/-- The fields of a check that expects the digest d. -/
theorem hoistKey_fields (d : BitVec 64) :
    baseGen (hoistKey d) = 0xFFFFFFFF ∧ newGen (hoistKey d) = 1 ∧ checkDigest (hoistKey d) = d := by
  refine ⟨?_, ?_, ?_⟩ <;> simp only [baseGen, newGen, checkDigest, hoistKey] <;> bv_omega

/-- A hoist that passes the tests before its check has the result of the check. -/
theorem hoistTests_clear (s : State) (content : KV) (k : BitVec 128) (w : TW) (x : Around)
    (period : (changes s content (key 0x4001 0) && decide (w.toNat % 256000000 ≠ 0)) = false)
    (cross : crossOk (cfgApply s.conf.cfg content) = true) (rules : stateRulesOk s content x = true)
    (room : admission (cfgApply s.conf.cfg content) (levelNow s) x.count x.laterCounts = none) :
    hoistTests s content k w x = (none, hoistCheck s (cfgApply s.conf.cfg content) k) := by
  simp only [hoistTests, period, cross, rules, room]
  simp

/-- A check that names the digest of the resulting configuration passes. -/
theorem hoistCheck_passes (s : State) (c : KV) (newer : serialLt s.conf.generation 1 = true)
    (sound : s.store.faulty.any id = false) (fits : sectionFits c s = true) : hoistCheck s c (hoistKey (digestOf c)) = 0 := by
  simp only [hoistCheck, hoistKey_fields, newer, sound, fits]
  simp

/-- The shadow of one entry passes the tests of a hoist. -/
theorem test_meets_ShadowAndHoist_tests :
    (hoistTests staged staged.conf.shadow (hoistKey (digestOf (cfgApply staged.conf.cfg staged.conf.shadow)))
      (directCourse staged) (aroundTick staged (directTick staged))).2 = 0 := by
  have a := hoistTests_clear staged staged.conf.shadow
    (hoistKey (digestOf (cfgApply staged.conf.cfg staged.conf.shadow))) (directCourse staged) (aroundTick staged (directTick staged))
    (by decide +kernel) (by decide +kernel) (by decide +kernel) (by decide +kernel)
  have b := hoistCheck_passes staged (cfgApply staged.conf.cfg staged.conf.shadow) (by decide) (by decide) (by decide +kernel)
  rw [a, b]

/-- The fields of a descriptor of a hoist. -/
theorem descriptor_hoist (k : BitVec 128) :
    let d := descriptor 4 k.toNat 256000000
    BitVec.ofNat 128 (descArg d) = k ∧ descOp d = 4 ∧ descReserved d = true ∧ descInstant d = 256000000 := by
  have := k.isLt
  simp only [descArg, descOp, descReserved, descInstant, descriptor, BitVec.toNat_ofNat, Bool.and_eq_true, decide_eq_true_eq]
  refine ⟨?_, by omega, by omega, ?_⟩
  · apply BitVec.eq_of_toNat_eq; rw [BitVec.toNat_ofNat]; omega
  · apply BitVec.eq_of_toNat_eq
    rw [BitVec.toNat_ofNat, show (256000000 : TW).toNat = 256000000 from rfl]
    omega

/-- The same shadow as the content of a timed hoist. -/
theorem test_meets_TimedActions_hoist :
    let k := hoistKey (digestOf (cfgApply staged.conf.cfg staged.conf.shadow))
    let d := descriptor 4 k.toNat 256000000
    (Instr.taSubmitHoist .operator d).wf = true ∧ descDecode d = some .hoist ∧ roleOk .operator (descRole d) = true ∧
    staged.time.quality ≠ 0 ∧ readyFor staged (fireTick staged (descInstant d)) = true ∧
    calBars staged (fireTick staged (descInstant d)) = false ∧ TW.inWindow staged.time.cycTw (descInstant d) = true ∧
    2 * tf staged ≤ TW.diff staged.time.cycTw (fireTick staged (descInstant d)) ∧ freeSlot staged = some 0 ∧
    actionFits staged .hoist (fireTick staged (descInstant d)) = true ∧ roleOk .operator (hoistRole staged) = true ∧
    staged.conf.hoist = none ∧
    (hoistTests staged staged.conf.shadow (BitVec.ofNat 128 (descArg d)) (namedCourse staged (fireTick staged (descInstant d)))
      (aroundTick staged (fireTick staged (descInstant d)))).2 = 0 := by
  extract_lets k d
  obtain ⟨a, o, z, i⟩ : BitVec.ofNat 128 (descArg d) = k ∧ descOp d = 4 ∧ descReserved d = true ∧ descInstant d = 256000000 :=
    descriptor_hoist k
  have w : (Instr.taSubmitHoist .operator d).wf = true := by
    have : opField d = 4 := o
    simp [Instr.wf, this]
  have e : descDecode d = some .hoist := by simp [descDecode, o, z]
  have r : roleOk .operator (descRole d) = true := by simp [descRole, o, roleOk]
  have h := hoistTests_clear staged staged.conf.shadow k (namedCourse staged (fireTick staged 256000000))
    (aroundTick staged (fireTick staged 256000000)) (by decide +kernel) (by decide +kernel) (by decide +kernel) (by decide +kernel)
  have b := hoistCheck_passes staged (cfgApply staged.conf.cfg staged.conf.shadow) (by decide) (by decide) (by decide +kernel)
  rw [a, i, h, b]
  exact ⟨w, e, r, by decide +kernel⟩

theorem test_meets_TimedActions_check :
    let d := descriptor 5 1 256000000
    (Instr.taSubmitOwc .operator d).wf = true ∧ descDecode d = some (.owc 1) ∧
    actionCond (buffered .ready) (.owc 1) (fireTick (buffered .ready) (descInstant d)) = 0 ∧
    actionFits (buffered .ready) (.owc 1) (fireTick (buffered .ready) (descInstant d)) = true := by decide +kernel

/-- An image of the module's present configuration. -/
def imaged : BankImage := imageNow ready 1

theorem test_meets_StoreWrites :
    (let s := store (fun x => { x with writing := some (0, imaged, false), mirroring := some (1, imaged.img, 2),
                                       keepWriting := some (1, keepOf ready 3) }) ready
     live s = true ∧ s.store.writing = some (0, imaged, false) ∧ s.store.again = false ∧
     s.store.mirroring = some (1, imaged.img, 2) ∧ s.store.mirrorNext = none ∧ s.power.mode.clocked = true ∧
     s.store.keepWriting = some (1, keepOf ready 3)) ∧
    (let s := store (fun x => { x with mirroring := some (1, imaged.img, 3) }) ready
     s.store.mirroring = some (1, imaged.img, 3) ∧ 3 ≤ 3 ∧ s.store.mirrorNext = none) ∧
    (ready.store.slotBus.run []).unreadable = false ∧ (SlotBus.run ⟨true, 2, false⟩ [false]).unreadable = true ∧
    (⟨false, 0, false⟩ : SlotBus).unreadable = false ∧ (⟨false, 0, false⟩ : SlotBus).fails = 0 :=
  ⟨⟨rfl, rfl, rfl, rfl, rfl, rfl, rfl⟩, ⟨rfl, Nat.le_refl 3, rfl⟩, rfl, rfl, rfl, rfl⟩

theorem test_meets_ClockSources :
    (let s := conf [(key 0x5800 0, 1)] (clocks (fun c => { c with ocxo := ⟨true, true, 0⟩, refclk := ⟨true, true, 9⟩ }) ready)
     s.power.mode.clocked = true ∧ (srcAt s .refclk10).running = true ∧ s.clocks.switching = none ∧ s.clocks.inUse ≠ .refclk10 ∧
     s.clocks.inUse = .ocxo ∧ cfgAt s 0x5800 0 = 1 ∧ s.power.mode = .ready ∧ s.clocks.recovered.length = 4 ∧
     s.clocks.refclk.running = true ∧ s.clocks.ocxo.running = true) ∧
    (let s := clocks (fun c => { c with inUse := .refclk10, refclk := ⟨true, true, 10⟩, ocxo := ⟨true, true, 0⟩ }) ready
     (srcAt s .refclk10).running = true ∧ s.clocks.switching = none ∧ s.clocks.inUse = .refclk10 ∧ Source.refclk10 ≠ .ocxo ∧
     s.clocks.ocxo.running = true) ∧
    (clocks (fun c => { c with switching := some ⟨.refclk10, false, none⟩ }) ready).clocks.switching = some ⟨.refclk10, false, none⟩ ∧
    none = ready.ptp.timingPort := by decide

theorem test_meets_LevelsAndGates :
    live ready = true ∧ (clocks (fun c => { c with perfTarget := some 2 }) ready).clocks.perfTarget = some 2 ∧
    gateOf (clocks (fun c => { c with gateState := c.gateState.set 10 1 }) ready) 10 = 1 ∧ gateOf ready 10 ≠ 1 := by decide

/-! ### Results that the spec's worked examples state -/

/-- 14, after R367: the message of the digest when only TF, the level and SHARED_CLASSES are shared. -/
theorem test_digest_message :
    digestMessage [(key 0x5402 0, 1)] =
      [0x4E, 0x4F, 0x56, 0x45, 0x55, 0x53, 0x01, 0x40, 0x01, 0x00, 0x02, 0x00, 0x01, 0x01, 0x54, 0x01, 0x00, 0x02, 0x00, 0x01, 0x01,
       0x54, 0x02, 0x00, 0x03, 0x00, 0x02, 0x00, 0x01] := by decide +kernel

/-- FIPS 180-4, which R366 names: the digest of abc. -/
theorem test_sha256_abc : (sha256 [0x61, 0x62, 0x63]).take 8 = [0xBA, 0x78, 0x16, 0xBF, 0x8F, 0x01, 0xCF, 0xEA] := by
  decide +kernel

/-- 05, the chain delay of N = 4, R = 64 and L = 64, and of L = 32. -/
theorem test_chain_delay :
    chainDelay [] 1 = 133875000 ∧ chainDelay [(key 0x3402 1, 32)] 1 / modPeriod = 1118 := by decide

/-- 01, the frame budget of 50 µs at P1 with eight streams of 16 channels at 32 kS/s: an ordinary tick needs 17,200 of
20,000 cycles and a hoist tick 15,200. -/
theorem test_tick_budget :
    let c := [(key 0x4001 0, 0)] ++ (List.range 8).map (fun i => (key 0x3600 i, 32000)) ++
      (List.range 8).map (fun i => (key 0x4800 i, 0xFFFF * 2 ^ (16 * i)))
    ordinaryTick c 1 0 = (17200, 20000) ∧ hoistTickLoad c 1 0 = (15200, 20000) := by decide +kernel

/-- 01, a time beyond the wrap lies in the future. -/
theorem test_wrap_window : TW.inWindow 0xFFFFFFFFFFFFF000 0x1000 = true := by decide

/-- 04, the forward fit, the reverse gain and the pair update of CH045. -/
theorem test_visit_example :
    fitOffset ⟨3056, 512345678 * 64 * 3056, 512300000 * 64 * 3056, 0, 0, 0⟩ (-150) = 45606 ∧
    scaledGain (2 ^ 30 - 8) (2 ^ 30) (-150) = -158 ∧
    pairTarget 1182 (-158) (210000, 1800) = (208818, 1958) ∧ pairMove (208830, 1955) (208818, 1958) = (208818, 1958) := by
  decide +kernel

/-- 03, the pair of CH040 at gain code 3, with the factory α of 0.9. -/
theorem test_calibration_pair : calPair (9 / 10) ⟨40, 3, 380000, 1933120000, -1932360000⟩ = (380000, -2620) := by decide +kernel

end Sys2Proof.Tests
end

/-! SUPPORT AND PROOFS. Supply and scope: what reads and transmissions, the tick and requests leave alone, in which states
each command acts (R8, R386), and the invariant of a module without VMAIN (R385, R424). -/

namespace Sys2Proof.Machine

/-! ### Frames of the reads of frames and of what transmits them -/

@[simp] theorem readWord_frame (x : Frame × State) (w : WordFault) :
    (readWord x w).2.pending = x.2.pending ∧ (readWord x w).2.conf.cfg = x.2.conf.cfg ∧
    (readWord x w).2.power.vmain = x.2.power.vmain ∧ (readWord x w).2.time.tw = x.2.time.tw := by
  unfold readWord; dsimp only; split <;> simp

@[simp] theorem foldl_readWord_frame (l : List WordFault) (x : Frame × State) :
    (l.foldl readWord x).2.pending = x.2.pending ∧ (l.foldl readWord x).2.conf.cfg = x.2.conf.cfg ∧
    (l.foldl readWord x).2.power.vmain = x.2.power.vmain ∧ (l.foldl readWord x).2.time.tw = x.2.time.tw := by
  induction l generalizing x with
  | nil => simp
  | cons w l ih => simp [ih]

@[simp] theorem readFrame_frame (o : ReadObs) (f : Frame) (s : State) :
    (readFrame o f s).2.pending = s.pending ∧ (readFrame o f s).2.conf.cfg = s.conf.cfg ∧
    (readFrame o f s).2.power.vmain = s.power.vmain ∧ (readFrame o f s).2.time.tw = s.time.tw := by
  simp [readFrame]

@[simp] theorem sbufEnter_frame (o : ReadObs) (s : State) :
    (sbufEnter o s).pending = s.pending ∧ (sbufEnter o s).conf.cfg = s.conf.cfg ∧
    (sbufEnter o s).power.vmain = s.power.vmain ∧ (sbufEnter o s).time.tw = s.time.tw := by
  simp only [sbufEnter]; (repeat' split) <;> simp

@[simp] theorem sendWaiting_frame (p : Nat) (o : ReadObs) (e : Entered) (s : State) :
    (sendWaiting p o e s).pending = s.pending ∧ (sendWaiting p o e s).conf.cfg = s.conf.cfg ∧
    (sendWaiting p o e s).power.vmain = s.power.vmain ∧ (sendWaiting p o e s).time.tw = s.time.tw := by
  simp [sendWaiting]

@[simp] theorem retransmit_frame (p : Nat) (o : ReadObs) (s : State) :
    (retransmit p o s).pending = s.pending ∧ (retransmit p o s).conf.cfg = s.conf.cfg ∧
    (retransmit p o s).power.vmain = s.power.vmain ∧ (retransmit p o s).time.tw = s.time.tw := by
  simp only [retransmit]; (repeat' split) <;> simp

@[simp] theorem ownTransmit_frame (p : Nat) (o : ReadObs) (s : State) :
    (ownTransmit p o s).pending = s.pending ∧ (ownTransmit p o s).conf.cfg = s.conf.cfg ∧
    (ownTransmit p o s).power.vmain = s.power.vmain ∧ (ownTransmit p o s).time.tw = s.time.tw := by
  simp only [ownTransmit]; (repeat' split) <;> simp

@[simp] theorem frameTransmit_frame (p : Nat) (o : ReadObs) (s : State) :
    (frameTransmit p o s).pending = s.pending ∧ (frameTransmit p o s).conf.cfg = s.conf.cfg ∧
    (frameTransmit p o s).power.vmain = s.power.vmain ∧ (frameTransmit p o s).time.tw = s.time.tw := by
  simp only [frameTransmit]; (repeat' split) <;> simp

@[simp] theorem refill_frame (o : ReadObs) (s : State) :
    (refill o s).pending = s.pending ∧ (refill o s).conf.cfg = s.conf.cfg ∧
    (refill o s).power.vmain = s.power.vmain ∧ (refill o s).time.tw = s.time.tw := by
  simp only [refill]; (repeat' split) <;> simp

@[simp] theorem faultAt_frame (pos : Nat) (w : WordFault) (l : List Frame) (s : State) :
    (faultAt pos w l s).2.pending = s.pending ∧ (faultAt pos w l s).2.conf.cfg = s.conf.cfg ∧
    (faultAt pos w l s).2.power.vmain = s.power.vmain ∧ (faultAt pos w l s).2.time.tw = s.time.tw := by
  unfold faultAt; split <;> simp

@[simp] theorem spillCheck_frame (l : List (Fin 3 × Nat × WordFault)) (s : State) :
    (spillCheck l s).pending = s.pending ∧ (spillCheck l s).conf.cfg = s.conf.cfg ∧
    (spillCheck l s).power.vmain = s.power.vmain ∧ (spillCheck l s).time.tw = s.time.tw := by
  refine ⟨forList_pending _ _ _ ?_, forList_conf_cfg _ _ _ ?_, forList_power_vmain _ _ _ ?_, forList_time_tw _ _ _ ?_⟩ <;>
    (intro p t; dsimp only; split <;> simp)

/-! ### The tick, the failures of a sample and the edges of the system reference leave the supply as it is -/

@[simp] theorem frameTick_vmain (o : TickObs) (s : State) : (frameTick o s).power.vmain = s.power.vmain := by
  simp only [frameTick, background_frame, lateTick_frame, tickJudge_frame, latchFrame_frame, spillCheck_frame, sendLate_frame,
    telemetry_frame, sendCompletions_frame, pennantNotices_frame, drainAll_frame, closeTick_frame, tickOps_frame,
    tickHead_frame, clearNoted_frame, tickTune_frame, tickPorts_frame, tickOvens_frame, tickSafe_frame, countTick_frame,
    toTick_frame, decideOffers_frame]

/-- An action at an edge of the system reference, done now or kept for the tick. -/
@[simp] theorem atEdge_vmain (l : Late) (act : State → State) (s : State) (h : (act s).power.vmain = s.power.vmain) :
    (atEdge l act s).power.vmain = s.power.vmain := by
  simp [atEdge, h]

/-- Every failure that a command reports leaves the supply as it is. -/
theorem failureOf_vmain {g : Nat} {c : Instr} {p : Nat × (State → State)} (h : failureOf g c = some p) (s : State) :
    (p.2 s).power.vmain = s.power.vmain := by
  cases c with
  | stuckOutput q k | arraySaturation q k =>
    obtain ⟨_, hp⟩ := Option.ite_none_right_eq_some.mp h
    cases hp
    simp
  | _ => nomatch h

/-- So do the failures of one sample, which take in those that wait behind the first (R105). -/
@[simp] theorem failSample_vmain (g k : Nat) (f : State → State) (s : State) (hf : ∀ s, (f s).power.vmain = s.power.vmain) :
    (failSample g k f s).power.vmain = s.power.vmain := by
  simp only [failSample]
  rw [hf, forNat_power_vmain]
  intro i t
  split
  next p hp =>
    obtain ⟨c, _, hc⟩ := List.mem_filterMap.mp (List.mem_of_find?_eq_some hp)
    exact failureOf_vmain hc t
  next => rfl

/-! ### A request leaves the supply as it is -/

theorem Run.add_vmain (x : RecOut) (st : State) (keys : List (Role × BitVec 256)) (a : Run)
    (h : st.power.vmain = a.st.power.vmain) : (a.add x st keys).st.power.vmain = a.st.power.vmain := by
  unfold Run.add; split <;> simp [h]

theorem runRead_vmain (o : DictOp) (a : Run) : (runRead o a).st.power.vmain = a.st.power.vmain := by
  simp only [runRead]
  generalize List.range _ = l
  induction l generalizing a with
  | nil => rfl
  | cons i l ih => rw [List.foldl_cons, ih, Run.add_vmain _ _ _ _ rfl]

theorem runOp_vmain (r : Role) (a : Run) (o : DictOp) : (runOp r a o).st.power.vmain = a.st.power.vmain := by
  unfold runOp
  split
  · exact Run.add_vmain _ _ _ _ (by simp)
  · exact runRead_vmain o a

theorem foldl_runOp_vmain (r : Role) (l : List DictOp) (a : Run) :
    (l.foldl (runOp r) a).st.power.vmain = a.st.power.vmain := by
  induction l generalizing a with
  | nil => rfl
  | cons o l ih => rw [List.foldl_cons, ih, runOp_vmain]

@[simp] theorem runRequest_vmain (q : DictReq) (s : State) : (runRequest q s).st.power.vmain = s.power.vmain := by
  simp only [runRequest]
  split
  · simp [Run.undo]
  · exact foldl_runOp_vmain ..

@[simp] theorem dictExecute_vmain (s : State) : (dictExecute s).power.vmain = s.power.vmain := by
  simp only [dictExecute]
  split
  · rfl
  · simp [finishRequest]

/-! ### What a command does outside the states in which it acts -/

/-- A command's result where it acts only under the condition b: it goes on, the supply stays as it is, and where b fails
nothing changes at all (R8). -/
def State.ActsOnlyIf (s : State) (b : Bool) (r : Result) : Prop :=
  ∃ t, r = .next t ∧ t.power.vmain = s.power.vmain ∧ (b = false → t = s)

theorem actsOnlyIf_next {s t : State} {b : Bool} (hv : t.power.vmain = s.power.vmain) (h : b = false → t = s) :
    s.ActsOnlyIf b (.next t) := ⟨t, rfl, hv, h⟩

/-- An event whose guard p implies the condition. -/
theorem actsOnlyIf_done {s u : State} {p : Prop} [Decidable p] {b : Bool} (hp : p → b = true)
    (hv : u.power.vmain = s.power.vmain) : s.ActsOnlyIf b (if p then done u else .next s) := by
  split
  next h => exact actsOnlyIf_next (by simp [hv]) (by simp [hp h])
  next => exact actsOnlyIf_next rfl fun _ => rfl

/-- A write of the host. -/
theorem actsOnlyIf_served {s : State} {k : State → Ans} (hv : (k s).st.power.vmain = s.power.vmain) :
    s.ActsOnlyIf (live s) (served s k) :=
  actsOnlyIf_done (u := emit _ (k s).st) id hv

/-- Where no engine runs, no dictionary is served. -/
theorem not_live_of_not_clocked {s : State} (h : s.power.mode.clocked = false) : live s = false :=
  Bool.eq_false_iff.mpr fun hl => absurd (live_clocked hl) (Bool.eq_false_iff.mp h)

/-- What acts from WARM to SAFE alone acts only where the engines run. -/
theorem State.ActsOnlyIf.clocked {s : State} {r : Result} (h : s.ActsOnlyIf (live s) r) :
    s.ActsOnlyIf s.power.mode.clocked r := by
  obtain ⟨t, hr, hv, hl⟩ := h
  exact ⟨t, hr, hv, fun hc => hl (not_live_of_not_clocked hc)⟩

/-- The outputs may be high in READY and RUN, which serve the dictionary. -/
theorem outsMode_live {s : State} (h : outsMode s = true) : live s = true := by
  simp only [outsMode, Bool.or_eq_true, decide_eq_true_eq] at h
  rcases h with h | h <;> simp [live, h, Mode.live]

/-- HIBERNATE is entered out of READY and SAFE alone (Table 0.5). -/
theorem hibernateEntry_of_not_live {s : State} (h : live s = false) : hibernateEntry s = s := by
  cases hm : s.power.mode <;> simp_all [live, Mode.live, hibernateEntry]

/-- A reset command is served from WARM to SAFE alone (R345). -/
theorem resetEntry_of_not_live {s : State} (h : live s = false) : resetEntry s = s := by
  unfold resetEntry; split <;> simp [h]

theorem actsOnlyIf_hibernateEntry (s : State) : s.ActsOnlyIf (live s) (.next (hibernateEntry s)) :=
  actsOnlyIf_next (by simp) hibernateEntry_of_not_live

/-- Every command but those of actsDark acts from WARM to SAFE alone. -/
theorem exec_actsOnlyIf_live (c : Instr) (s : State) (h : c.actsDark = false) : s.ActsOnlyIf (live s) (exec c s) := by
  cases c with
  | vmainApplied | vmainLost | wakeAsserted | wakeWindowExpiry | resetNAsserted | resetNRelease | bootComplete | sourceStop
  | sourceRunning | refclk10Measure | sourceSwitchComplete | keepRegionWriteDone | jtagInstructionUpdate | evEdge =>
    nomatch h
  | calStart | auxLaunch | auxInject | auxCalStart | auxRingRead | evRingRead | registerWrite | stagedWrite | keyWrite
  | identitySerialMatch | timeEpochWrite | refbufEnableWrite | firCoefWrite | trgMissClear | firSeal | firLoadFactory
  | firXfadeStart | owcStart | streamStart | streamStop | trgArm | trgDisarm | timeStep | timeSet | rerouteConfirm
  | rerouteApplyAsym | hoist | shadowDiscard | moduleReset | hibernate | pennantDip | taSubmitStartStreams
  | taSubmitStopStreams | taSubmitTrgArm | taSubmitHoist | taSubmitOwc | taSubmitStepTime | taSubmitXfade | taCancel =>
    exact actsOnlyIf_served (by simp)
  | trgoutPulseStart => exact actsOnlyIf_done outsMode_live rfl
  | delayReqReceive => exact actsOnlyIf_done And.left (by simp)
  | entryIntoHibernate => exact actsOnlyIf_hibernateEntry s
  | resetCommandBootEntry => exact actsOnlyIf_next (by simp) resetEntry_of_not_live
  | calC0 =>
    simp only [exec, execCalC0]
    split
    · exact actsOnlyIf_hibernateEntry s
    · exact actsOnlyIf_done id (by simp)
  | frameTick o =>
    simp only [exec, execFrameTick]
    split
    next hl =>
      split
      · exact actsOnlyIf_hibernateEntry s
      · exact actsOnlyIf_next (by simp) (by simp [hl])
    next => exact actsOnlyIf_next rfl fun _ => rfl
  | _ => exact actsOnlyIf_done id (by simp)

/-- In OFF and HIBERNATE no BOOT is under way that could end (R451). -/
theorem bootComplete_of_not_clocked {s : State} (selfTest : Bool) (slot : BootRead) (h : s.power.mode.clocked = false) :
    bootComplete selfTest slot s = s := by
  cases hm : s.power.mode <;> simp_all [Mode.clocked, bootComplete]

/-- Every command but those of actsUnpowered acts from BOOT to SAFE alone. -/
theorem exec_actsOnlyIf_clocked (c : Instr) (s : State) (h : c.actsUnpowered = false) :
    s.ActsOnlyIf s.power.mode.clocked (exec c s) := by
  cases hd : c.actsDark with
  | false => exact (exec_actsOnlyIf_live c s hd).clocked
  | true =>
    cases c with
    | sourceStop | sourceRunning | refclk10Measure | sourceSwitchComplete | keepRegionWriteDone | jtagInstructionUpdate =>
      exact actsOnlyIf_done id (by simp)
    | bootComplete selfTest slot =>
      refine actsOnlyIf_next (by simp) fun hc => ?_
      rw [bootComplete_of_not_clocked selfTest slot hc, settle_of_not_live s (not_live_of_not_clocked hc)]
    | vmainApplied | vmainLost | wakeAsserted | wakeWindowExpiry | resetNAsserted | resetNRelease | evEdge => nomatch h
    | _ => nomatch hd

/-- Settles O8: a command outside actsDark acts from WARM to SAFE alone, one outside actsUnpowered from BOOT to SAFE alone. -/
theorem darkModulesIgnore : Obligations.DarkModulesIgnore := by
  intro c s
  refine ⟨fun hl hc => ?_, fun hm hc => ?_⟩
  · obtain ⟨t, ht, _, hsame⟩ := exec_actsOnlyIf_live c s hc
    rw [ht, hsame hl]
  · obtain ⟨t, ht, _, hsame⟩ := exec_actsOnlyIf_clocked c s hc
    rw [ht, hsame hm]

/-! ### OFF without VMAIN -/

/-- Where the supply stays as it is, the invariant is to be shown for a module without VMAIN alone: OFF, with no WAKE judged and
no BOOT held. -/
theorem powerInv_of_vmain_eq {s t : State} (hs : s.PowerInv) (hv : t.power.vmain = s.power.vmain)
    (h : s.power.mode = .off → s.power.wakeWindow = false → s.power.bootHeld = false → s.power.vmain = false →
      t.power.mode = .off ∧ t.power.wakeWindow = false ∧ t.power.bootHeld = false) : t.PowerInv := by
  intro ht
  have hv' : s.power.vmain = false := hv ▸ ht
  obtain ⟨hm, hw, hb⟩ := hs hv'
  exact h hm hw hb hv'

/-- Where the whole power part stays, so does the invariant. -/
theorem powerInv_of_power_eq {s t : State} (hs : s.PowerInv) (hp : t.power = s.power) : t.PowerInv := by
  unfold State.PowerInv; rw [hp]; exact hs

theorem vmainApplied_vmain (s : State) : (vmainApplied s).power.vmain = true := by
  unfold vmainApplied; split <;> simp_all

theorem exec_evEdge_power {x : Fin 8} {bin : Fin 32} {rising : Bool} {s t : State} (h : exec (.evEdge x bin rising) s = .next t) :
    t.power = s.power := by
  simp only [exec, execEvEdge, done_eq] at h
  split at h <;> cases h <;> simp

/-- Every command keeps the invariant: those outside actsUnpowered find a module without VMAIN in OFF and change nothing, and
those of actsUnpowered are the supply, the contacts and the level at an event input, one by one. -/
theorem exec_keeps_powerInv {c : Instr} {s t : State} (hs : s.PowerInv) (h : exec c s = .next t) : t.PowerInv := by
  cases hc : c.actsUnpowered with
  | false =>
    obtain ⟨u, hu, hv, hsame⟩ := exec_actsOnlyIf_clocked c s hc
    cases hu.symm.trans h
    refine powerInv_of_vmain_eq hs hv fun hm hw hb _ => ?_
    rw [hsame (by rw [hm]; rfl)]
    exact ⟨hm, hw, hb⟩
  | true =>
    cases c with
    | vmainApplied => cases h; exact fun ht => absurd ((vmainApplied_vmain s).symm.trans ht) nofun
    | vmainLost => cases h; exact fun _ => ⟨rfl, rfl, rfl⟩
    | wakeAsserted level =>
      cases h; exact powerInv_of_vmain_eq hs (by simp) fun hm hw hb hv => by simp [wakeChange, hm, hw, hb, hv]
    | wakeWindowExpiry => cases h; exact powerInv_of_vmain_eq hs (by simp) fun hm hw hb _ => by simp [wakeExpiry, hm, hw, hb]
    | resetNAsserted => cases h; exact powerInv_of_vmain_eq hs (by simp) fun hm hw hb _ => by simp [resetFall, hm, hw, hb]
    | resetNRelease =>
      cases h; exact powerInv_of_vmain_eq hs (by simp) fun hm hw hb _ => by
        simp only [resetRise]; split <;> simp [hm, hw, hb]
    | evEdge => exact powerInv_of_power_eq hs (exec_evEdge_power h)
    | _ => nomatch hc

/-- Settles O7: an idle cycle leaves the power part as it is, and every command keeps the invariant. -/
theorem unpoweredStaysOff : Obligations.UnpoweredStaysOff := by
  intro s t hs h
  unfold step at h
  split at h
  next =>
    cases h
    exact powerInv_of_power_eq hs (by simp)
  next c rest _ => exact exec_keeps_powerInv (s := { s with pending := rest }) hs h

/-- Settles O5: each part read off State.reset; the empty configuration is canonical. -/
theorem resetState : Obligations.ResetState :=
  ⟨rfl, rfl, rfl, rfl, rfl, rfl, rfl, rfl, rfl, fun _ => ⟨rfl, rfl, rfl⟩⟩

end Sys2Proof.Machine


/-! SUPPORT AND PROOFS. Time word and frame tick: the engine cycle of an idle step (R15) and the ticks around the wrap of the
time word (R24). -/

namespace Sys2Proof.Machine

/-! ### What the decision of offered events changes -/

/-- From s to t the health has changed in its pennants alone. -/
def PennantsOnly (s t : State) : Prop := t.health = { s.health with pennants := t.health.pennants }

theorem PennantsOnly.of_eq {s t : State} (h : t.health = s.health) : PennantsOnly s t := by rw [PennantsOnly, h]

theorem PennantsOnly.trans {a b c : State} (h : PennantsOnly a b) (k : PennantsOnly b c) : PennantsOnly a c := by
  unfold PennantsOnly at *; rw [k, h]

/-- Pennants are among what the settling of the flags may change. -/
theorem PennantsOnly.settledHealth {s t : State} (h : PennantsOnly s t) : t.health = s.settledHealth t := by
  unfold PennantsOnly at h
  unfold State.settledHealth
  rw [h]

/-- What the settling of the flags keeps of the health does not depend on the pennants. -/
theorem PennantsOnly.settledHealth_congr {s t : State} (h : PennantsOnly s t) (u : State) :
    t.settledHealth u = s.settledHealth u := by
  unfold PennantsOnly at h
  unfold State.settledHealth
  rw [h]

theorem settled_health {s t : State} (h : Settled s t) : t.health = s.settledHealth t := congrArg State.health h

theorem settled_store {s t : State} (h : Settled s t) : t.store = s.settledStore t := congrArg State.store h

theorem pennantsOnly_trgMiss (u : Nat) (ev : TrgEvent) (reason : Nat) (s : State) : PennantsOnly s (trgMiss u ev reason s) := rfl

theorem pennantsOnly_trgOffer (u : Nat) (ev : TrgEvent) (s : State) : PennantsOnly s (trgOffer u ev s) := by
  unfold trgOffer
  dsimp only
  split
  · split
    · exact .of_eq (by simp)
    · exact pennantsOnly_trgMiss ..
  · exact .of_eq rfl

theorem pennantsOnly_forList {α : Type} (l : List α) (f : α → State → State) (s : State)
    (h : ∀ a s, PennantsOnly s (f a s)) : PennantsOnly s (forList l f s) := by
  unfold forList
  induction l generalizing s with
  | nil => exact .of_eq rfl
  | cons a l ih => exact (h a s).trans (ih (f a s))

theorem pennantsOnly_forNat (n : Nat) (f : Nat → State → State) (s : State) (h : ∀ k s, PennantsOnly s (f k s)) :
    PennantsOnly s (forNat n f s) :=
  pennantsOnly_forList (List.range n) f s h

theorem pennantsOnly_decideOffers (s : State) : PennantsOnly s (decideOffers s) :=
  pennantsOnly_forNat 8 _ s fun u s =>
    (PennantsOnly.of_eq rfl).trans
      (pennantsOnly_forList _ _ (onUnit u (fun x => { x with offers := [] }) s) (pennantsOnly_trgOffer u))

/-- A step of a loop over the numbers below n + 1: the last number comes last. -/
theorem forNat_succ (n : Nat) (f : Nat → State → State) (s : State) : forNat (n + 1) f s = f n (forNat n f s) := by
  simp [forNat, List.range_succ]

/-- A reading of the elements that f keeps is kept by a change of one element. -/
theorem updAt_map_of_keeps {α β : Type} (g : α → β) (f : α → α) (k : Nat) (l : List α) (h : ∀ x, g (f x) = g x) :
    (updAt f k l).map g = l.map g := by
  induction l generalizing k with
  | nil => cases k <;> rfl
  | cons a l ih => cases k <;> simp [updAt, h, ih]

/-- The events that the units have still to decide, by unit. -/
def offersOf (s : State) : List (List TrgEvent) := s.units.map (·.offers)

theorem unitAt_offers (s : State) (u : Nat) : (unitAt s u).offers = (offersOf s).getD u [] := by
  unfold unitAt offersOf
  rw [List.getD_eq_getElem?_getD, List.getD_eq_getElem?_getD, List.getElem?_map]
  cases s.units[u]? <;> rfl

theorem offersOf_onUnit (u : Nat) (f : Unit → Unit) (s : State) (h : ∀ x, (f x).offers = x.offers) :
    offersOf (onUnit u f s) = offersOf s := updAt_map_of_keeps _ f u s.units h

theorem offersOf_of_units {s t : State} (h : t.units = s.units) : offersOf t = offersOf s := by rw [offersOf, h, offersOf]

theorem truncateOpen_offers (x : Unit) : x.truncateOpen.offers = x.offers := by unfold Unit.truncateOpen; split <;> rfl

theorem checkWait_offers (room size : Nat) (x : Unit) : (x.checkWait room size).offers = x.offers := by
  unfold Unit.checkWait; split
  · exact truncateOpen_offers x
  · rfl

theorem endWaiting_offers (x : Unit) : x.endWaiting.offers = x.offers := by
  rw [Unit.endWaiting, apply_ite Unit.offers, truncateOpen_offers, ite_self]

theorem offersOf_disarmUnit (u : Nat) (s : State) : offersOf (disarmUnit u s) = offersOf s :=
  offersOf_onUnit u _ s fun x => by
    dsimp only; split
    · exact truncateOpen_offers x
    · rfl

theorem offersOf_trgAccept (u : Nat) (ev : TrgEvent) (s : State) : offersOf (trgAccept u ev s) = offersOf s := by
  unfold trgAccept
  extract_lets cap trig p s1 s2
  have h1 : offersOf s1 = offersOf s := offersOf_onUnit u _ s fun _ => rfl
  have h2 : s2.units = s1.units := by simp [s2]
  split
  · rw [offersOf_of_units h2, h1]
  · rw [offersOf_of_units (by simp : (trgSend _ ev s2).units = s2.units), offersOf_of_units h2, h1]

theorem offersOf_trgClose (u : Nat) (s : State) : offersOf (trgClose u s) = offersOf s := by
  unfold trgClose
  extract_lets x full s1
  have h1 : offersOf s1 = offersOf s := offersOf_onUnit u _ s fun _ => rfl
  split
  · split
    · rw [offersOf_disarmUnit, h1]
    · exact h1
  · rfl

/-- A unit that decides an event leaves what is still to be decided. -/
theorem offersOf_trgOffer (u : Nat) (ev : TrgEvent) (s : State) : offersOf (trgOffer u ev s) = offersOf s := by
  unfold trgOffer
  dsimp only
  split
  · split
    · rw [offersOf_onUnit u _ _ fun x => (endWaiting_offers _).trans (checkWait_offers _ _ x), offersOf_trgClose,
        offersOf_trgAccept]
    · exact offersOf_onUnit u _ s fun _ => rfl
  · rfl

theorem offersOf_forList_trgOffer (u : Nat) (l : List TrgEvent) (s : State) :
    offersOf (forList l (trgOffer u) s) = offersOf s := by
  unfold forList
  induction l generalizing s with
  | nil => rfl
  | cons ev l ih => rw [List.foldl_cons, ih, offersOf_trgOffer]

/-- The units below n have nothing left to decide once they have decided in turn. -/
theorem forNat_decide_offers (n : Nat) (s : State) (u : Nat) (h : u < n) :
    (unitAt (forNat n (fun u s => forList (unitAt s u).offers (trgOffer u) (onUnit u (fun x => { x with offers := [] }) s)) s)
      u).offers = [] := by
  induction n with
  | zero => omega
  | succ n ih =>
    rw [forNat_succ, unitAt_offers, offersOf_forList_trgOffer, ← unitAt_offers]
    generalize forNat n _ s = t at ih ⊢
    by_cases hu : u = n
    · subst hu
      by_cases hl : u < t.units.length
      · rw [unitAt_onUnit_same u _ t hl]
      · rw [unitAt, List.getD_eq_default _ _ (by simpa using hl)]; rfl
    · rw [unitAt, onUnit_units, updAt_getD_other _ _ _ _ _ hu]
      exact ih (by omega)

theorem decideOffers_offers (s : State) {u : Nat} (h : u < 8) : (unitAt (decideOffers s) u).offers = [] :=
  forNat_decide_offers 8 s u h

/-! ### The engine cycle of an idle step -/

theorem decideOffers_settled_only (s : State) :
    settle (decideOffers s) = { s with
      units := (settle (decideOffers s)).units, outs := (settle (decideOffers s)).outs, link := (settle (decideOffers s)).link,
      ev := (settle (decideOffers s)).ev, fv := (settle (decideOffers s)).fv,
      health := s.settledHealth (settle (decideOffers s)), store := s.settledStore (settle (decideOffers s)) } := by
  have h := settle_frame (decideOffers s)
  have k := decideOffers_frame s
  have hh : (settle (decideOffers s)).health = s.settledHealth (settle (decideOffers s)) := by
    rw [settled_health (settle_settled _)]
    exact (pennantsOnly_decideOffers s).settledHealth_congr _
  have hs : (settle (decideOffers s)).store = s.settledStore (settle (decideOffers s)) := by
    rw [settled_store (settle_settled _)]
    simp [State.settledStore]
  rw [← hh, ← hs]
  generalize settle (decideOffers s) = t at h ⊢
  generalize decideOffers s = d at h k
  obtain ⟨_, _⟩ := s
  cases t
  simp_all

/-- The end of a cycle changes what the units' decisions change, and settles the flags. -/
theorem cycleEnd_only (s : State) :
    cycleEnd s = { s with
      units := (cycleEnd s).units, outs := (cycleEnd s).outs, link := (cycleEnd s).link, ev := (cycleEnd s).ev,
      fv := (cycleEnd s).fv, health := s.settledHealth (cycleEnd s), store := s.settledStore (cycleEnd s) } := by
  unfold cycleEnd
  split
  · rfl
  · exact decideOffers_settled_only s

theorem cycleEnd_of_no_offers {s : State} (h : ∀ x ∈ s.units, x.offers = []) : cycleEnd s = s := by
  have hall : s.units.all (fun x => x.offers.isEmpty) = true := by simpa using h
  rw [cycleEnd, hall, Bool.or_true, if_pos rfl]

theorem cycleEnd_of_not_live {s : State} (h : live s = false) : cycleEnd s = s := by
  simp [cycleEnd, h]

/-- After the end of a cycle the units have nothing left to decide. -/
theorem cycleEnd_offers {s : State} (hl : live s = true) {u : Nat} (hu : u < 8) : (unitAt (cycleEnd s) u).offers = [] := by
  unfold cycleEnd
  split
  next h =>
    have hall : ∀ x ∈ s.units, x.offers = [] := by simpa [hl] using h
    unfold unitAt
    rw [List.getD_eq_getElem?_getD]
    cases hx : s.units[u]? with
    | none => rfl
    | some x => exact hall x (List.mem_of_getElem? hx)
  next =>
    have hsame : (settle (decideOffers s)).units = (decideOffers s).units := by simp
    rw [unitAt, hsame]
    exact decideOffers_offers s hu

/-- What the writes of a cycle into the stream buffer change (R299, R303). -/
theorem writeCycles_only (n : Nat) (s : State) :
    writeCycles n s = { s with
      buf := { s.buf with
        sbuf := (writeCycles n s).buf.sbuf, write := (writeCycles n s).buf.write, depth := (writeCycles n s).buf.depth,
        peak := (writeCycles n s).buf.peak, overrun := (writeCycles n s).buf.overrun,
        overrunCycles := (writeCycles n s).buf.overrunCycles },
      health := s.settledHealth (writeCycles n s) } := by
  unfold writeCycles ignoreWrites landLines
  dsimp only
  (repeat' split) <;> rfl

theorem settledHealth_congr {s t : State} (h : t.health = s.settledHealth t) (u : State) :
    t.settledHealth u = s.settledHealth u := by
  unfold State.settledHealth at h ⊢
  rw [h]

theorem cycleEnd_health (s : State) : (cycleEnd s).health = s.settledHealth (cycleEnd s) := congrArg State.health (cycleEnd_only s)

theorem cycleEnd_store (s : State) : (cycleEnd s).store = s.settledStore (cycleEnd s) := congrArg State.store (cycleEnd_only s)

theorem writeCycles_health (n : Nat) (s : State) : (writeCycles n s).health = s.settledHealth (writeCycles n s) :=
  congrArg State.health (writeCycles_only n s)

/-- A cycle that holds the next tick waits for FRAME_TICK. -/
theorem idleCycle_of_tick_inside {s : State} (hl : live s = true) (h : toTickUnits s < s.time.cycInc) : idleCycle s = s := by
  unfold live at hl
  cases hm : s.power.mode <;> simp_all [idleCycle, Mode.live]

/-- Any other cycle of a live module ends with its increment. -/
theorem idleCycle_of_whole {s : State} (hl : live s = true) (h : s.time.cycInc ≤ toTickUnits s) :
    idleCycle s = { writeCycles 1 s with
      time := (s.time.toCycle 1 s.time.cycInc).at_ (s.time.toCycle 1 s.time.cycInc).cycTw
        (s.time.toCycle 1 s.time.cycInc).cycFrac (s.time.toCycle 1 s.time.cycInc).cyc } := by
  unfold live at hl
  cases hm : s.power.mode <;> simp_all [idleCycle, Mode.live, Nat.not_lt.mpr h]

/-- What one engine cycle changes of a live module, after what has ended with the cycle before it. -/
theorem idleCycle_cycleEnd_only {s : State} (hl : live s = true) (h : s.time.cycInc ≤ toTickUnits s) :
    let t := idleCycle (cycleEnd s)
    t = { s with
      time := { s.time with tw := t.time.tw, frac := t.time.frac, pt := t.time.pt, cyc := t.time.cyc, cycTw := t.time.cycTw,
                            cycFrac := t.time.cycFrac, cycInc := t.time.cycInc, era := t.time.era }
      buf := { s.buf with sbuf := t.buf.sbuf, write := t.buf.write, depth := t.buf.depth, peak := t.buf.peak,
                          overrun := t.buf.overrun, overrunCycles := t.buf.overrunCycles }
      units := t.units, outs := t.outs, link := t.link, ev := t.ev, fv := t.fv
      health := s.settledHealth t, store := s.settledStore t } := by
  intro t
  have hdef : t = idleCycle (cycleEnd s) := rfl
  clear_value t
  have hc := cycleEnd_frame s
  have ht := hdef.trans <| idleCycle_of_whole (s := cycleEnd s) (by simpa [live] using hl) (by simpa [toTickUnits] using h)
  have hw := writeCycles_only 1 (cycleEnd s)
  have hi := idleCycle_frame (cycleEnd s)
  rw [← hdef] at hi
  have htime : t.time = { s.time with
      tw := t.time.tw, frac := t.time.frac, pt := t.time.pt, cyc := t.time.cyc, cycTw := t.time.cycTw, cycFrac := t.time.cycFrac,
      cycInc := t.time.cycInc, era := t.time.era } := by
    rw [ht]; simp [TimeEng.toCycle, TimeEng.at_]
  have hbuf : t.buf = { s.buf with
      sbuf := t.buf.sbuf, write := t.buf.write, depth := t.buf.depth, peak := t.buf.peak, overrun := t.buf.overrun,
      overrunCycles := t.buf.overrunCycles } := by
    have hb := congrArg State.buf hw
    rw [ht]
    simpa using hb
  have hh : t.health = s.settledHealth t := by
    rw [ht]
    exact (writeCycles_health 1 _).trans (settledHealth_congr (cycleEnd_health s) _)
  have hs : t.store = s.settledStore t := by
    rw [ht]
    simpa [State.settledStore] using cycleEnd_store s
  rw [← htime, ← hbuf, ← hh, ← hs]
  clear hdef ht hw htime hbuf hh hs
  obtain ⟨_, _⟩ := s
  cases t
  simp_all

theorem idleCycle_of_not_clocked {s : State} (h : s.power.mode.clocked = false) : idleCycle s = s := by
  cases hm : s.power.mode <;> simp_all [Mode.clocked, idleCycle]

theorem step_of_no_command {s : State} (h : s.pending = []) : step s = .next (idleCycle (cycleEnd s)) := by
  unfold step; rw [h]

/-- Settles O2: what ends the cycle is decided first, then the cycle passes where no tick lies in it. -/
theorem stepIdles : Obligations.StepIdles := by
  intro s hp
  rw [step_of_no_command hp]
  refine ⟨fun hm => ?_, fun hm => ?_, fun hl ht ho => ?_, fun hl ht => ?_, fun hl ht => ?_⟩
  · rw [cycleEnd_of_not_live (not_live_of_not_clocked hm), idleCycle_of_not_clocked hm]
  · rw [cycleEnd_of_not_live (by rw [live, hm]; rfl), idleCycle, hm]
  · rw [cycleEnd_of_no_offers ho, idleCycle_of_tick_inside hl ht]
  · refine ⟨cycleEnd s, ?_, fun u hu => cycleEnd_offers hl hu, cycleEnd_only s⟩
    rw [idleCycle_of_tick_inside (by simpa [live] using hl) (by simpa [toTickUnits] using ht)]
  · have hrun := idleCycle_of_whole (s := cycleEnd s) (by simpa [live] using hl) (by simpa [toTickUnits] using ht)
    refine ⟨_, congrArg _ hrun, ?_, rfl, ?_, ?_, rfl, rfl, ?_, fun u hu => ?_, fun ho => ?_,
      hrun ▸ idleCycle_cycleEnd_only hl ht⟩
    · simp [TimeEng.toCycle, TimeEng.at_]
    · simp [TimeEng.toCycle, TimeEng.at_]
    · simp [TimeEng.toCycle, TimeEng.at_]
    · simp [TimeEng.toCycle, TimeEng.at_]
    · simpa [unitAt] using cycleEnd_offers hl hu
    · simp [cycleEnd_of_no_offers ho]

/-! ### The ticks around the wrap of the time word -/

/-- The five frame periods of Table 1.1. -/
theorem tf_cases (s : State) :
    tf s = 12800000 ∨ tf s = 25600000 ∨ tf s = 64000000 ∨ tf s = 128000000 ∨ tf s = 256000000 := by
  unfold tf tfOfCode; split <;> simp

/-- The frame that begins at a regular tick ends at the next regular tick (R20). -/
theorem frameEnd_of_regular {tfu : Nat} {x : TW} (h : x.toNat % tfu = 0) : frameEnd tfu x = regularNext tfu x := if_pos h

/-- R24: the frame that reaches over the wrap ends at 0, or at TF, by what is left of the last period. -/
theorem regularNext_over_wrap {tfu : Nat} {x : TW} (h : 2 ^ 64 ≤ x.toNat + tfu) :
    regularNext tfu x = if tfu ≤ 2 * (2 ^ 64 % tfu) then 0 else BitVec.ofNat 64 tfu := if_neg (by omega)

theorem openFrame_nextTick (s : State) : (openFrame s).time.nextTick = frameEnd (tf s) s.time.tw := rfl

/-- Settles O18: TF divides the last tick before the wrap, and the frame from there reaches over the wrap. -/
theorem framesAtTheWrap : Obligations.FramesAtTheWrap := by
  intro s tfu r last
  obtain ⟨hpos, hle, hr⟩ : 0 < tfu ∧ tfu < 2 ^ 32 ∧ 0 < r := by
    rcases tf_cases s with h | h | h | h | h <;> simp [r, tfu, h]
  have hrt : r < tfu := Nat.mod_lt _ hpos
  have hlast : last.toNat = 2 ^ 64 - r := by simp only [last, BitVec.toNat_ofNat]; omega
  have hdvd : last.toNat % tfu = 0 := by
    rw [hlast]; exact Nat.mod_eq_zero_of_dvd (Nat.dvd_sub_mod _)
  have hend : frameEnd tfu last = if tfu ≤ 2 * r then 0 else BitVec.ofNat 64 tfu :=
    (frameEnd_of_regular hdvd).trans (regularNext_over_wrap (by omega))
  refine ⟨hdvd, by omega, by omega, fun hc => ?_, fun hc => ?_⟩
  · rw [if_pos hc] at hend
    refine ⟨hend, ?_, by simp [frameNumber], fun hs => by rw [openFrame_nextTick, hs, hend]⟩
    simp only [frameLen, BitVec.toNat_sub, hlast]
    simp; omega
  · rw [if_neg (by omega)] at hend
    refine ⟨hend, ?_, ?_, fun hs => by rw [openFrame_nextTick, hs, hend]⟩
    · simp only [frameLen, BitVec.toNat_sub, hlast, BitVec.toNat_ofNat]; omega
    · rw [frameNumber, BitVec.toNat_ofNat, Nat.mod_eq_of_lt (by omega : tfu < 2 ^ 64), Nat.div_self hpos]
      rfl

end Sys2Proof.Machine

/-! SUPPORT AND PROOFS. Writes with a rule of their own: TIME_EPOCH, the miss counts of a unit and PENNANT_DIP (R30, R202, R406). -/

namespace Sys2Proof.Machine

/-! ### Writes that a test refuses -/

theorem servedModes_contains {s : State} (hl : live s = true) : servedModes.contains s.power.mode = true := by
  unfold live at hl
  cases hm : s.power.mode <;> simp_all [servedModes, Mode.live]

/-- A write of the host that is refused answers its code and changes nothing but the settled flags. -/
theorem served_refuse {s : State} {k : State → Ans} {code : Nat} (hl : live s = true) (hk : k s = refuse code s) :
    ∃ t, served s k = .next t ∧ s.AnsweredOnly t code :=
  ex_served s k _ hl hk rfl rfl fun _ ht => ⟨congrArg State.out ht, by rw [ht]; rfl⟩

theorem gate_refuse_role {r need : Role} (valOk : Bool) (modes : List Mode) (s : State) (k : State → Ans)
    (h : roleOk r need = false) : gate r need valOk modes s k = refuse 0x0105 s := by
  simp [gate, h]

theorem gate_refuse_value {r need : Role} (modes : List Mode) (s : State) (k : State → Ans) (h : roleOk r need = true) :
    gate r need false modes s k = refuse 0x0201 s := by
  simp [gate, h]

theorem gate_refuse_mode {r need : Role} {modes : List Mode} {s : State} (k : State → Ans) (h : roleOk r need = true)
    (hm : modes.contains s.power.mode = false) : gate r need true modes s k = refuse 0x0301 s := by
  simp only [gate, h, hm]; rfl

/-! ### TIME_EPOCH (R30) -/

/-- The epoch given, with the event records that stand fixed before later ones. -/
def epochTaken (v : BitVec 16) (s : State) : State := { s with time.epoch := v, ev.fixed := s.ev.ring.recs.length }

theorem epochWrite_ready {s : State} (v : BitVec 16) (hm : s.power.mode = .ready) :
    epochWrite .custodian v s = accept (keepSave (epochTaken v s)) :=
  gate_pass _ _ _ _ _ _ rfl rfl (by rw [hm]; rfl)

theorem epochWrite_other_mode {s : State} (v : BitVec 16) (hm : s.power.mode ≠ .ready) :
    epochWrite .custodian v s = refuse 0x0301 s :=
  gate_refuse_mode _ rfl (by simpa using hm)

theorem epochWrite_other_role {r : Role} (s : State) (v : BitVec 16) (hr : r ≠ .custodian) :
    epochWrite r v s = refuse 0x0105 s :=
  gate_refuse_role _ _ _ _ (by cases r <;> first | rfl | exact absurd rfl hr)

/-! ### The miss counts of a unit (R202) -/

theorem missWrite_zero {r : Role} {s : State} (u : Nat) (hl : live s = true) (hr : roleOk r .operator = true) :
    missWrite r u 0 s = accept (missClear u s) :=
  gate_pass _ _ _ _ _ _ hr rfl (servedModes_contains hl)

theorem missWrite_other {r : Role} (s : State) (u : Nat) {v : Nat} (hv : v ≠ 0) (hr : roleOk r .operator = true) :
    missWrite r u v s = refuse 0x0201 s := by
  rw [missWrite, decide_eq_false hv]
  exact gate_refuse_value _ _ _ hr

/-! ### PENNANT_DIP (R406) -/

theorem dipWrite_out_of_range {r : Role} (s : State) {n : BitVec 8} (hn : 63 < n.toNat) (hr : roleOk r .operator = true) :
    dipWrite r n s = refuse 0x0201 s := by
  rw [dipWrite, decide_eq_false (by omega)]
  exact gate_refuse_value _ _ _ hr

/-- The pennant lowered, with its count cleared. -/
def dipped (n : Nat) (s : State) : State :=
  { s with health.pennants := updAt (fun p => { p with raised := false, count := 0 }) n s.health.pennants }

theorem dipWrite_in_range {r : Role} {s : State} {n : BitVec 8} (hl : live s = true) (hn : n.toNat ≤ 63)
    (hr : roleOk r .operator = true) :
    dipWrite r n s =
      if pnLevel s n.toNat || decide ((s.health.pennants.getD n.toNat Pennant.init).cycle = some s.time.cyc) then refuse 0x0301 s
      else accept (dipped n.toNat s) :=
  gate_pass _ _ _ _ _ _ hr (decide_eq_true hn) (servedModes_contains hl)

/-- The level of a pennant does not depend on the pennants. -/
theorem pnLevel_pennants (s : State) (l : List Pennant) (n : Nat) :
    pnLevel { s with health.pennants := l } n = pnLevel s n := by
  unfold pnLevel; split <;> rfl

theorem pnLevel_levelStep (k : Nat) (s : State) (n : Nat) : pnLevel (levelStep k s) n = pnLevel s n := by
  unfold levelStep whenever
  dsimp only
  rw [pnLevel_pennants]
  split
  · exact pnLevel_pennants ..
  · rfl

/-- Element j after a change of element k. -/
theorem updAt_getElem? {α : Type} (f : α → α) (k : Nat) (l : List α) (j : Nat) :
    (updAt f k l)[j]? = if j = k then l[j]?.map f else l[j]? := by
  induction l generalizing k j with
  | nil => cases k <;> simp [updAt]
  | cons a l ih => cases k <;> cases j <;> simp [updAt, ih]

/-- A step of another pennant leaves this one as it is. -/
theorem levelStep_pennant_other {k j : Nat} (s : State) (h : j ≠ k) :
    (levelStep k s).health.pennants[j]? = s.health.pennants[j]? := by
  unfold levelStep whenever
  dsimp only
  rw [updAt_getElem?, if_neg h]
  split
  · rw [risePn, updAt_getElem?, if_neg h]
  · rfl

/-- A pennant whose level is low only takes its level. -/
theorem levelStep_pennant_low {k : Nat} {s : State} (h : pnLevel s k = false) :
    (levelStep k s).health.pennants[k]? = s.health.pennants[k]?.map fun p => { p with level := false } := by
  simp [levelStep, h, whenever, updAt_getElem?]

/-- Pennant n is lowered, and its level is low: no settling of the flags raises it. -/
def Lowered (n : Nat) (s : State) : Prop :=
  pnLevel s n = false ∧ ∀ q, s.health.pennants[n]? = some q → q.raised = false ∧ q.count = 0

theorem lowered_levelStep {n : Nat} (k : Nat) {s : State} (h : Lowered n s) : Lowered n (levelStep k s) := by
  obtain ⟨hl, hq⟩ := h
  refine ⟨(pnLevel_levelStep k s n).trans hl, fun q hk => ?_⟩
  by_cases hn : n = k
  · subst hn
    rw [levelStep_pennant_low hl, Option.map_eq_some_iff] at hk
    obtain ⟨p, hp, rfl⟩ := hk
    exact hq p hp
  · rw [levelStep_pennant_other s hn] at hk
    exact hq q hk

theorem lowered_forNat_levelStep {n : Nat} (m : Nat) {s : State} (h : Lowered n s) : Lowered n (forNat m levelStep s) := by
  induction m with
  | zero => exact h
  | succ m ih => rw [forNat_succ]; exact lowered_levelStep m ih

theorem pnLevel_keepSave (s : State) (n : Nat) : pnLevel (keepSave s) n = pnLevel s n := by
  unfold keepSave
  split <;> (unfold pnLevel; split <;> rfl)

/-- Half-mast is the one level that its own step may raise. -/
theorem pnLevel_halfMastStep (s : State) (n : Nat) :
    pnLevel (halfMastStep s) n = (pnLevel s n || (decide (n = 0) && halfMastNow s)) := by
  unfold halfMastStep
  extract_lets first was spare health t
  have ht : pnLevel t n = (pnLevel s n || (decide (n = 0) && halfMastNow s)) := by
    unfold pnLevel
    split <;> simp_all [t, health] <;> rfl
  split
  · exact ht
  · rw [pnLevel_keepSave, ht]

theorem halfMastStep_pennants (s : State) : (halfMastStep s).health.pennants = s.health.pennants := by
  unfold halfMastStep keepSave
  dsimp only
  (repeat' split) <;> rfl

/-- A lowered pennant stays lowered while no exhaustion begins half-mast. -/
theorem lowered_settle {n : Nat} {s : State} (h : Lowered n s) (h0 : n = 0 → halfMastNow s = false) :
    Lowered n (settle s) := by
  unfold settle
  split
  · refine lowered_forNat_levelStep 18 ⟨?_, fun q hq => h.2 q (by rwa [halfMastStep_pennants] at hq)⟩
    rw [pnLevel_halfMastStep, h.1]
    by_cases hn : n = 0
    · simp [h0 hn]
    · simp [hn]
  · exact h

theorem lowered_dipped {n : Nat} {s : State} (h : pnLevel s n = false) : Lowered n (dipped n s) := by
  refine ⟨(pnLevel_pennants s _ n).trans h, fun q hq => ?_⟩
  rw [dipped, updAt_getElem?, if_pos rfl, Option.map_eq_some_iff] at hq
  obtain ⟨p, _, rfl⟩ := hq
  exact ⟨rfl, rfl⟩

theorem pnLevel_emit (o : Output) (s : State) (n : Nat) : pnLevel (emit o s) n = pnLevel s n := by
  unfold pnLevel; split <;> rfl

/-- Settles O56: each write by its role, value and state tests; a pennant that is lowered stays so as the flags settle. -/
theorem singleWrites : Obligations.SingleWrites := by
  intro s r hl
  refine ⟨fun v => ⟨fun hr => ?_, fun hm => ?_, fun hm => ?_⟩, fun u hr => ⟨?_, fun v hv => ?_⟩,
    fun n hr => ⟨fun hn => ?_, fun hn hs => ?_, fun hn hp hc h0 => ?_⟩⟩
  · exact served_refuse hl (epochWrite_other_role s v hr)
  · simp only [exec, execTimeEpochWrite, served_live s _ hl, epochWrite_ready v hm, accept]
    exact ex_answered_settled (epochTaken v s) _ 0 [] (settled_keepSave _) fun t ht => ⟨congrArg State.out ht, by rw [ht]; rfl⟩
  · exact served_refuse hl (epochWrite_other_mode v hm)
  · exact ex_served s _ _ hl (missWrite_zero u.val hl hr) rfl rfl fun t ht =>
      ⟨congrArg State.out ht, congrArg State.units ht, by rw [ht]; rfl⟩
  · refine served_refuse hl (missWrite_other s u.val (fun h0 => hv ?_) hr)
    exact BitVec.eq_of_toNat_eq h0
  · exact served_refuse hl (dipWrite_out_of_range s hn hr)
  · refine served_refuse hl ((dipWrite_in_range hl hn hr).trans (if_pos ?_))
    simpa using hs
  · simp only [exec, execPennantDip, served_live s _ hl, dipWrite_in_range hl hn hr]
    rw [if_neg (by rw [hp, decide_eq_false hc]; simp)]
    have hlow : Lowered n.toNat (settle (emit (.answer 0 []) (dipped n.toNat s))) := by
      obtain ⟨h1, h2⟩ := lowered_dipped hp
      exact lowered_settle ⟨(pnLevel_emit ..).trans h1, h2⟩ fun h => h0 (BitVec.eq_of_toNat_eq h)
    obtain ⟨t, ht, hout, hsame⟩ := ex_answered_settled (P := fun t => t.out = .answer 0 [] :: s.out ∧
        t = { s with out := t.out, health := s.settledHealth t, store := s.settledStore t })
      s (dipped n.toNat s) 0 [] (settled_pennants _ s) fun t ht => ⟨congrArg State.out ht, by rw [ht]; rfl⟩
    cases ht
    exact ⟨_, rfl, hout, hlow.2, hsame⟩

end Sys2Proof.Machine

/-! SUPPORT AND PROOFS. Writes that wait for their tick (R29, R54, R131, R189, R268, R335, R461). -/

namespace Sys2Proof.Machine

/-! ### Writes that wait for their tick (R461) -/

theorem acceptDirect_cond {op : Op} {r : Role} {cond : Nat} {F : TW} {s : State} (h : cond ≠ 0) :
    acceptDirect op r cond F s = refuse cond s := if_pos h

theorem acceptDirect_no_room {op : Op} {r : Role} {F : TW} {s : State} (h : tickFits s F 1 = false) :
    acceptDirect op r 0 F s = refuse 0x0406 s := by simp [acceptDirect, h]

theorem acceptDirect_room {op : Op} {r : Role} {F : TW} {s : State} (h : tickFits s F 1 = true) :
    acceptDirect op r 0 F s = ⟨0, octetsOf 8 F.toNat, schedDirect op r F s⟩ := by simp [acceptDirect, h]

/-- A write that is scheduled directly answers its tick, and joins the operations that wait; `chans` is its effect at once. -/
theorem served_schedDirect {s : State} {k : State → Ans} {op : Op} {r : Role} (chans : List Chan) (hl : live s = true)
    (hk : k s = ⟨0, octetsOf 8 (directTick s).toNat, { schedDirect op r (directTick s) s with chans := chans }⟩) :
    ∃ t, served s k = .next t ∧ s.ScheduledDirect t r op chans :=
  ex_served s k _ hl hk rfl rfl fun _ ht => ⟨congrArg State.out ht, congrArg State.act ht, by rw [ht]; rfl⟩

/-- A write whose own rule is that of a directly written operation, with the effect f of an accepted one on the channels. -/
theorem waitsForTick_of_served {s : State} {c : Instr} {r : Role} {op : Op} {cond : Nat} {k : State → Ans} {chans : List Chan}
    (hl : live s = true) (hc : exec c s = served s k) (hcond : cond ≠ 0 → k s = refuse cond s)
    (hfull : cond = 0 → tickFits s (directTick s) 1 = false → k s = refuse 0x0406 s)
    (hroom : cond = 0 → tickFits s (directTick s) 1 = true →
      k s = ⟨0, octetsOf 8 (directTick s).toNat, { schedDirect op r (directTick s) s with chans := chans }⟩) :
    s.WaitsForTick c r op cond chans := by
  unfold State.WaitsForTick
  rw [hc]
  by_cases h0 : cond = 0
  · cases hf : tickFits s (directTick s) 1 with
    | false =>
      obtain ⟨t, ht, ha⟩ := served_refuse hl (hfull h0 hf)
      exact ⟨t, ht, fun _ => nofun, fun _ _ => ha, fun h => absurd h0 h⟩
    | true =>
      obtain ⟨t, ht, ha⟩ := served_schedDirect chans hl (hroom h0 hf)
      exact ⟨t, ht, fun _ _ => ha, fun _ => nofun, fun h => absurd h0 h⟩
  · obtain ⟨t, ht, ha⟩ := served_refuse hl (hcond h0)
    exact ⟨t, ht, fun h => absurd h h0, fun h => absurd h h0, fun _ => ha⟩

/-- A write that comes to acceptDirect and has no effect at once. -/
theorem waitsForTick_of_acceptDirect {s : State} {c : Instr} {r : Role} {op : Op} {cond : Nat} {k : State → Ans}
    (hl : live s = true) (hc : exec c s = served s k) (hk : k s = acceptDirect op r cond (directTick s) s) :
    s.WaitsForTick c r op cond s.chans :=
  waitsForTick_of_served hl hc (fun h => hk.trans (acceptDirect_cond h)) (fun h hf => by rw [hk, h, acceptDirect_no_room hf])
    fun h hf => by rw [hk, h, acceptDirect_room hf]; rfl

theorem live_of_readyRun {s : State} (h : s.power.mode = .ready ∨ s.power.mode = .run) : live s = true := by
  unfold live; rcases h with h | h <;> rw [h] <;> rfl

theorem readyFor_of_readyRun {s : State} (h : s.power.mode = .ready ∨ s.power.mode = .run) (F : TW) : readyFor s F = true := by
  unfold readyFor; rcases h with h | h <;> rw [h]

section
variable {s : State} {r : Role} (hr : roleOk r .operator = true) (hm : s.power.mode = .ready ∨ s.power.mode = .run)
include hr hm

theorem owcStartWrite_readyRun {v : BitVec 32} (hv : owcArgOk v = true) :
    owcStartWrite r v s =
      (let a := acceptDirect (.owc v) r (owcCond s (directTick s) v) (directTick s) s
       if a.code = 0 then { a with st := owcClear v a.st } else a) :=
  gate_pass _ _ _ _ _ _ hr hv (by rcases hm with h | h <;> rw [h] <;> rfl)

theorem fadeWrite_readyRun {v : BitVec 32} (hv : fadeArgOk v = true) :
    fadeWrite r v s = acceptDirect (.xfade v) r
      (fadeCond s (priorTo s (directTick s) 5) (directTick s) v (schedFades s (fadeGroup v))) (directTick s) s :=
  gate_pass _ _ _ _ _ _ hr hv (by rcases hm with h | h <;> rw [h] <;> rfl)

theorem streamStartWrite_readyRun {m : BitVec 16} (h0 : m ≠ 0) (hs : s.store.slotState ≠ 4) :
    streamStartWrite r m s = acceptDirect (.startStreams m) r
      (startCond s (priorTo s (directTick s) 3) (directTick s) m) (directTick s) s := by
  have hmode : [Mode.calibrate, .ready, .run].contains s.power.mode = true := by rcases hm with h | h <;> rw [h] <;> rfl
  simp only [streamStartWrite, hr, h0, hs, hmode, Bool.not_true, Bool.false_eq_true, if_false]

theorem streamStopWrite_readyRun {m : BitVec 16} (h0 : m ≠ 0) :
    streamStopWrite r m s = acceptDirect (.stopStreams m) r (stopCond s (priorTo s (directTick s) 2) m) (directTick s) s :=
  gate_pass _ _ _ _ _ _ hr (decide_eq_true h0) (by rcases hm with h | h <;> rw [h] <;> rfl)

theorem trgArmWrite_readyRun {v : BitVec 16} (hv : trgArgOk v = true) :
    trgArmWrite r v s = acceptDirect (.trg v) r (trgCond s (priorTo s (directTick s) 4) v) (directTick s) s := by
  refine (gate_pass _ _ _ _ _ _ hr hv (by rcases hm with h | h <;> rw [h] <;> rfl)).trans ?_
  dsimp only
  rw [readyFor_of_readyRun hm, if_pos rfl]

end

theorem stepWrite_readyRun {s : State} {r : Role} {d : BitVec 64} (hr : roleOk r .custodian = true)
    (hm : s.power.mode = .ready ∨ s.power.mode = .run) (hs : ∀ e ∈ s.act.sched, isStep e.op = false) :
    stepWrite r d s = acceptDirect (.stepTime d) r (stepCond s) (directTick s) s := by
  refine (gate_pass _ _ _ _ _ _ hr rfl (by rcases hm with h | h <;> rw [h] <;> rfl)).trans ?_
  have hdue : ¬(s.act.sched.any fun e => decide (e.fire = directTick s) && isStep e.op) = true := by
    simpa using fun e he _ => hs e he
  exact congrArg (acceptDirect (.stepTime d) r · (directTick s) s) (if_neg hdue)

/-- Settles O46: each write comes to acceptDirect with its own condition; a check clears its results where it is accepted. -/
theorem writesWaitForTheirTick : Obligations.WritesWaitForTheirTick := by
  intro s r hr hm
  have hl := live_of_readyRun hm
  refine ⟨fun v hv => ?_, fun v hv => ?_, fun m h0 hs => ?_, fun m h0 => ?_, fun v hv => ?_, fun v hv => ?_, fun d hc hs => ?_⟩
  · have hk := owcStartWrite_readyRun hr hm hv
    refine waitsForTick_of_served hl rfl (fun h => ?_) (fun h hf => ?_) fun h hf => ?_
    · rw [hk, acceptDirect_cond h]; exact if_neg h
    · rw [hk, h, acceptDirect_no_room hf]; rfl
    · rw [hk, h, acceptDirect_room hf]; rfl
  · exact waitsForTick_of_acceptDirect hl rfl (fadeWrite_readyRun hr hm hv)
  · exact waitsForTick_of_acceptDirect hl rfl (streamStartWrite_readyRun hr hm h0 hs)
  · exact waitsForTick_of_acceptDirect hl rfl (streamStopWrite_readyRun hr hm h0)
  · exact waitsForTick_of_acceptDirect hl rfl (trgArmWrite_readyRun hr hm hv)
  · exact waitsForTick_of_acceptDirect hl rfl (trgArmWrite_readyRun hr hm hv)
  · exact waitsForTick_of_acceptDirect hl rfl (stepWrite_readyRun hc hm hs)

end Sys2Proof.Machine

/-! SUPPORT AND PROOFS. TIME_SET and the resolution of a re-route (R232, R235). -/

namespace Sys2Proof.Machine

/-! ### TIME_SET (R232) and REROUTE_RESOLVE (R235) -/

section
variable {s : State} (x : TW) (hm : [Mode.warm, .ready, .run, .safe].contains s.power.mode = true)
include hm

theorem live_of_setModes : live s = true := by
  unfold live
  cases h : s.power.mode <;> simp_all [Mode.live]

theorem setWrite_unset (hq : s.time.quality = 0) (hc : s.cal.state = 0) (hp : s.time.setPending = none) :
    setWrite .custodian x s =
      ⟨0, octetsOf 8 (directTick s).toNat, { s with time.setPending := some (x, directTick s) }⟩ :=
  (gate_pass _ _ _ _ _ _ rfl rfl hm).trans (if_neg (by simp [hq, hc, hp]))

theorem setWrite_set (hq : s.time.quality ≠ 0) : setWrite .custodian x s = refuse 0x0301 s :=
  (gate_pass _ _ _ _ _ _ rfl rfl hm).trans (if_pos (.inl hq))

end

/-- The port of a resolved re-route goes on from the exchanges of the new route. -/
def PtpPort.resolved (x : PtpPort) : PtpPort :=
  { x with delays := if x.rerouted.isEmpty then x.delays else x.rerouted, rerouted := [], rejected := [] }

/-- The asymmetry stored for the re-route of port p becomes that of the port (Table 9.5). -/
def asymApplied (p : Nat) (s : State) : State := imageSave (cfgPut 0x4104 p (cfgAt s 0x4107 p) s)

/-- REROUTE_RESOLVE with bit 4 commits the stored asymmetry. -/
def routeCommitted (v : Nat) (s : State) : State := if v.testBit 4 then asymApplied (bits v 1 0) s else s

/-- The re-route of port p is no longer pending. -/
def rerouteTaken (p : Nat) (s : State) : State :=
  let s := onPtp p PtpPort.resolved s
  { s with ptp.reroute := s.ptp.reroute - 2 ^ p }

/-- Holdover cause 5 ends with the last re-route that held it: the module waits for 16 offsets (R228). -/
def rerouteReleased (p : Nat) (s : State) : State :=
  if s.ptp.cause.testBit 5 ∧ (s.ptp.timingPort = some p ∨ s.ptp.reroute = 0) then
    clearOffsets { s with ptp := { s.ptp with cause := s.ptp.cause - 2 ^ 5, resume := true, since := s.ptp.since.set 5 0 } }
  else s

/-- What REROUTE_RESOLVE makes of a pending re-route. -/
def rerouteResolved (v : Nat) (s : State) : State :=
  rerouteReleased (bits v 1 0) (rerouteTaken (bits v 1 0) (routeCommitted v s))

section
variable {s : State} {r : Role} {v : Nat} (hl : live s = true) (hr : roleOk r .operator = true) (hhi : bits v 7 5 = 0)
  (hlo : bits v 3 2 = 0)
include hl hr hhi hlo

theorem rerouteWrite_not_pending (h : s.ptp.reroute.testBit (bits v 1 0) = false) : rerouteWrite r v s = refuse 0x0301 s :=
  (gate_pass _ _ _ _ _ _ hr (by rw [hhi, hlo]; rfl) (servedModes_contains hl)).trans (if_pos (by rw [h]; rfl))

theorem rerouteWrite_pending (h : s.ptp.reroute.testBit (bits v 1 0) = true) :
    rerouteWrite r v s = accept (rerouteResolved v s) := by
  refine (gate_pass _ _ _ _ _ _ hr (by rw [hhi, hlo]; rfl) (servedModes_contains hl)).trans
    ((if_neg (by rw [h]; simp)).trans ?_)
  exact (apply_ite accept _ _ _).symm

end

theorem asymApplied_only (p : Nat) (s : State) :
    asymApplied p s = { s with
      conf := { s.conf with cfg := cfgSet s.conf.cfg (key 0x4104 p) (cfgAt s 0x4107 p) }, store := (asymApplied p s).store } := by
  unfold asymApplied imageSave
  (repeat' split) <;> rfl

theorem routeCommitted_only (v : Nat) (s : State) :
    routeCommitted v s = { s with
      conf := if v.testBit 4
        then { s.conf with cfg := cfgSet s.conf.cfg (key 0x4104 (bits v 1 0)) (cfgAt s 0x4107 (bits v 1 0)) } else s.conf
      store := (routeCommitted v s).store } := by
  unfold routeCommitted
  split
  · exact asymApplied_only _ s
  · rfl

theorem routeCommitted_ptp (v : Nat) (s : State) : (routeCommitted v s).ptp = s.ptp := by
  rw [routeCommitted_only]

/-- The end of the cause leaves the delays of the ports, and what waits for a re-route, as they are. -/
theorem rerouteReleased_ptpAt (p : Nat) (s : State) (j : Nat) :
    (ptpAt (rerouteReleased p s) j).delays = (ptpAt s j).delays ∧
    (ptpAt (rerouteReleased p s) j).rerouted = (ptpAt s j).rerouted ∧
    (ptpAt (rerouteReleased p s) j).rejected = (ptpAt s j).rejected := by
  unfold rerouteReleased
  split
  · unfold ptpAt clearOffsets
    simp only [List.getD_eq_getElem?_getD, List.getElem?_map]
    cases s.ptp.ports[j]? <;> exact ⟨rfl, rfl, rfl⟩
  · exact ⟨rfl, rfl, rfl⟩

theorem rerouteReleased_only (p : Nat) (s : State) :
    rerouteReleased p s = { s with ptp := (rerouteReleased p s).ptp } := by
  unfold rerouteReleased; split <;> rfl

theorem rerouteReleased_reroute (p : Nat) (s : State) : (rerouteReleased p s).ptp.reroute = s.ptp.reroute := by
  unfold rerouteReleased; split <;> rfl

theorem rerouteTaken_ptpAt {p : Nat} {s : State} (h : p < s.ptp.ports.length) :
    ptpAt (rerouteTaken p s) p = (ptpAt s p).resolved := ptpAt_onPtp_same p _ s h

/-- What a resolved re-route changes: the network time, and the configuration with its image where the asymmetry is applied. -/
theorem rerouteResolved_only (v : Nat) (s : State) :
    rerouteResolved v s = { s with
      conf := if v.testBit 4
        then { s.conf with cfg := cfgSet s.conf.cfg (key 0x4104 (bits v 1 0)) (cfgAt s 0x4107 (bits v 1 0)) } else s.conf
      ptp := (rerouteResolved v s).ptp, store := (rerouteResolved v s).store } := by
  unfold rerouteResolved
  rw [rerouteReleased_only, routeCommitted_only]
  rfl

/-- Before the release, a resolved re-route has the network time of the re-route taken. -/
theorem rerouteResolved_ptp (v : Nat) (s : State) (hp : bits v 1 0 < s.ptp.ports.length) :
    (ptpAt (rerouteResolved v s) (bits v 1 0)).delays = (ptpAt s (bits v 1 0)).resolved.delays ∧
    (ptpAt (rerouteResolved v s) (bits v 1 0)).rerouted = [] ∧ (ptpAt (rerouteResolved v s) (bits v 1 0)).rejected = [] := by
  unfold rerouteResolved
  have hsame := routeCommitted_ptp v s
  generalize routeCommitted v s = x at hsame ⊢
  obtain ⟨hd, hre, hrj⟩ := rerouteReleased_ptpAt (bits v 1 0) (rerouteTaken (bits v 1 0) x) (bits v 1 0)
  have hx : ptpAt x (bits v 1 0) = ptpAt s (bits v 1 0) := by rw [ptpAt, hsame, ptpAt]
  rw [rerouteTaken_ptpAt (hsame ▸ hp), hx] at hd hre hrj
  exact ⟨hd, hre, hrj⟩

theorem rerouteResolved_reroute (v : Nat) (s : State) : (rerouteResolved v s).ptp.reroute = s.ptp.reroute - 2 ^ bits v 1 0 := by
  unfold rerouteResolved
  rw [rerouteReleased_reroute]
  rw [← routeCommitted_ptp v s]
  rfl

theorem rerouteResolved_out (v : Nat) (s : State) : (rerouteResolved v s).out = s.out := by
  rw [rerouteResolved_only]

/-- The next state of an accepted REROUTE_RESOLVE. -/
theorem settle_answer_rerouteResolved (v : Nat) (s : State) :
    let t := settle (emit (.answer 0 []) (rerouteResolved v s))
    t = { s with conf := t.conf, ptp := t.ptp, out := t.out, health := s.settledHealth t, store := t.store } := by
  intro t
  have hx := rerouteResolved_only v s
  have hhealth : (rerouteResolved v s).health = s.health := by rw [hx]
  have hh : t.health = s.settledHealth t := by
    rw [settled_health (settle_settled _)]
    simp [State.settledHealth, hhealth, t]
  rw [← hh]
  have ht : t = _ := settle_only (emit (.answer 0 []) (rerouteResolved v s))
  clear_value t
  rw [ht, hx]
  rfl

/-- Settles O41: a time is held for its tick where none is set; a resolution takes the re-route (with the asymmetry where bit 4 says
so) and then releases cause 5, and each of the two says what it changes. -/
theorem timeSetAndReroutes : Obligations.TimeSetAndReroutes := by
  intro s
  refine ⟨fun x hm => ⟨fun hq hc hp => ?_, fun hq => ?_⟩, fun r v c hl hr hc hhi hlo => ?_⟩
  · exact ex_served s _ _ (live_of_setModes hm) (setWrite_unset x hm hq hc hp) rfl rfl fun t ht =>
      ⟨congrArg State.out ht, by rw [ht]; rfl⟩
  · exact served_refuse (live_of_setModes hm) (setWrite_set x hm hq)
  · have he : exec c s = served s (rerouteWrite r v.toNat) := by rcases hc with ⟨rfl, _⟩ | ⟨rfl, _⟩ <;> rfl
    rw [he]
    refine ⟨fun hp => served_refuse hl (rerouteWrite_not_pending hl hr hhi hlo hp), fun hp => ?_⟩
    rw [served_live s _ hl, rerouteWrite_pending hl hr hhi hlo hp]
    refine ⟨_, rfl, by simp [accept, rerouteResolved_out], ?_, ?_, fun hlt => ?_, settle_answer_rerouteResolved v.toNat s⟩
    · rw [← rerouteResolved_reroute]; simp
    · simpa using congrArg State.conf (rerouteResolved_only v.toNat s)
    · simpa [ptpAt, PtpPort.resolved] using rerouteResolved_ptp v.toNat s hlt

end Sys2Proof.Machine

/-! SUPPORT AND PROOFS. Event edges and the rings (R239 to R244): the frame of a recorded edge. -/

namespace Sys2Proof.Machine

/-! ### An edge that fires an armed unit starts a pulse at a trigger output -/

/-- The first trigger output has a pulse to come. -/
def Pulsing (s : State) : Prop := ∃ q, s.outs[0]? = some q ∧ q.starts ≠ []

theorem Pulsing.of_outs {s t : State} (h : Pulsing s) (ht : t.outs = s.outs) : Pulsing t := by
  unfold Pulsing; rwa [ht]

theorem insPulse_ne_nil (a : Nat × Nat) (l : List (Nat × Nat)) : insPulse a l ≠ [] := by
  cases l with
  | nil => exact nofun
  | cons b l => unfold insPulse; split <;> exact nofun

theorem pulsing_trgPulse_first (ev : TrgEvent) {s : State} (h : 0 < s.outs.length) : Pulsing (trgPulse ev 0 s) := by
  obtain ⟨q, l, hq⟩ := List.exists_cons_of_length_pos h
  simp [Pulsing, trgPulse, hq, updAt, insPulse_ne_nil]

theorem Pulsing.trgPulse {s : State} (h : Pulsing s) (ev : TrgEvent) (o : Nat) : Pulsing (trgPulse ev o s) := by
  obtain ⟨q, hq, hn⟩ := h
  cases hl : s.outs with
  | nil => simp [hl] at hq
  | cons a l =>
    cases o with
    | zero => exact pulsing_trgPulse_first ev (by simp [hl])
    | succ o => exact ⟨q, by simpa [Machine.trgPulse, hl, updAt] using hq, hn⟩

/-- Output o takes the pulse of a unit that drives it, and none of another. -/
theorem Pulsing.drive {s : State} (h : Pulsing s) (u : Nat) (ev : TrgEvent) (o : Nat) :
    Pulsing (if cfgAt s 0x3C80 o = u then Machine.trgPulse ev o s else s) := by
  split
  · exact h.trgPulse ev o
  · exact h

theorem Pulsing.trgAccept {s : State} (h : Pulsing s) (u : Nat) (ev : TrgEvent) : Pulsing (trgAccept u ev s) := by
  unfold Machine.trgAccept
  extract_lets cap trig p s1 s2
  have h1 : Pulsing s1 := h.of_outs rfl
  have h2 : Pulsing s2 := (h1.drive u ev 0).drive u ev 1
  split
  · exact h2
  · exact h2.of_outs (by simp)

/-- An event that a unit decides leaves a pulse to come. -/
theorem Pulsing.trgOffer {s : State} (h : Pulsing s) (u : Nat) (ev : TrgEvent) : Pulsing (trgOffer u ev s) := by
  unfold Machine.trgOffer
  dsimp only
  split
  · split
    · exact (h.trgAccept u ev).of_outs (by simp)
    · exact h.of_outs rfl
  · exact h

/-- A unit that drives the first output starts a pulse there as it accepts an event (R203). -/
theorem pulsing_trgAccept {u : Nat} (ev : TrgEvent) {s : State} (hq : cfgAt s 0x3C80 0 = u) (h : 0 < s.outs.length) :
    Pulsing (trgAccept u ev s) := by
  unfold trgAccept
  extract_lets cap trig p s1 s2
  have h1 : Pulsing (if cfgAt s1 0x3C80 0 = u then Machine.trgPulse ev 0 s1 else s1) := by
    rw [if_pos (show cfgAt s1 0x3C80 0 = u from hq)]; exact pulsing_trgPulse_first ev h
  have h2 : Pulsing s2 := h1.drive u ev 1
  split
  · exact h2
  · exact h2.of_outs (by simp)

theorem pulsing_trgOffer {u : Nat} (ev : TrgEvent) {s : State} (ha : (unitAt s u).armed = true) (ht : trgTest s u ev = 0)
    (hq : cfgAt s 0x3C80 0 = u) (h : 0 < s.outs.length) : Pulsing (trgOffer u ev s) := by
  unfold trgOffer
  simp only [ha, ht, Bool.true_or, if_true]
  exact (pulsing_trgAccept ev hq h).of_outs (by simp)

/-- A unit that is armed at an event, has accepted none before and asks for no full pre-trigger part accepts it (Table 8.4). -/
theorem trgTest_of_fresh {s : State} {u : Nat} {ev : TrgEvent} (ha : (unitAt s u).armed = true)
    (hat : armedAt (unitAt s u) ev = true) (hlast : (unitAt s u).lastTw = none) (hcap : (unitAt s u).captures = [])
    (hold : (unitAt s u).holdCount = 0) (hstore : (unitAt s u).store = []) (hshort : cfgAt s 0x3C11 u ≠ 0) :
    trgTest s u ev = 0 := by
  simp [trgTest, heldOff, trigTooOld, Unit.openCap, Unit.locked, ha, hat, hlast, hcap, hold, hstore, hshort]

/-- Unit 0 watches event input 0, whose edges count, and drives the first trigger output. -/
def edgeCfg : KV := [(key 0x3C02 0, 4), (key 0x3C80 0, 0), (key 0x5200 0, 1)]

theorem edgeCfg_values :
    cfgGet edgeCfg (key 0x3C02 0) = 4 ∧ cfgGet edgeCfg (key 0x3C03 0) = 0 ∧ cfgGet edgeCfg (key 0x3C04 0) = 0 ∧
    cfgGet edgeCfg (key 0x3C11 0) = 1 ∧ cfgGet edgeCfg (key 0x3C80 0) = 0 ∧ cfgGet edgeCfg (key 0x5200 0) = 1 := by decide

/-- A module in RUN whose unit 0, armed since t, is to fire at an edge of input 0, before the next tick. -/
def edgeWatched (t : TW) : State :=
  { State.reset with
    power := { State.reset.power with mode := .run, vmain := true }
    time := { State.reset.time with nextTick := t + 1 }
    conf := { State.reset.conf with cfg := edgeCfg }
    units := { Unit.init with armed := true, armTw := t } :: List.replicate 7 .init }

/-- The same module as the rising edge of input 0 is seen. -/
def edgeRisen (t : TW) : State := onEv 0 (fun i => { i with level := true }) (edgeWatched t)

theorem atOrBefore_self (t : TW) : TW.atOrBefore t t = true := by simp [TW.atOrBefore, TW.diff]

theorem not_atOrBefore_succ (t : TW) : TW.atOrBefore (t + 1) t = false := by simp [TW.atOrBefore, TW.diff]

theorem forNat_eight_first {P : State → Prop} {f : Nat → State → State} {s : State} (h0 : P (f 0 s))
    (h : ∀ k s, P s → P (f k s)) : P (forNat 8 f s) :=
  h 7 _ (h 6 _ (h 5 _ (h 4 _ (h 3 _ (h 2 _ (h 1 _ h0))))))

/-- An edge of input 0 at t reaches unit 0. -/
theorem pulsing_evOffer {t : TW} {s : State} (hcfg : s.conf.cfg = edgeCfg) (hunits : s.units = (edgeWatched t).units)
    (houts : 0 < s.outs.length) : Pulsing (evOffer 0 true ⟨t, 0, 0, none⟩ s) := by
  obtain ⟨hkind, hsel, hedge, hshort, hout, _⟩ := edgeCfg_values
  have hc (i j : Nat) : cfgAt s i j = cfgGet edgeCfg (key i j) := by rw [cfgAt, hcfg]
  have hu : unitAt s 0 = { Unit.init with armed := true, armTw := t } := by rw [unitAt, hunits]; rfl
  refine forNat_eight_first (P := Pulsing) ?_ fun u s hs => ?_
  · simp only [hc, hkind, hsel, hedge, if_true, ne_eq, zero_ne_one, not_false_eq_true, and_self]
    refine pulsing_trgOffer _ (by rw [hu]) (trgTest_of_fresh ?_ ?_ ?_ ?_ ?_ ?_ ?_) (by rw [hc, hout]) houts
    · rw [hu]
    · simp [armedAt, hu, Unit.init, epochLe, atOrBefore_self]
    · rw [hu]; rfl
    · rw [hu]; rfl
    · rw [hu]; rfl
    · rw [hu]; rfl
    · rw [hc, hshort]; decide
  · simp only [if_true]
    split
    · exact hs.trgOffer u _
    · exact hs

theorem edgeWatched_mode (t : TW) : cfgAt (edgeWatched t) 0x5200 0 = 1 := by
  obtain ⟨_, _, _, _, _, h⟩ := edgeCfg_values
  exact h

/-- The first edge of input 0, at t, is offered to the units as it is stamped. -/
theorem evTake_edgeWatched (t : TW) (now : Nat) :
    evTake 0 true t now (edgeRisen t) =
      evOffer 0 true ⟨t, 0, 0, none⟩ (onEv 0 (fun i => { i with count := 1, last := t, lastPt := some now })
        (edgeRisen t)) := by
  have hmode : cfgAt (edgeRisen t) 0x5200 0 = 1 := edgeWatched_mode t
  have hframe : frameOf (edgeRisen t) t = ⟨0, 0, 0, 0, 0, true⟩ := by
    rw [frameOf, if_neg (by rw [Bool.not_eq_true]; exact not_atOrBefore_succ t)]; rfl
  have hlast : ((edgeRisen t).ev.inputs.getD 0 .init).lastPt = none := rfl
  have hstamp (g : MapSeg) (hg : g.shift = 0) : stampIn (edgeRisen t) g t = t := by
    rw [stampIn, hg]; exact BitVec.add_zero t
  unfold evTake
  simp only [hmode, hframe, hlast, hstamp]
  rfl

theorem pulsing_evEdge_edgeWatched {t : TW} (ht : evStamp (edgeWatched t) 0 0 true = t) :
    Pulsing (evEdge 0 0 true (edgeWatched t)) := by
  have hs : evStamp (edgeRisen t) 0 0 true = t := ht
  unfold evEdge
  dsimp only
  have hrisen : (onEv 0 (fun i => { i with level := true }) : State → State) (edgeWatched t) = edgeRisen t := rfl
  rw [hrisen, hs, if_neg (by rw [Bool.not_eq_true]; exact not_atOrBefore_succ t), evTake_edgeWatched]
  exact pulsing_evOffer rfl rfl (by simp only [onEv_frame]; exact Nat.two_pos)

/-- Refutes O42: an edge that fires a unit starts a pulse at the output that the unit drives (R203), while the clause of a recorded
edge says that the outputs stay as they are. -/
theorem not_eventEdgesAndRings : ¬ Obligations.EventEdgesAndRings := by
  intro h
  obtain ⟨_, hedge, _⟩ := h
  have hs : evStamp (edgeWatched (evStamp (edgeWatched 0) 0 0 true)) 0 0 true = evStamp (edgeWatched 0) 0 0 true := rfl
  generalize evStamp (edgeWatched 0) 0 0 true = t at hs
  obtain ⟨_, _, _, htaken⟩ := hedge (edgeWatched t) 0 0 true EvInput.init rfl rfl
  obtain ⟨u, hu, _, _, _, hsame⟩ := htaken
    ((congrArg (TW.atOrBefore (t + 1)) hs).trans (not_atOrBefore_succ t)) ((edgeWatched_mode t).trans_ne (by decide)) nofun
  cases hu
  obtain ⟨q, hq, hn⟩ := (pulsing_evEdge_edgeWatched hs).of_outs (t := settle (evEdge 0 0 true (edgeWatched t))) (by simp)
  have houts := congrArg (fun x : State => x.outs) hsame
  rw [show (settle (evEdge 0 0 true (edgeWatched t))).outs = State.reset.outs from houts] at hq
  cases hq
  exact hn rfl

end Sys2Proof.Machine

/-! SUPPORT AND PROOFS. Frame tick: what the stages of a tick leave as it is (R32). -/

namespace Sys2Proof.Machine

/-! ### The course of the time word -/

/-- a and b place the present instant, the frame and the next tick alike: only the rate, the time quality, the reserve of the
frame and what waits for the tick may differ. -/
def TimeEng.SameCourse (a b : TimeEng) : Prop :=
  b = { a with inc := b.inc, quality := b.quality, reserveLeft := b.reserveLeft, late := b.late }

theorem TimeEng.SameCourse.refl (a : TimeEng) : a.SameCourse a := rfl

theorem TimeEng.SameCourse.trans {a b c : TimeEng} (h : a.SameCourse b) (k : b.SameCourse c) : a.SameCourse c := by
  unfold SameCourse at *; rw [k, h]

theorem TimeEng.SameCourse.of_eq {a b : TimeEng} (h : b = a) : a.SameCourse b := by rw [h]; exact .refl a

theorem TimeEng.SameCourse.tw {a b : TimeEng} (h : a.SameCourse b) : b.tw = a.tw := by rw [h]

theorem TimeEng.SameCourse.epoch {a b : TimeEng} (h : a.SameCourse b) : b.epoch = a.epoch := by rw [h]

theorem TimeEng.SameCourse.frameTw {a b : TimeEng} (h : a.SameCourse b) : b.frameTw = a.frameTw := by rw [h]

theorem TimeEng.SameCourse.ite {t : TimeEng} {c : Prop} [Decidable c] {a b : State} (ha : t.SameCourse a.time)
    (hb : t.SameCourse b.time) : t.SameCourse (if c then a else b).time := by
  split
  · exact ha
  · exact hb

/-- The servo's rate and holdover leave the course of the present instant. -/
theorem sameCourse_enterHoldover (manual : Bool) (s : State) : s.time.SameCourse (enterHoldover manual s).time := rfl

theorem sameCourse_setCause (i : Nat) (s : State) : s.time.SameCourse (setCause i s).time := by
  unfold setCause
  split
  · exact .refl _
  · have h1 : s.time.SameCourse (if held s then s else enterHoldover (decide (i = 6)) s).time := by
      split
      · exact .refl _
      · exact sameCourse_enterHoldover _ s
    refine h1.trans (.of_eq ?_)
    generalize (if held s then s else enterHoldover (decide (i = 6)) s) = s1
    (repeat' split) <;> rfl

theorem sameCourse_standingCauses (s : State) : s.time.SameCourse (standingCauses s).time := by
  unfold standingCauses
  extract_lets s1 pends
  have h1 : s.time.SameCourse s1.time := by
    unfold s1
    split
    · exact sameCourse_setCause 0 s
    · split
      · exact sameCourse_setCause 1 s
      · exact .refl _
  split
  · exact h1.trans (sameCourse_setCause 5 s1)
  · exact h1

theorem sameCourse_masterLost (s : State) : s.time.SameCourse (masterLost s).time := by
  unfold masterLost
  dsimp only
  split <;> exact sameCourse_setCause 0 _

theorem sameCourse_newMaster (b : Announce) (s : State) : s.time.SameCourse (newMaster b s).time := by
  unfold newMaster
  dsimp only
  split
  · split
    · exact .refl _
    · exact sameCourse_setCause 2 _
  · exact .refl _

theorem sameCourse_newTiming (same : Bool) (b : Announce) (s : State) : s.time.SameCourse (newTiming same b s).time := by
  unfold newTiming
  dsimp only
  split
  · split
    · exact sameCourse_setCause 1 _
    · exact .refl _
  · split
    · split
      · exact sameCourse_setCause 3 _
      · exact .refl _
    · exact sameCourse_setCause 1 _
    · exact .refl _

theorem sameCourse_masterUpdate (s : State) : s.time.SameCourse (masterUpdate s).time := by
  have hchoice : s.time.SameCourse (masterChoice s).time := by
    unfold masterChoice
    split
    · exact sameCourse_masterLost s
    · refine TimeEng.SameCourse.trans ?_ (sameCourse_newTiming ..)
      exact .ite (.refl _) (sameCourse_newMaster _ s)
  unfold masterUpdate
  dsimp only
  split
  · exact hchoice
  · exact hchoice.trans (.of_eq (by simp))

/-! ### The streams in service -/

/-- Which streams run, and from which tick on. -/
def State.runs (s : State) : List (Bool × TW) := s.streams.map fun k => (k.running, k.startTw)

theorem State.runs_congr {s t : State} (h : t.streams = s.streams) : t.runs = s.runs := by rw [runs, h, runs]

theorem State.runs_getD (s : State) (st : Nat) :
    s.runs.getD st (false, 0) = ((streamAt s st).running, (streamAt s st).startTw) := by
  unfold runs streamAt
  rw [List.getD_eq_getElem?_getD, List.getD_eq_getElem?_getD, List.getElem?_map]
  cases s.streams[st]? <;> rfl

theorem onStream_runs (st : Nat) (f : Stream → Stream) (s : State)
    (h : ∀ k, (f k).running = k.running ∧ (f k).startTw = k.startTw) : (onStream st f s).runs = s.runs :=
  updAt_map_of_keeps _ f st s.streams fun k => by rw [(h k).1, (h k).2]

theorem forNat_runs (n : Nat) (f : Nat → State → State) (s : State) (h : ∀ k s, (f k s).runs = s.runs) :
    (forNat n f s).runs = s.runs := by
  unfold forNat
  generalize List.range n = l
  induction l generalizing s with
  | nil => rfl
  | cons a l ih => rw [List.foldl_cons, ih, h]

theorem forList_runs {α : Type} (l : List α) (f : α → State → State) (s : State) (h : ∀ a s, (f a s).runs = s.runs) :
    (forList l f s).runs = s.runs := by
  unfold forList
  induction l generalizing s with
  | nil => rfl
  | cons a l ih => rw [List.foldl_cons, ih, h]

theorem failFormed_runs (c e : Nat) (zero : Bool) (s : State) : (failFormed c e zero s).runs = s.runs := by
  unfold failFormed
  extract_lets late s1 s2
  have h1 : s1.runs = s.runs := by
    refine forNat_runs _ _ _ fun st x => ?_
    dsimp only
    split
    · exact onStream_runs _ _ _ fun _ => ⟨rfl, rfl⟩
    · rfl
  refine (State.runs_congr ?_).trans h1
  simp [s2]

theorem orphanChannel_runs (g p e : Nat) (s : State) : (orphanChannel g p e s).runs = s.runs :=
  (failFormed_runs ..).trans rfl

theorem takeOver_runs (g p x h from_ : Nat) (s : State) : (takeOver g p x h from_ s).runs = s.runs :=
  (failFormed_runs ..).trans (State.runs_congr (by simp))

theorem serveFailed_runs (g p run h : Nat) (s : State) : (serveFailed g p run h s).runs = s.runs := by
  unfold serveFailed
  split
  · exact orphanChannel_runs ..
  · extract_lets d busy s1
    have h1 : s1.runs = s.runs := by
      unfold s1
      split
      · exact State.runs_congr (by simp)
      · rfl
    exact (takeOver_runs ..).trans h1

theorem retireSlice_runs (g k run : Nat) (s : State) : (retireSlice g k run s).runs = s.runs := by
  unfold retireSlice
  extract_lets d sl h s1 s2 s3
  split
  · rfl
  · have h1 : s1.runs = s.runs := State.runs_congr (by simp [s1])
    have h2 : s2.runs = s1.runs := by
      unfold s2
      split
      · split
        · split
          · exact State.runs_congr (by simp)
          · exact serveFailed_runs ..
        · split
          · split
            · exact (failFormed_runs ..).trans (State.runs_congr (by simp))
            · exact State.runs_congr (by simp)
          · split
            · exact serveFailed_runs ..
            · rfl
      · split
        · exact serveFailed_runs ..
        · rfl
    exact (State.runs_congr (by simp [s3])).trans (h2.trans h1)

theorem calRetire_runs (g k : Nat) (s : State) : (calRetire g k s).runs = s.runs :=
  (State.runs_congr rfl).trans ((retireSlice_runs g k 0 _).trans (State.runs_congr rfl))

theorem calFail_runs (bad : Nat → Nat → Bool) (s : State) : (calFail bad s).1.runs = s.runs :=
  (forList_runs _ _ _ fun _ _ => calRetire_runs ..).trans (forList_runs _ _ _ fun _ _ => calRetire_runs ..)

/-! ### Stages of a tick that leave what the tick has reached -/

/-- From s to t nothing of what a tick answers for has changed: the time word and its frame, the latched header, the
configuration, the operations that wait, the streams in service, the mode and the ovens. -/
structure State.Stands (s t : State) : Prop where
  pending : t.pending = s.pending
  course : s.time.SameCourse t.time
  frame : t.frame = s.frame
  conf : t.conf = s.conf
  sched : t.act.sched = s.act.sched
  refOven : t.power.refOven = s.power.refOven
  ocxoOven : t.power.ocxoOven = s.power.ocxoOven
  mode : t.power.mode = s.power.mode
  runs : t.runs = s.runs

/-- The same of a stage that may also have brought the module into SAFE, where streams, units and waiting operations end. -/
structure State.StandsOrSafe (s t : State) : Prop where
  pending : t.pending = s.pending
  course : s.time.SameCourse t.time
  frame : t.frame = s.frame
  cfg : t.conf.cfg = s.conf.cfg
  generation : t.conf.generation = s.conf.generation
  digest : t.conf.digest = s.conf.digest
  sched : s.act.sched = [] → t.act.sched = []
  refOven : t.power.refOven = s.power.refOven
  ocxoOven : t.power.ocxoOven = s.power.ocxoOven
  active : t.power.mode ≠ .safe → t.power.mode = s.power.mode ∧ t.runs = s.runs

namespace State

theorem Stands.refl (s : State) : s.Stands s := ⟨rfl, .refl _, rfl, rfl, rfl, rfl, rfl, rfl, rfl⟩

theorem Stands.trans {a b c : State} (h : a.Stands b) (k : b.Stands c) : a.Stands c :=
  ⟨k.pending.trans h.pending, h.course.trans k.course, k.frame.trans h.frame, k.conf.trans h.conf, k.sched.trans h.sched,
    k.refOven.trans h.refOven, k.ocxoOven.trans h.ocxoOven, k.mode.trans h.mode, k.runs.trans h.runs⟩

theorem Stands.of_eqs {s t : State}
    (h : t.pending = s.pending ∧ t.time = s.time ∧ t.frame = s.frame ∧ t.conf = s.conf ∧ t.act.sched = s.act.sched ∧
      t.power = s.power) (hruns : t.runs = s.runs) : s.Stands t := by
  obtain ⟨hp, ht, hf, hc, ha, hm⟩ := h
  exact ⟨hp, .of_eq ht, hf, hc, ha, by rw [hm], by rw [hm], by rw [hm], hruns⟩

theorem Stands.orSafe {s t : State} (h : s.Stands t) : s.StandsOrSafe t :=
  ⟨h.pending, h.course, h.frame, by rw [h.conf], by rw [h.conf], by rw [h.conf], h.sched.trans, h.refOven, h.ocxoOven,
    fun _ => ⟨h.mode, h.runs⟩⟩

theorem StandsOrSafe.trans {a b c : State} (h : a.StandsOrSafe b) (k : b.StandsOrSafe c) : a.StandsOrSafe c where
  pending := k.pending.trans h.pending
  course := h.course.trans k.course
  frame := k.frame.trans h.frame
  cfg := k.cfg.trans h.cfg
  generation := k.generation.trans h.generation
  digest := k.digest.trans h.digest
  sched := k.sched ∘ h.sched
  refOven := k.refOven.trans h.refOven
  ocxoOven := k.ocxoOven.trans h.ocxoOven
  active hc := by
    obtain ⟨hmc, hrc⟩ := k.active hc
    obtain ⟨hmb, hrb⟩ := h.active (hmc ▸ hc)
    exact ⟨hmc.trans hmb, hrc.trans hrb⟩

theorem Stands.ite {s : State} {c : Prop} [Decidable c] {a b : State} (ha : s.Stands a) (hb : s.Stands b) :
    s.Stands (if c then a else b) := by
  split
  · exact ha
  · exact hb

end State

theorem stands_forList {α : Type} (l : List α) (f : α → State → State) (s : State)
    (h : ∀ a (s : State), s.Stands (f a s)) : s.Stands (forList l f s) := by
  unfold forList
  induction l generalizing s with
  | nil => exact .refl s
  | cons a l ih => exact (h a s).trans (ih (f a s))

theorem stands_forNat (n : Nat) (f : Nat → State → State) (s : State) (h : ∀ k (s : State), s.Stands (f k s)) :
    s.Stands (forNat n f s) :=
  stands_forList (List.range n) f s h

theorem standsOrSafe_forList {α : Type} (l : List α) (f : α → State → State) (s : State)
    (h : ∀ a (s : State), s.StandsOrSafe (f a s)) : s.StandsOrSafe (forList l f s) := by
  unfold forList
  induction l generalizing s with
  | nil => exact (State.Stands.refl s).orSafe
  | cons a l ih => exact (h a s).trans (ih (f a s))

theorem standsOrSafe_forNat (n : Nat) (f : Nat → State → State) (s : State) (h : ∀ k (s : State), s.StandsOrSafe (f k s)) :
    s.StandsOrSafe (forNat n f s) :=
  standsOrSafe_forList (List.range n) f s h

/-! The close of the frame that has ended (steps 1 and 4 of R32). -/

theorem mapIdx_map_of_keeps {α β : Type} (g : α → β) (f : Nat → α → α) (l : List α) (h : ∀ i x, g (f i x) = g x) :
    (l.mapIdx f).map g = l.map g := by
  refine List.ext_getElem? fun i => ?_
  simp only [List.getElem?_map, List.getElem?_mapIdx, Option.map_map]
  congr 1
  funext x
  exact h i x

theorem stands_closeTick (was : State) (ran finals : List Nat) (s : State) : s.Stands (closeTick was ran finals s) := by
  refine .of_eqs (by simp) (mapIdx_map_of_keeps _ _ _ fun i x => ?_)
  unfold mergeClosed
  dsimp only
  split <;> rfl

theorem stands_drainAll (o : TickObs) (s : State) : s.Stands (drainAll o s) :=
  .of_eqs (by simp) (State.runs_congr (by simp))

theorem stands_pennantNotices (was s : State) : s.Stands (pennantNotices was s) :=
  .of_eqs (by simp) (State.runs_congr (by simp))

theorem stands_telemetry (s : State) : s.Stands (telemetry s) := .of_eqs (by simp) (State.runs_congr (by simp))

theorem stands_sendCompletions (s : State) : s.Stands (sendCompletions s) :=
  .of_eqs (by simp [sendCompletions]) (State.runs_congr (by simp))

theorem stands_sendLate (s : State) : s.Stands (sendLate s) := .of_eqs (by simp) (State.runs_congr (by simp))

theorem stands_wordFault (x : Frame × State) (w : WordFault) : x.2.Stands (wordFault x w).2 :=
  .of_eqs (by simp) (State.runs_congr (by simp))

theorem stands_rowFault (row word : Nat) (bad : Bool) (s : State) : s.Stands (rowFault row word bad s) :=
  .of_eqs (by simp) (State.runs_congr (by simp))

theorem stands_readWord (x : Frame × State) (w : WordFault) : x.2.Stands (readWord x w).2 := by
  unfold readWord
  extract_lets r
  split
  · exact (stands_wordFault x w).trans (stands_rowFault ..)
  · exact stands_wordFault x w

theorem stands_faultAt (pos : Nat) (w : WordFault) (l : List Frame) (s : State) : s.Stands (faultAt pos w l s).2 := by
  unfold faultAt
  split
  · exact stands_readWord (_, s) w
  · exact .refl s

theorem stands_spillCheck (l : List (Fin 3 × Nat × WordFault)) (s : State) : s.Stands (spillCheck l s) := by
  unfold spillCheck
  refine (stands_forList l _ s fun p x => ?_).trans (.of_eqs (by simp) rfl)
  dsimp only
  split
  · exact (stands_faultAt ..).trans (.of_eqs (by simp) rfl)
  · exact .refl x

/-! What the module judges once a frame (R32). -/

theorem newSegs_runs (lim start : Nat → Nat) (s : State) : (newSegs lim start s).runs = s.runs :=
  mapIdx_map_of_keeps _ _ _ fun _ _ => rfl

theorem stands_wrapGrid (s : State) : s.Stands (wrapGrid s) := by
  unfold wrapGrid
  exact .ite (.of_eqs (by simp) (newSegs_runs ..)) (.refl s)

theorem stands_suspectTick (s : State) : s.Stands (suspectTick s) := .of_eqs (by simp) (State.runs_congr (by simp))

theorem stands_mapTick (len : Nat) (pos : Int) (s : State) : s.Stands (mapTick len pos s) :=
  .of_eqs (by simp) (State.runs_congr (by simp))

theorem stands_tickLaunch (s : State) : s.Stands (tickLaunch s) := .of_eqs (by simp) (State.runs_congr (by simp))

theorem stands_auxResume (s : State) : s.Stands (auxResume s) := .of_eqs (by simp) (State.runs_congr (by simp))

theorem stands_visitStart (g : Nat) (s : State) : s.Stands (visitStart g s) := .of_eqs (by simp) (State.runs_congr (by simp))

theorem stands_gateTick (g : Nat) (s : State) : s.Stands (gateTick g s) := .of_eqs (by simp) (State.runs_congr (by simp))

theorem stands_allowances (suspended : Bool) (s : State) : s.Stands (allowances suspended s) :=
  ⟨rfl, rfl, rfl, rfl, rfl, rfl, rfl, rfl, rfl⟩

theorem calStep3_runs (l : List SliceMeas) (s : State) : (calStep3 l s).runs = s.runs := by
  unfold calStep3
  split
  · rfl
  · extract_lets was t
    have hwas : was.runs = s.runs := rfl
    have ht : t.runs = was.runs := (calFail_runs ..).trans (State.runs_congr (by simp))
    exact ht.trans hwas

theorem runs_with_cal (c : CalState) (s : State) : State.runs { s with cal := c } = s.runs := rfl

theorem calStep5_runs (pairs : List PairMeas) (levels : List LevelMeas) (s : State) : (calStep5 pairs levels s).runs = s.runs := by
  unfold calStep5
  split
  · rfl
  · extract_lets cal s1
    have hs1 : s1.runs = s.runs := rfl
    have ht := calFail_runs (calBad s1 levels) s1
    generalize calFail (calBad s1 levels) s1 = r at ht
    rw [hs1] at ht
    obtain ⟨t, taken⟩ := r
    dsimp only
    split
    · exact (runs_with_cal _ t).trans ht
    · exact ht

theorem stands_calStep3 (l : List SliceMeas) (s : State) : s.Stands (calStep3 l s) := .of_eqs (by simp) (calStep3_runs l s)

theorem stands_calStep5 (pairs : List PairMeas) (levels : List LevelMeas) (s : State) : s.Stands (calStep5 pairs levels s) :=
  .of_eqs (by simp) (calStep5_runs pairs levels s)

theorem stands_calStep6 (s : State) : s.Stands (calStep6 s) := .of_eqs (by simp) (State.runs_congr (by simp))

theorem stands_ocxoLost (s : State) : s.Stands (ocxoLost s) := by
  unfold ocxoLost
  split <;> exact ⟨rfl, .refl _, rfl, rfl, rfl, rfl, rfl, rfl, rfl⟩

theorem stands_refEval (s : State) : s.Stands (refEval s) := by
  unfold refEval
  extract_lets clocks s1 d
  have h1 : s.Stands s1 := .ite (.of_eqs (by simp) rfl) (.refl s)
  exact h1.trans (.ite (.refl _) (.ite (stands_ocxoLost _) (.of_eqs (by simp) rfl)))

theorem stands_warmWait (s : State) : s.Stands { s with power := { s.power with warmWait := warmOpen s } } :=
  ⟨rfl, .refl _, rfl, rfl, rfl, rfl, rfl, rfl, rfl⟩

theorem stands_tickJudge (o : TickObs) (len : Nat) (suspended : Bool) (s : State) :
    s.Stands (tickJudge o len suspended s) := by
  unfold tickJudge
  extract_lets s1 s2 s3 s4 power s5
  have h1 : s.Stands s1 := ((stands_wrapGrid s).trans (stands_suspectTick _)).trans (stands_mapTick ..)
  have h2 : s1.Stands s2 := ((stands_calStep3 _ s1).trans (stands_calStep5 ..)).trans (stands_calStep6 _)
  have h3 : s2.Stands s3 := ((stands_forNat 4 _ s2 stands_visitStart).trans (stands_auxResume _)).trans (stands_tickLaunch _)
  have h4 : s3.Stands s4 := (stands_refEval s3).trans (stands_forNat 11 _ _ stands_gateTick)
  have h5 : s4.Stands s5 := .ite (stands_warmWait s4) (.refl s4)
  exact ((((h1.trans h2).trans h3).trans h4).trans h5).trans (stands_allowances ..)

/-! What was stamped before the tick and waits for the frame that it begins. -/

theorem stands_trgOffer (u : Nat) (ev : TrgEvent) (s : State) : s.Stands (trgOffer u ev s) :=
  .of_eqs (by simp) (State.runs_congr (by simp))

theorem stands_auxHold (s : State) : s.Stands (auxHold s) := by
  unfold auxHold
  split
  · exact .of_eqs (by simp) (State.runs_congr (by simp))
  · exact .refl s

theorem stands_trgOfferAll (kind sel : Nat) (ev : TrgEvent) (s : State) : s.Stands (trgOfferAll kind sel ev s) :=
  stands_forNat 8 _ s fun u _ => .ite (stands_trgOffer u ev _) (.refl _)

theorem stands_launch (t : TW) (s : State) : s.Stands (launch t s) := .of_eqs (by simp) (State.runs_congr (by simp))

theorem stands_windowEvent (w : Nat) (s : State) : s.Stands (windowEvent w s) := by
  unfold windowEvent
  extract_lets q g t aux s1 s2
  have h1 : s.Stands s1 := .of_eqs (by simp [s1]) rfl
  have h2 : s1.Stands s2 := .ite (stands_launch ..) (.refl s1)
  exact .ite (.refl s) ((h1.trans h2).trans (stands_trgOfferAll ..))

theorem stands_evTake (x : Nat) (rising : Bool) (stamp : TW) (now : Nat) (s : State) : s.Stands (evTake x rising stamp now s) :=
  .of_eqs (by simp) (State.runs_congr (by simp))

theorem stands_takeLate (l : Late) (s : State) : s.Stands (takeLate l s) := by
  cases l with
  | edge x rising t now shift => exact .ite ⟨rfl, rfl, rfl, rfl, rfl, rfl, rfl, rfl, rfl⟩ (stands_evTake ..)
  | hold => exact stands_auxHold s
  | window w => exact stands_windowEvent w s

theorem stands_lateTick (s : State) : s.Stands (lateTick s) :=
  have h : s.Stands { s with time.late := [] } := ⟨rfl, rfl, rfl, rfl, rfl, rfl, rfl, rfl, rfl⟩
  h.trans (stands_forList _ _ _ stands_takeLate)

/-! The background slice (step 5 of R32). -/

theorem stands_taskEnd (s : State) : s.Stands (taskEnd s) := .of_eqs (by simp) (State.runs_congr (by simp))

theorem stands_settle (s : State) : s.Stands (settle s) := .of_eqs (by simp) (State.runs_congr (by simp))

theorem stands_healthEnqueue (s : State) : s.Stands (healthEnqueue s) := .of_eqs (by simp) (State.runs_congr (by simp))

theorem stands_evaluate (a : Nat × Int × Bool) (s : State) : s.Stands (evaluate a s) :=
  .of_eqs (by simp) (State.runs_congr (by simp))

theorem stands_patrolTick (l : List MemError) (s : State) : s.Stands (patrolTick l s) :=
  .of_eqs (by simp) (State.runs_congr (by simp))

theorem stands_selfTestTick (s : State) : s.Stands (selfTestTick s) := .of_eqs (by simp) (State.runs_congr (by simp))

theorem stands_takeTemp (a : Nat × Int × Bool) (s : State) : s.Stands (takeTemp a s) :=
  .of_eqs (by simp) (State.runs_congr (by simp))

/-! SAFE (R395): streams, units and waiting operations end. -/

theorem toSafe_mode (s : State) : (toSafe s).power.mode = .safe := by
  unfold toSafe
  split
  · assumption
  · dsimp only
    simp [Power.toSafe]

theorem toSafe_sched (s : State) : (toSafe s).act.sched = [] ∨ (toSafe s).act.sched = s.act.sched := by
  unfold toSafe
  split
  · exact .inr rfl
  · left
    dsimp only
    simp [calStop, cancelAll, hoistReturn]

theorem toSafe_conf (s : State) :
    (toSafe s).conf.cfg = s.conf.cfg ∧ (toSafe s).conf.generation = s.conf.generation ∧
    (toSafe s).conf.digest = s.conf.digest := by
  unfold toSafe
  split
  · exact ⟨rfl, rfl, rfl⟩
  · dsimp only
    simp [calStop, cancelAll, hoistReturn, stopAll]

theorem toSafe_ovens (s : State) :
    (toSafe s).power.refOven = s.power.refOven ∧ (toSafe s).power.ocxoOven = s.power.ocxoOven := by
  unfold toSafe
  split
  · exact ⟨rfl, rfl⟩
  · dsimp only
    simp [Power.toSafe, calStop, cancelAll, hoistReturn, stopAll]

theorem standsOrSafe_toSafe (s : State) : s.StandsOrSafe (toSafe s) := by
  obtain ⟨hcfg, hgen, hdig⟩ := toSafe_conf s
  obtain ⟨href, hocxo⟩ := toSafe_ovens s
  exact ⟨by simp, .of_eq (by simp), by simp, hcfg, hgen, hdig, (toSafe_sched s).elim (fun h _ => h) Eq.trans, href,
    hocxo, fun h => absurd (toSafe_mode s) h⟩

theorem standsOrSafe_enterSafe (s : State) : s.StandsOrSafe (enterSafe s) :=
  (standsOrSafe_toSafe s).trans ((stands_sendCompletions _).trans (stands_sendLate _)).orSafe

theorem stands_raisePn (n : Nat) (s : State) : s.Stands (raisePn n s) := .of_eqs (by simp) rfl

theorem stands_retirePrimary (codes : List Int) (s : State) : s.Stands (retirePrimary codes s) :=
  .of_eqs (by simp) (State.runs_congr (by simp))

theorem stands_judgeZener (code : Int) (clip : Bool) (s : State) : s.Stands (judgeZener code clip s) := by
  unfold judgeZener
  extract_lets d zs ref s1 l ref' s2
  have h2 : s.Stands s2 := .of_eqs ⟨rfl, rfl, rfl, rfl, rfl, rfl⟩ rfl
  have hdue : s2.Stands { s2 with power := { s2.power with
      safeDue := s2.power.safeDue || decide (s2.power.mode ≠ .safe), bootOnly := true } } :=
    ⟨rfl, .refl _, rfl, rfl, rfl, rfl, rfl, rfl, rfl⟩
  exact .ite (.refl s) (h2.trans (.ite (hdue.trans (stands_raisePn 2 _)) (.ite (stands_retirePrimary l s2) (.refl s2))))

theorem standsOrSafe_bufCheck (g : Nat) (s : State) : s.StandsOrSafe (bufCheck g s) := by
  unfold bufCheck
  extract_lets d s1
  have h1 : s.Stands s1 := stands_raisePn 2 s
  split
  · split
    · exact h1.orSafe.trans (standsOrSafe_enterSafe s1)
    · exact (h1.trans (.of_eqs (by simp) (State.runs_congr (by simp)))).orSafe
  · exact (State.Stands.refl s).orSafe

theorem standsOrSafe_supervise (got : List (Nat × Int × Bool)) (s : State) : s.StandsOrSafe (supervise got s) := by
  unfold supervise
  extract_lets s1 now s2
  have h1 : s.Stands s1 := stands_forList _ _ s fun a => stands_judgeZener a.2.1 a.2.2
  have h2 : s1.Stands s2 := .of_eqs (by simp [s2]) rfl
  exact (h1.trans h2).orSafe.trans (standsOrSafe_forNat 4 _ s2 standsOrSafe_bufCheck)

theorem stands_emptyWord (e : MemError) (s : State) : s.Stands (emptyWord e s) :=
  .of_eqs (by simp) (State.runs_congr (by simp))

theorem stands_sramCount (e : MemError) (bad : Bool) (s : State) : s.Stands (sramCount e bad s) :=
  .of_eqs (by simp) (State.runs_congr (by simp))

theorem stands_with_buf (b : Buffers) (s : State) : s.Stands { s with buf := b } := .of_eqs ⟨rfl, rfl, rfl, rfl, rfl, rfl⟩ rfl

theorem stands_with_health (h : Health) (s : State) : s.Stands { s with health := h } :=
  .of_eqs ⟨rfl, rfl, rfl, rfl, rfl, rfl⟩ rfl

/-- A ring that a word error has reached loses a record, and the error is counted. -/
theorem stands_ringError (e : MemError) {s t : State} (ht : s.Stands t) :
    s.Stands (raisePn 9 (sramCount e true t)) :=
  (ht.trans (stands_sramCount e true t)).trans (stands_raisePn 9 _)

theorem standsOrSafe_sramError (a : SramArea) (e : MemError) (s : State) : s.StandsOrSafe (sramError a e s) := by
  unfold sramError
  split
  · split
    · next x _ =>
      refine (State.Stands.trans ?_ (stands_sramCount ..)).orSafe
      exact (stands_wordFault (x.frame, s) _).trans (stands_with_buf _ _)
    · exact (stands_emptyWord e s).orSafe
  · extract_lets l
    split
    · next f _ =>
      refine (State.Stands.trans ?_ (stands_sramCount ..)).orSafe
      exact (stands_wordFault (f, s) _).trans (stands_with_buf _ _)
    · exact (stands_emptyWord e s).orSafe
  · split
    · dsimp only [fresh]
      refine (stands_ringError e ?_).orSafe
      exact .of_eqs ⟨rfl, rfl, rfl, rfl, rfl, rfl⟩ rfl
    · exact (stands_sramCount e false s).orSafe
  · split
    · dsimp only [fresh]
      refine (stands_ringError e ?_).orSafe
      exact .of_eqs ⟨rfl, rfl, rfl, rfl, rfl, rfl⟩ rfl
    · exact (stands_sramCount e false s).orSafe
  · split
    · exact (stands_ringError e (.refl s)).orSafe.trans (standsOrSafe_enterSafe _)
    · exact (stands_sramCount e false s).orSafe
  · exact (stands_emptyWord e s).orSafe

theorem standsOrSafe_scrubTick (l : List (SramArea × MemError)) (s : State) : s.StandsOrSafe (scrubTick l s) := by
  have h := standsOrSafe_forList l (fun p => sramError p.1 p.2) s fun p => standsOrSafe_sramError p.1 p.2
  exact h.trans (stands_with_health _ _).orSafe

theorem standsOrSafe_slice (o : TickObs) (s : State) : s.StandsOrSafe (slice o s) := by
  unfold slice
  extract_lets got s1 s2 s3 s4 s5 s6
  have h1 : s.Stands s1 := (((stands_taskEnd s).trans (stands_healthEnqueue _)).trans
    (stands_forList _ _ _ stands_evaluate)).trans (stands_taskEnd _)
  have h2 : s1.StandsOrSafe s2 := (standsOrSafe_supervise got s1).trans (stands_taskEnd _).orSafe
  have h3 : s2.Stands s3 := (stands_patrolTick _ s2).trans (stands_taskEnd _)
  have h4 : s3.StandsOrSafe s4 := (standsOrSafe_scrubTick _ s3).trans (stands_taskEnd _).orSafe
  have h5 : s4.Stands s5 := (stands_selfTestTick s4).trans (stands_settle _)
  have h6 : s5.Stands s6 := stands_forList _ _ s5 stands_takeTemp
  have h7 : s6.Stands { s6 with aux.arrived := s6.aux.arrived.drop got.length } := .of_eqs ⟨rfl, rfl, rfl, rfl, rfl, rfl⟩ rfl
  exact ((((h1.orSafe.trans h2).trans h3.orSafe).trans h4).trans h5.orSafe).trans (h6.trans h7).orSafe

theorem standsOrSafe_background (o : TickObs) (hoist short : Bool) (s : State) :
    s.StandsOrSafe (background o hoist short s) := by
  unfold background
  split
  · refine State.Stands.orSafe (State.Stands.trans ?_ (stands_with_health _ _))
    exact .ite (stands_raisePn 17 s) (.refl s)
  · exact standsOrSafe_slice o s

end Sys2Proof.Machine

/-! SUPPORT AND PROOFS. Frame tick: the instant of the tick (R15, R20, R32) and the frame number (R21). -/

namespace Sys2Proof.Machine

/-! ### FRAME_TICK in its parts (R32) -/

/-- The module has come to the tick: the time word, the operations that come due, the entry into SAFE and the sensors. -/
def tickReach (o : TickObs) (s : State) : State :=
  tickTune o.tune (tickPorts (tickOvens o (tickSafe (countTick (toTick (decideOffers s))))))

/-- The frames of the frame that has ended, as it was at the tick `was`. -/
def tickEnded (o : TickObs) (was : State) (finals : List Nat) (s : State) : State :=
  spillCheck o.spillFaults (sendLate (telemetry (sendCompletions (pennantNotices was
    (drainAll o (closeTick was (runningStreams was) finals s))))))

/-- A tick, from the close of the frame that has ended; b is what steps 2 to 4 have made of the state `was`. -/
def tickClose (o : TickObs) (was : State) (hoist : Bool) (b : Fired) : State :=
  let ended := tickEnded o was b.finals b.st
  let changed := decide (levelNow ended ≠ levelNow was)
  let judged := tickJudge o (frameLen was.time.frameTw was.time.tw) (changed || ended.time.shortFrame) (latchFrame ended)
  background o (hoist || changed) judged.time.shortFrame (lateTick judged)

/-- Steps 2 to 4 of R32 from a tick that the module has come to. -/
def tickFire (s : State) : Fired :=
  tickOps s.time.tw (tickHead (clearNoted s)).2 (levelNow s) (tickHead (clearNoted s)).1

theorem frameTick_eq (o : TickObs) (s : State) :
    frameTick o s =
      tickClose o (tickReach o s) (tickHead (clearNoted (tickReach o s))).2 (tickFire (tickReach o s)) := by
  unfold frameTick
  extract_lets s1 was ran level len
  change _ = tickClose o s1 (tickHead (clearNoted s1)).2
    (tickOps s1.time.tw (tickHead (clearNoted s1)).2 level (tickHead (clearNoted s1)).1)
  generalize tickHead (clearNoted s1) = x
  obtain ⟨a, hoist⟩ := x
  dsimp only [tickClose, tickEnded, was, ran, level, len]
  congr 1

theorem stands_tickEnded (o : TickObs) (was : State) (finals : List Nat) (s : State) : s.Stands (tickEnded o was finals s) :=
  ((((((stands_closeTick was _ finals s).trans (stands_drainAll o _)).trans (stands_pennantNotices was _)).trans
    (stands_sendCompletions _)).trans (stands_telemetry _)).trans (stands_sendLate _)).trans (stands_spillCheck ..)

/-- What has been reached is latched alike. -/
theorem State.Stands.latchFrame {s t : State} (h : s.Stands t) : (latchFrame s).Stands (latchFrame t) := by
  obtain ⟨hp, htime, hf, hc, ha, hr, ho, hm, hs⟩ := h
  refine ⟨hp, htime, ?_, hc, ha, hr, ho, hm, hs⟩
  have htw : t.time.tw = s.time.tw := htime.tw
  have hep : t.time.epoch = s.time.epoch := htime.epoch
  have htf : tf t = tf s := by unfold tf cfgAt; rw [hc]
  simp only [Machine.latchFrame, htw, hep, htf, hc]

theorem stands_background_of_hoist (o : TickObs) (short : Bool) (s : State) : s.Stands (background o true short s) := by
  unfold background
  rw [Bool.true_or, if_pos rfl]
  exact State.Stands.trans (.ite (stands_raisePn 17 s) (.refl s)) (stands_with_health _ _)

theorem tickClose_eq (o : TickObs) (was : State) (hoist : Bool) (b : Fired) :
    ∃ changed short u, tickClose o was hoist b = background o (hoist || changed) short u ∧ (latchFrame b.st).Stands u :=
  ⟨_, _, _, rfl, ((stands_tickEnded o was _ _).latchFrame.trans (stands_tickJudge ..)).trans (stands_lateTick _)⟩

/-- After its operations a tick leaves what they have reached, but for an entry into SAFE of the background slice. -/
theorem standsOrSafe_frameTick (o : TickObs) (s : State) :
    (latchFrame (tickFire (tickReach o s)).st).StandsOrSafe (frameTick o s) := by
  rw [frameTick_eq]
  obtain ⟨_, _, _, ht, hu⟩ :=
    tickClose_eq o (tickReach o s) (tickHead (clearNoted (tickReach o s))).2 (tickFire (tickReach o s))
  rw [ht]
  exact hu.orSafe.trans (standsOrSafe_background ..)

/-- A tick that has judged a hoist has no background slice (R393). -/
theorem stands_frameTick_of_hoist (o : TickObs) (s : State) (hh : (tickHead (clearNoted (tickReach o s))).2 = true) :
    (latchFrame (tickFire (tickReach o s)).st).Stands (frameTick o s) := by
  rw [frameTick_eq, hh]
  obtain ⟨_, _, _, ht, hu⟩ := tickClose_eq o (tickReach o s) true (tickFire (tickReach o s))
  rw [ht, Bool.true_or]
  exact hu.trans (stands_background_of_hoist ..)

theorem exec_frameTick {o : TickObs} {s : State} (hl : live s = true) (hh : s.power.hibEntry = false) :
    exec (.frameTick o) s = .next (settle (frameTick o s)) := by
  change execFrameTick o s = _
  unfold execFrameTick
  rw [if_pos hl, hh]
  rfl

/-! ### The module at a tick, before its operations -/

/-- The present instant is the tick of s; the epoch and a setting that waits are those of s. -/
structure TimeEng.AtTick (s : State) (t : TimeEng) : Prop where
  tw : t.tw = s.time.nextTick
  frac : t.frac = 0
  cyc : t.cyc = s.time.cyc + 1024 * wholeCycles s
  pt : t.pt = t.cyc + tickOffset s
  epoch : t.epoch = s.time.epoch
  setPending : t.setPending = s.time.setPending

theorem TimeEng.AtTick.of_at_ (s : State) (n units : Nat) (hn : n = wholeCycles s) :
    TimeEng.AtTick s ((s.time.toCycle n units).at_ (s.time.toCycle n units).nextTick 0
      ((s.time.toCycle n units).cyc + tickOffset s)) :=
  ⟨rfl, rfl, hn ▸ rfl, rfl, rfl, rfl⟩

theorem TimeEng.AtTick.frameTw {s : State} {t : TimeEng} (h : TimeEng.AtTick s t) (x : TW) :
    TimeEng.AtTick s { t with frameTw := x } := ⟨h.tw, h.frac, h.cyc, h.pt, h.epoch, h.setPending⟩

theorem wholeCycles_congr {s t : State} (h : t.time = s.time) : wholeCycles t = wholeCycles s := by
  unfold wholeCycles toTickUnits; rw [h]

theorem tickOffset_congr {s t : State} (h : t.time = s.time) : tickOffset t = tickOffset s := by
  unfold tickOffset wholeUnits toTickUnits; rw [h, wholeCycles_congr h]

theorem TimeEng.AtTick.congr {s x : State} {t : TimeEng} (h : TimeEng.AtTick x t) (hx : x.time = s.time) : TimeEng.AtTick s t := by
  obtain ⟨htw, hfrac, hcyc, hpt, hep, hset⟩ := h
  rw [hx] at htw hcyc hep hset
  rw [wholeCycles_congr hx] at hcyc
  rw [tickOffset_congr hx] at hpt
  exact ⟨htw, hfrac, hcyc, hpt, hep, hset⟩

/-- A module that is brought to the start of a cycle goes on inside it to the tick. -/
theorem time_at_of_cycle (x : State) (t : TimeEng) (off : Nat) :
    (let s : State := { x with time := t }
     ({ s with time := s.time.at_ s.time.nextTick 0 (s.time.cyc + off) } : State)).time = t.at_ t.nextTick 0 (t.cyc + off) := rfl

theorem toTick_time (s : State) :
    (toTick s).time = (s.time.toCycle (wholeCycles s) (wholeUnits s)).at_
      (s.time.toCycle (wholeCycles s) (wholeUnits s)).nextTick 0
      ((s.time.toCycle (wholeCycles s) (wholeUnits s)).cyc + tickOffset s) :=
  time_at_of_cycle _ _ _

theorem toTick_atTick (s : State) : TimeEng.AtTick s (toTick s).time := by
  rw [toTick_time]
  exact .of_at_ s _ _ rfl

/-- The state that the tick finds: the instant is that of the tick, and the operations that wait have counted it. -/
def tickCome (s : State) : State := countTick (toTick (decideOffers s))

theorem tickCome_atTick (s : State) : TimeEng.AtTick s (tickCome s).time :=
  (toTick_atTick (decideOffers s)).congr (by simp)

theorem tickReach_atTick (o : TickObs) (s : State) : TimeEng.AtTick s (tickReach o s).time := by
  have h := tickCome_atTick s
  have hs : (tickReach o s).time = (tickSafe (tickCome s)).time := by simp [tickReach, tickCome]
  rw [hs]
  unfold tickSafe
  split
  · have ht := h.frameTw (tickCome s).time.tw
    simpa using ht
  · exact h

theorem tickReach_pending (o : TickObs) (s : State) : (tickReach o s).pending = s.pending := by simp [tickReach]

theorem tickReach_ovens (o : TickObs) (s : State) :
    (tickReach o s).power.refOven = o.refOven ∧ (tickReach o s).power.ocxoOven = o.ocxoOven := by
  simp [tickReach, tickOvens]

theorem tickReach_setDue (o : TickObs) (s : State) : (tickReach o s).ptp.setDue = s.ptp.setDue := by simp [tickReach, tickPorts]

/-- What the conditions of timed operations look at, but for the present instant, is the same in s and t. -/
structure State.SameBasis (s t : State) : Prop where
  conf : t.conf = s.conf
  cal : t.cal = s.cal
  dies : t.dies = s.dies
  streams : t.streams = s.streams
  res : t.buf.res = s.buf.res
  slotState : t.store.slotState = s.store.slotState
  level : levelNow t = levelNow s
  mode : t.power.mode = s.power.mode
  quality : t.time.quality = s.time.quality

theorem State.SameBasis.trans {a b c : State} (h : a.SameBasis b) (k : b.SameBasis c) : a.SameBasis c :=
  ⟨k.conf.trans h.conf, k.cal.trans h.cal, k.dies.trans h.dies, k.streams.trans h.streams, k.res.trans h.res,
    k.slotState.trans h.slotState, k.level.trans h.level, k.mode.trans h.mode, k.quality.trans h.quality⟩

theorem ignoreWrites_res (n : Nat) (s : State) : (ignoreWrites n s).buf.res = s.buf.res := by
  unfold ignoreWrites
  split
  · rfl
  · dsimp only
    split <;> rfl

theorem writeCycles_res (n : Nat) (s : State) : (writeCycles n s).buf.res = s.buf.res := ignoreWrites_res ..

theorem toTick_buf (s : State) : (toTick s).buf = (writeCycles (wholeCycles s) s).buf := by simp only [toTick]

theorem countTick_sched (s : State) : (countTick s).act.sched = s.act.sched.map (Sched.tick s.time.tw) := rfl

theorem tickCome_res (s : State) : (tickCome s).buf.res = s.buf.res := by
  unfold tickCome
  simp [toTick_buf, writeCycles_res]

theorem tickCome_sched (s : State) : (tickCome s).act.sched = s.act.sched.map (Sched.tick s.time.nextTick) := by
  unfold tickCome
  rw [countTick_sched, (toTick_atTick _).tw]
  simp

theorem quality_at_toCycle (t : TimeEng) (n units pt : Nat) (w : TW) :
    ((t.toCycle n units).at_ w 0 pt).quality = t.quality := rfl

theorem tickReach_quality (o : TickObs) (s : State) : (tickReach o s).time.quality = s.time.quality := by
  have h (x : State) : (toTick x).time.quality = x.time.quality := by rw [toTick_time, quality_at_toCycle]
  simp [tickReach, h]

section
variable (o : TickObs) {s : State} (h : s.power.safeDue = false)
include h

theorem tickReach_of_no_safe : tickReach o s = tickTune o.tune (tickPorts (tickOvens o (tickCome s))) := by
  have hs : tickSafe (tickCome s) = tickCome s := if_neg (by simp [tickCome, h])
  rw [← hs]
  rfl

theorem tickReach_sched : (tickReach o s).act.sched = s.act.sched.map (Sched.tick s.time.nextTick) := by
  rw [tickReach_of_no_safe o h]
  simpa using tickCome_sched s

theorem tickReach_sameBasis : s.SameBasis (tickReach o s) := by
  have hq := tickReach_quality o s
  rw [tickReach_of_no_safe o h] at hq ⊢
  constructor
  case res => simpa using tickCome_res s
  case level => simp [tickTune, levelNow, tickCome]
  case quality => exact hq
  all_goals simp [tickCome]

end

theorem TimeEng.AtTick.course {s : State} {t u : TimeEng} (h : TimeEng.AtTick s t) (k : t.SameCourse u) :
    TimeEng.AtTick s u := by
  obtain ⟨htw, hfrac, hcyc, hpt, hep, hset⟩ := h
  rw [k]
  exact ⟨htw, hfrac, hcyc, hpt, hep, hset⟩

/-! ### The operations of a tick without a time step -/

/-- From s to t the present instant, the commands that wait and the ovens have not changed. -/
structure State.SameInstant (s t : State) : Prop where
  pending : t.pending = s.pending
  course : s.time.SameCourse t.time
  refOven : t.power.refOven = s.power.refOven
  ocxoOven : t.power.ocxoOven = s.power.ocxoOven

theorem State.SameInstant.refl (s : State) : s.SameInstant s := ⟨rfl, .refl _, rfl, rfl⟩

theorem State.SameInstant.trans {a b c : State} (h : a.SameInstant b) (k : b.SameInstant c) : a.SameInstant c :=
  ⟨k.pending.trans h.pending, h.course.trans k.course, k.refOven.trans h.refOven, k.ocxoOven.trans h.ocxoOven⟩

theorem State.SameInstant.of_eqs {s t : State} (h : t.pending = s.pending ∧ t.time = s.time ∧ t.power = s.power) :
    s.SameInstant t := by
  obtain ⟨hp, ht, hm⟩ := h
  exact ⟨hp, .of_eq ht, by rw [hm], by rw [hm]⟩

theorem State.SameInstant.ite {s : State} {c : Prop} [Decidable c] {a b : State} (ha : s.SameInstant a) (hb : s.SameInstant b) :
    s.SameInstant (if c then a else b) := by
  split
  · exact ha
  · exact hb

theorem State.Stands.sameInstant {s t : State} (h : s.Stands t) : s.SameInstant t :=
  ⟨h.pending, h.course, h.refOven, h.ocxoOven⟩

theorem sameInstant_linkFollow (s : State) : s.SameInstant (linkFollow s) := by
  unfold linkFollow
  split
  · split
    · exact .refl s
    · exact (stands_refEval s).sameInstant
  · exact .refl s

theorem sameInstant_masterUpdate (s : State) : s.SameInstant (masterUpdate s) := by
  refine ⟨by simp, sameCourse_masterUpdate s, ?_, ?_⟩ <;>
  · unfold masterUpdate
    dsimp only
    split
    · simp
    · simp [(sameInstant_linkFollow (masterChoice s)).refOven, (sameInstant_linkFollow (masterChoice s)).ocxoOven]

theorem sameInstant_hoistNet (was : State) (content : KV) (s : State) : s.SameInstant (hoistNet was content s) := by
  unfold hoistNet
  dsimp only
  split
  · exact .trans (.of_eqs (by simp)) (sameInstant_masterUpdate _)
  · exact .of_eqs (by simp)

theorem sameInstant_commit (content : KV) (k : BitVec 128) (s : State) : s.SameInstant (commit content k s) := by
  unfold commit
  extract_lets now c lv conf0 conf t0 t1 t2 clocks t3
  have h1 : s.SameInstant t1 := .of_eqs (by simp [t1, t0])
  have h2 : t1.SameInstant t2 := .trans (.of_eqs (by simp)) (sameInstant_hoistNet ..)
  have h3 : t2.SameInstant t3 := .ite (.refl t2) (.of_eqs ⟨rfl, rfl, rfl⟩)
  exact ((h1.trans h2).trans h3).trans (.of_eqs (by simp))

theorem sameInstant_fireHoist (old : TW) (e : Sched) (a : Fired) : a.st.SameInstant (fireHoist old e a).st := by
  unfold fireHoist
  extract_lets s1
  have h1 : a.st.SameInstant s1 := .of_eqs ⟨rfl, rfl, rfl⟩
  split
  · exact h1
  · next h hh =>
    extract_lets x s2 conf s3
    have h2 : s1.SameInstant s2 := by
      unfold s2
      split
      · exact sameInstant_commit ..
      · exact .of_eqs (by simp)
    exact (h1.trans h2).trans (.of_eqs (by simp [s3]))

theorem sameInstant_fireEffect (e : Sched) (he : isStep e.op = false) (s : State) : s.SameInstant (fireEffect e s) := by
  refine .of_eqs ?_
  unfold fireEffect
  split <;> simp_all [isStep]

theorem sameInstant_fireOne (old : TW) (e : Sched) (he : isStep e.op = false) (a : Fired) :
    a.st.SameInstant (fireOne old a e).st := by
  unfold fireOne
  split
  · exact .refl _
  · extract_lets s1 code s2 r s3
    have h1 : a.st.SameInstant s1 := .of_eqs ⟨rfl, rfl, rfl⟩
    have h2 : s1.SameInstant s2 := .ite (sameInstant_fireEffect e he s1) (.refl s1)
    have h3 : s2.SameInstant s3 := .ite (.of_eqs (by simp)) (.refl s2)
    exact (h1.trans h2).trans h3

theorem sameInstant_foldl {f : Fired → Sched → Fired} {l : List Sched}
    (h : ∀ e ∈ l, ∀ a : Fired, a.st.SameInstant (f a e).st) (a : Fired) : a.st.SameInstant (l.foldl f a).st := by
  induction l generalizing a with
  | nil => exact .refl _
  | cons e l ih => exact (h e List.mem_cons_self a).trans (ih (fun x hx => h x (List.mem_cons_of_mem e hx)) _)

theorem sameInstant_fireOps (old : TW) (hoist : Bool) (level : Nat) (a : Fired) :
    a.st.SameInstant (fireOps old hoist level a).st := by
  unfold fireOps
  extract_lets s l room
  split
  · exact .refl _
  · refine sameInstant_foldl (fun e he b => ?_) a
    have hstep : isStep e.op = false := by simpa using (List.mem_filter.mp he).2
    split
    · exact sameInstant_fireOne old e hstep b
    · exact .refl _

theorem sameInstant_runMode (s : State) : s.SameInstant (runMode s) := by
  unfold runMode
  (repeat' split) <;> exact ⟨rfl, .refl _, rfl, rfl⟩

theorem sameInstant_tickOps (old : TW) (hoist : Bool) (level : Nat) (a : Fired) :
    a.st.SameInstant (tickOps old hoist level a).st := by
  unfold tickOps
  extract_lets b c
  have h1 : a.st.SameInstant b.st := .of_eqs (by simp [b])
  have h2 : b.st.SameInstant c.st := sameInstant_fireOps ..
  exact ((h1.trans h2).trans (.of_eqs (by simp))).trans (sameInstant_runMode _)

theorem mem_insSched {s : State} {a x : Sched} {l : List Sched} : x ∈ insSched s a l ↔ x = a ∨ x ∈ l := by
  induction l with
  | nil => simp [insSched]
  | cons b l ih =>
    unfold insSched
    split
    · simp
    · simp [ih, or_left_comm]

theorem mem_sortSched {s : State} {x : Sched} {l : List Sched} : x ∈ sortSched s l ↔ x ∈ l := by
  suffices h : ∀ acc, x ∈ l.foldl (fun acc a => insSched s a acc) acc ↔ x ∈ acc ∨ x ∈ l by simpa [sortSched] using h []
  induction l with
  | nil => simp
  | cons b l ih =>
    intro acc
    rw [List.foldl_cons, ih, mem_insSched]
    simp [or_assoc, or_left_comm]

theorem mem_dueOps {s : State} {e : Sched} (h : e ∈ dueOps s) : e ∈ s.act.sched := by
  unfold dueOps at h
  simp only [List.mem_append, mem_sortSched, List.mem_filter] at h
  tauto

/-- Where no time step waits, the tick applies none. -/
theorem dueStep_eq_none {s : State} (h : ∀ e ∈ s.act.sched, isStep e.op = false) : dueStep s = none := by
  unfold dueStep
  rw [List.find?_eq_none]
  intro e he
  rw [h e (mem_dueOps (List.mem_of_mem_filter (List.mem_of_mem_take he)))]
  exact Bool.false_ne_true

theorem fireStep_of_no_step (old : TW) {a : Fired} (h : dueStep a.st = none) : fireStep old a = a := by
  unfold fireStep
  rw [h]
  split <;> rfl

/-- The hoist of the tick, where one is due, and the frame that opens after it; `a` is what the time step has left. -/
def hoistAndOpen (old : TW) (a : Fired) : Fired × Bool :=
  if shortAt (tf a.st) a.st.time.tw then ({ a with st := retick (openFrame a.st) }, false)
  else match dueHoist a.st with
    | some e => let b := fireHoist old e a; ({ b with st := retick (openFrame b.st) }, true)
    | none => ({ a with st := retick (openFrame a.st) }, false)

/-- Operations that a time step brings to their tick, or past it, are due. -/
def Fired.afterStep (a : Fired) : Fired := { a with st := dueAfterStep a.st }

theorem tickHead_eq (s : State) :
    tickHead s = hoistAndOpen s.time.tw (fireStep s.time.tw ⟨setTime s, [], 0⟩).afterStep := rfl

theorem tickHead_of_no_step {s : State} (hset : setTime s = s) (hstep : dueStep s = none) :
    tickHead s = hoistAndOpen s.time.tw (Fired.afterStep ⟨s, [], 0⟩) := by
  rw [tickHead_eq, hset, fireStep_of_no_step s.time.tw (a := ⟨s, [], 0⟩) hstep]

theorem sameInstant_hoistAndOpen (old : TW) (a : Fired) :
    ∃ b : Fired, a.st.SameInstant b.st ∧ (hoistAndOpen old a).1 = { b with st := retick (openFrame b.st) } := by
  unfold hoistAndOpen
  split
  · exact ⟨a, .refl _, rfl⟩
  · split
    · next e _ => exact ⟨fireHoist old e a, sameInstant_fireHoist .., rfl⟩
    · exact ⟨a, .refl _, rfl⟩

theorem setTime_eq_self {s : State} (hd : s.ptp.setDue = false) (hp : s.time.setPending = none) : setTime s = s := by
  unfold setTime
  rw [hd, hp]
  rfl

theorem Sched.tick_op (now : TW) (e : Sched) : (e.tick now).op = e.op := rfl

/-- The operations that wait at the tick are those that waited before it, or none after an entry into SAFE. -/
theorem tickReach_no_step (o : TickObs) {s : State} (h : ∀ e ∈ s.act.sched, isStep e.op = false) :
    ∀ e ∈ (tickReach o s).act.sched, isStep e.op = false := by
  have hcome : ∀ e ∈ (tickCome s).act.sched, isStep e.op = false := by
    rw [tickCome_sched]
    simpa [Sched.tick_op] using h
  have hr : (tickReach o s).act.sched = (tickSafe (tickCome s)).act.sched := by simp [tickReach, tickCome]
  rw [hr]
  unfold tickSafe
  split
  · obtain h | h := toSafe_sched { tickCome s with time := { (tickCome s).time with frameTw := (tickCome s).time.tw } }
    · rw [h]; exact nofun
    · rw [h]; exact hcome
  · exact hcome

/-- A tick with no setting and no step is reached exactly, and its frame begins at it. -/
theorem tickFire_of_no_step {s r : State} (hat : TimeEng.AtTick s r.time) (hd : r.ptp.setDue = false)
    (hp : s.time.setPending = none) (hstep : ∀ e ∈ r.act.sched, isStep e.op = false) :
    TimeEng.AtTick s (tickFire r).st.time ∧ (tickFire r).st.time.frameTw = s.time.nextTick ∧
    (tickFire r).st.pending = r.pending ∧ (tickFire r).st.power.refOven = r.power.refOven ∧
    (tickFire r).st.power.ocxoOven = r.power.ocxoOven := by
  have hset : setTime (clearNoted r) = clearNoted r := setTime_eq_self hd (hat.setPending.trans hp)
  have hhead := tickHead_of_no_step hset (dueStep_eq_none (s := clearNoted r) hstep)
  obtain ⟨a, ha, hframe⟩ := sameInstant_hoistAndOpen (clearNoted r).time.tw (Fired.afterStep ⟨clearNoted r, [], 0⟩)
  rw [← hhead] at hframe
  unfold tickFire
  rw [hframe]
  have hops := sameInstant_tickOps r.time.tw (tickHead (clearNoted r)).2 (levelNow r) { a with st := retick (openFrame a.st) }
  generalize (tickOps r.time.tw (tickHead (clearNoted r)).2 (levelNow r) { a with st := retick (openFrame a.st) }).st = t at hops
  have hopen : TimeEng.AtTick s (openFrame a.st).time := by
    obtain ⟨htw, hfrac, hcyc, hpt, hep, hset⟩ := TimeEng.AtTick.course (u := a.st.time) hat ha.course
    exact ⟨htw, hfrac, hcyc, hpt, hep, hset⟩
  refine ⟨hopen.course hops.course, ?_, ?_, ?_, ?_⟩
  · exact hops.course.frameTw.trans hopen.tw
  · exact hops.pending.trans ha.pending
  · exact hops.refOven.trans ha.refOven
  · exact hops.ocxoOven.trans ha.ocxoOven

/-- After its operations a tick answers what they have reached, and an entry into SAFE alone may come after them. -/
theorem exec_frameTick_reaches {o : TickObs} {s : State} (hl : live s = true) (hh : s.power.hibEntry = false) :
    ∃ t, exec (.frameTick o) s = .next t ∧ (latchFrame (tickFire (tickReach o s)).st).StandsOrSafe t :=
  ⟨_, exec_frameTick hl hh, (standsOrSafe_frameTick o s).trans (stands_settle _).orSafe⟩

section
variable {s : State} (o : TickObs) (hl : live s = true) (hd : s.ptp.setDue = false) (hp : s.time.setPending = none)
  (hh : s.power.hibEntry = false) (hstep : ∀ e ∈ s.act.sched, isStep e.op = false)
include hl hd hp hh hstep

theorem exec_frameTick_of_no_step :
    ∃ t, exec (.frameTick o) s = .next t ∧ TimeEng.AtTick s t.time ∧ t.time.frameTw = s.time.nextTick ∧
      t.frame = ⟨s.time.nextTick, frameNumber (tf t) s.time.nextTick, s.time.epoch, t.conf.generation, t.conf.digest⟩ ∧
      t.pending = s.pending ∧ t.power.refOven = o.refOven ∧ t.power.ocxoOven = o.ocxoOven := by
  obtain ⟨t, ht, hs⟩ := exec_frameTick_reaches (o := o) hl hh
  obtain ⟨hat, hframe, hpend, href, hocxo⟩ := tickFire_of_no_step (tickReach_atTick o s)
    ((tickReach_setDue o s).trans hd) hp (tickReach_no_step o hstep)
  obtain ⟨hrefo, hocxoo⟩ := tickReach_ovens o s
  generalize (tickFire (tickReach o s)).st = u at hs hat hframe hpend href hocxo
  have htf : tf u = tf t := by unfold tf cfgAt; rw [hs.cfg]; rfl
  refine ⟨t, ht, hat.course hs.course, hs.course.frameTw.trans hframe, ?_, ?_, ?_, ?_⟩
  · rw [hs.frame, hs.generation, hs.digest, ← htf, ← hat.tw, ← hat.epoch]; rfl
  · exact hs.pending.trans (hpend.trans (tickReach_pending o s))
  · exact hs.refOven.trans (href.trans hrefo)
  · exact hs.ocxoOven.trans (hocxo.trans hocxoo)

end

/-! ### FRAME_NUMBER -/

theorem lookup_frameNumber : ∃ row, lookup 0x4000 2 = some row ∧ row.ty.size = 4 ∧ row.acc ≠ .rws := by
  refine ⟨_, rfl, rfl, ?_⟩
  decide

theorem readEntry_frameNumber (s : State) {row : Row} (hsize : row.ty.size = 4) (hacc : row.acc ≠ .rws) :
    readEntry s row 0x4000 2 = octetsOf 4 (frameNumber (tf s) s.time.frameTw) := by
  simp [readEntry, readNat, read6, storedRw, hsize, hacc]

/-- Settles O17: a read of FRAME_NUMBER and the header of the frame that begins have the number of its tick. -/
theorem frameNumbers : Obligations.FrameNumbers := by
  refine ⟨fun _ _ => rfl, fun s => ?_, fun s o hl hd hp hh hstep => ?_⟩
  · obtain ⟨row, hrow, hsize, hacc⟩ := lookup_frameNumber
    exact ⟨row, hrow, readEntry_frameNumber s hsize hacc⟩
  · obtain ⟨t, ht, _, htw, hframe, _⟩ := exec_frameTick_of_no_step o hl hd hp hh hstep
    exact ⟨t, ht, htw, congrArg FrameInfo.number hframe⟩

end Sys2Proof.Machine

/-! SUPPORT AND PROOFS. Frame tick: the operations that are due (R26, R27, R35, R232, R269, R343). -/

namespace Sys2Proof.Machine

/-! ### A tick for which one operation alone is due -/

theorem State.SameBasis.tf_eq {s t : State} (h : s.SameBasis t) : tf t = tf s := by
  unfold tf cfgAt; rw [h.conf]

/-- The operation e alone waits, and it is due. -/
def State.DueAlone (s : State) (e : Sched) : Prop := s.act.sched = [e] ∧ e.due = 1 ∧ e.left = 0

theorem Sched.tick_due {now : TW} {e : Sched} (hdue : e.due = 0)
    (h : if e.slot.isNone then e.left = 1 else e.left = 0 ∧ e.fire = now) :
    (e.tick now).due = 1 ∧ (e.tick now).left = 0 := by
  unfold Sched.tick
  by_cases hs : e.slot.isNone
  · rw [if_pos hs] at h
    simp [hs, h, hdue]
  · rw [if_neg hs] at h
    simp [hs, h.1, h.2, hdue, TW.atOrBefore, TW.diff]

/-- What the tick finds as r, where no entry into SAFE is due at it. -/
structure State.ComesTo (s r : State) : Prop where
  atTick : TimeEng.AtTick s r.time
  setDue : r.ptp.setDue = s.ptp.setDue
  basis : s.SameBasis r
  sched : r.act.sched = s.act.sched.map (Sched.tick s.time.nextTick)

theorem State.ComesTo.clearNoted {s r : State} (h : s.ComesTo r) : s.ComesTo (clearNoted r) :=
  ⟨h.atTick, h.setDue, h.basis.trans ⟨rfl, rfl, rfl, rfl, rfl, rfl, rfl, rfl, rfl⟩, h.sched⟩

theorem comesTo_tickReach (o : TickObs) {s : State} (h : s.power.safeDue = false) : s.ComesTo (clearNoted (tickReach o s)) :=
  State.ComesTo.clearNoted ⟨tickReach_atTick o s, tickReach_setDue o s, tickReach_sameBasis o h, tickReach_sched o h⟩

theorem State.OneDue.safeDue_eq {s : State} {op : Op} (h : s.OneDue op) : s.power.safeDue = false := by
  obtain ⟨_, hsafe, _⟩ := h
  exact hsafe

theorem State.OneDue.dueAlone {s r : State} {op : Op} (h : s.OneDue op) (hr : s.ComesTo r) :
    ∃ e, r.DueAlone e ∧ e.op = op := by
  obtain ⟨_, _, _, _, _, _, e, hsched, hop, hdue, hwait⟩ := h
  obtain ⟨hd, hl⟩ := Sched.tick_due hdue hwait
  exact ⟨e.tick s.time.nextTick, ⟨by rw [hr.sched, hsched]; rfl, hd, hl⟩, hop⟩

theorem State.OneDue.setTime_eq {s r : State} {op : Op} (h : s.OneDue op) (hr : s.ComesTo r) : setTime r = r := by
  obtain ⟨_, _, hd, hp, _⟩ := h
  exact setTime_eq_self (hr.setDue.trans hd) (hr.atTick.setPending.trans hp)

section
variable {s : State} {e : Sched} (h : s.DueAlone e)
include h

theorem State.DueAlone.dueHoist (hop : e.op = .hoist) : dueHoist s = some e := by
  obtain ⟨hs, hd, _⟩ := h
  simp [Machine.dueHoist, hs, hd, hop]

theorem State.DueAlone.dueHoist_none (hop : e.op ≠ .hoist) : Machine.dueHoist s = none := by
  obtain ⟨hs, hd, _⟩ := h
  simp [Machine.dueHoist, hs, hop]

theorem State.DueAlone.dueOps (hop : e.op ≠ .hoist) : Machine.dueOps s = [e] := by
  obtain ⟨hs, hd, _⟩ := h
  simp [Machine.dueOps, hs, hd, hop, sortSched, insSched]

theorem State.DueAlone.afterStep : (dueAfterStep s).DueAlone e := by
  obtain ⟨hs, hd, hl⟩ := h
  exact ⟨by simp [dueAfterStep, hs, hd], hd, hl⟩

theorem State.DueAlone.retick : (retick s).DueAlone e := by
  obtain ⟨hs, hd, hl⟩ := h
  exact ⟨by simp [Machine.retick, hs, hl], hd, hl⟩

theorem State.DueAlone.congr {t : State} (ht : t.act = s.act) : t.DueAlone e := by
  obtain ⟨hs, hd, hl⟩ := h
  exact ⟨by rw [ht, hs], hd, hl⟩

theorem State.DueAlone.unsched : (unsched e s).act.sched = [] := by
  obtain ⟨hs, _, _⟩ := h
  simp [Machine.unsched, hs]

end

/-- Operations that wait: none is due at a tick for which nothing waits. -/
theorem dueOps_of_sched_nil {s : State} (h : s.act.sched = []) : dueOps s = [] := by
  simp [dueOps, h, sortSched]

theorem dueHoist_of_sched_nil {s : State} (h : s.act.sched = []) : dueHoist s = none := by
  simp [dueHoist, h]

theorem hoistAndOpen_of_no_hoist (old : TW) {a : Fired} (h : dueHoist a.st = none) :
    hoistAndOpen old a = ({ a with st := retick (openFrame a.st) }, false) := by
  unfold hoistAndOpen
  rw [h]
  split <;> rfl

theorem hoistAndOpen_of_hoist (old : TW) {a : Fired} {e : Sched} (hs : shortAt (tf a.st) a.st.time.tw = false)
    (h : dueHoist a.st = some e) :
    hoistAndOpen old a =
      ({ fireHoist old e a with st := retick (openFrame (fireHoist old e a).st) }, true) := by
  unfold hoistAndOpen
  rw [h, hs]
  rfl

theorem fireOps_of_sched_nil (old : TW) (hoist : Bool) (level : Nat) {a : Fired} (h : a.st.act.sched = []) :
    fireOps old hoist level a = a := by
  unfold fireOps
  simp [dueOps_of_sched_nil h]

theorem tickOps_sched_nil (old : TW) (hoist : Bool) (level : Nat) {a : Fired} (h : a.st.act.sched = []) :
    (tickOps old hoist level a).st.act.sched = [] := by
  unfold tickOps
  extract_lets b c
  have hb : b.st.act.sched = [] := by simp [b, h]
  have hc : c = b := fireOps_of_sched_nil old hoist level hb
  rw [hc]
  simpa using hb

theorem retick_sched_nil {s : State} (h : s.act.sched = []) : (retick s).act.sched = [] := by simp [retick, h]

theorem dueAfterStep_sched_nil {s : State} (h : s.act.sched = []) : (dueAfterStep s).act.sched = [] := by
  simp [dueAfterStep, h]

/-! ### A frame that opens with nothing left to do (R26, R232) -/

section
variable {r : State} {a : Fired} (ha : fireStep r.time.tw ⟨setTime (clearNoted r), [], 0⟩ = a) (hs : a.st.act.sched = [])
include ha hs

/-- Where nothing waits after the time step, the frame opens at the present instant and no operation is fired. -/
theorem tickFire_of_sched_nil :
    (openFrame a.st).time.SameCourse (tickFire r).st.time ∧ (tickFire r).st.conf = a.st.conf ∧
    (tickFire r).st.act.sched = [] := by
  have hsched : a.afterStep.st.act.sched = [] := dueAfterStep_sched_nil hs
  have hhead : tickHead (clearNoted r) = ({ a.afterStep with st := retick (openFrame a.afterStep.st) }, false) := by
    rw [tickHead_eq, ← hoistAndOpen_of_no_hoist r.time.tw (dueHoist_of_sched_nil hsched), ← ha]
    rfl
  unfold tickFire
  rw [hhead]
  have hopen : (retick (openFrame a.afterStep.st)).act.sched = [] := retick_sched_nil (by simpa using hsched)
  refine ⟨?_, ?_, tickOps_sched_nil _ _ _ hopen⟩
  · exact (sameInstant_tickOps r.time.tw false (levelNow r) { a.afterStep with st := retick (openFrame a.afterStep.st) }).course
  · simp [Fired.afterStep]

end

/-- Where the module comes to from a frame that has just opened at the present instant. -/
theorem openFrame_course {s : State} {t : TimeEng} (h : (openFrame s).time.SameCourse t) :
    t.tw = s.time.tw ∧ t.epoch = s.time.epoch ∧ t.frameTw = s.time.tw ∧ t.nextTick = frameEnd (tf s) s.time.tw ∧
    t.shortFrame = decide (frameLen s.time.tw (frameEnd (tf s) s.time.tw) < tf s) ∧
    t.lastStepTick = s.time.lastStepTick ∧ t.lastStepDelta = s.time.lastStepDelta ∧ t.setPending = s.time.setPending := by
  rw [h]
  exact ⟨rfl, rfl, rfl, rfl, rfl, rfl, rfl, rfl⟩

theorem exec_frameTick_of_sched_nil {o : TickObs} {s r : State} {a : Fired} (hl : live s = true)
    (hh : s.power.hibEntry = false) (hr : clearNoted (tickReach o s) = r)
    (ha : fireStep s.time.nextTick ⟨setTime r, [], 0⟩ = a) (hs : a.st.act.sched = []) :
    ∃ t, exec (.frameTick o) s = .next t ∧ (openFrame a.st).time.SameCourse t.time ∧ t.act.sched = [] ∧
      t.frame.tw = a.st.time.tw ∧ t.frame.number = frameNumber (tf a.st) a.st.time.tw ∧ t.frame.epoch = a.st.time.epoch := by
  rw [← hr, ← (tickReach_atTick o s).tw] at ha
  obtain ⟨t, ht, hreach⟩ := exec_frameTick_reaches (o := o) hl hh
  obtain ⟨hcourse, hconf, hsched⟩ := tickFire_of_sched_nil ha hs
  generalize (tickFire (tickReach o s)).st = u at hreach hcourse hconf hsched
  have htf : tf u = tf a.st := by unfold tf cfgAt; rw [hconf]
  have htw : u.time.tw = a.st.time.tw := hcourse.tw
  have hep : u.time.epoch = a.st.time.epoch := hcourse.epoch
  refine ⟨t, ht, hcourse.trans hreach.course, hreach.sched hsched, ?_, ?_, ?_⟩ <;> rw [hreach.frame]
  · exact htw
  · rw [← htf, ← htw]; rfl
  · exact hep

theorem oweCompletion_sched (k : Completion) (s : State) : (oweCompletion k s).act.sched = s.act.sched := rfl

/-- An operation whose condition holds no longer waits, and leaves what its effect says. -/
theorem fireOne_of_cond (old : TW) {a : Fired} {e : Sched} (hw : fadeWaits e.op a.st = false)
    (hc : fireCond e.op (unsched e a.st) = 0) :
    (fireOne old a e).st.time = (fireEffect e (unsched e a.st)).time ∧
    (fireOne old a e).st.act.sched = (unsched e a.st).act.sched ∧
    (fireOne old a e).st.streams = (fireEffect e (unsched e a.st)).streams ∧
    (fireOne old a e).st.conf = a.st.conf ∧ (fireOne old a e).st.power = a.st.power := by
  simp only [fireOne, hw, hc, Bool.false_eq_true, if_true, if_false]
  split <;> simp [oweCompletion_sched]

/-- The operation that is due alone is taken, where the tick has the room for one. -/
theorem State.SameBasis.room {s t : State} (h : s.SameBasis t) (hroom : s.tickTakes) :
    1 ≤ tickRoom t.conf.cfg false (levelNow t) (levelNow t) 1 := by
  rw [h.conf, h.level]
  exact hroom

/-! ### The setting of the time word (R232) -/

theorem jumpTo_time (x : TW) (delta : Int) (s : State) :
    (jumpTo x delta s).time = { s.time with tw := x, frac := 0, cycTw := s.time.cycTw + BitVec.ofInt 64 delta } := by
  simp [jumpTo]

/-- The causes that stand at a first setting leave the time word that it sets. -/
theorem firstSet_course (x : TW) (s : State) :
    ∃ y : TimeEng, y.SameCourse (firstSet x s).time ∧ y.tw = x ∧ y.epoch = s.time.epoch ∧ y.setPending = none := by
  unfold firstSet
  dsimp only [fresh]
  refine ⟨_, (TimeEng.SameCourse.ite (sameCourse_setCause 6 _) (.refl _)).trans (sameCourse_standingCauses _), ?_⟩
  simp [jumpTo_time]

theorem firstSet_time (x : TW) (s : State) :
    (firstSet x s).time.tw = x ∧ (firstSet x s).time.epoch = s.time.epoch ∧ (firstSet x s).time.setPending = none := by
  obtain ⟨y, hy, htw, hep, hset⟩ := firstSet_course x s
  rw [hy]
  exact ⟨htw, hep, hset⟩

theorem setTime_of_pending {s : State} {x F : TW} (hd : s.ptp.setDue = false) (hp : s.time.setPending = some (x, F))
    (hF : TW.atOrBefore F s.time.tw = true) (hq : s.time.quality = 0) : setTime s = firstSet x s := by
  unfold setTime
  rw [hd, hp, hq]
  simp [hF]

/-! ### A time step (R26) -/

theorem ofInt_add_toInt (x d : BitVec 64) : BitVec.ofInt 64 ((x.toNat : Int) + d.toInt) = x + d := by
  rw [BitVec.ofInt_add, BitVec.ofInt_toInt, BitVec.ofInt_natCast, BitVec.ofNat_toNat, BitVec.setWidth_eq]

theorem stepTime_time (d : BitVec 64) (s : State) :
    (stepTime d s).time.tw = s.time.tw + d ∧ (stepTime d s).time.epoch = s.time.epoch + 1 ∧
    (stepTime d s).time.lastStepTick = s.time.tw + d ∧ (stepTime d s).time.lastStepDelta = d := by
  simp [stepTime, jumpTo_time, ofInt_add_toInt]

/-- Step 2 of R32 at a tick for which a time step alone is due. -/
theorem fireStep_of_step {s : State} {old : TW} {e : Sched} {d : BitVec 64} (hop : e.op = .stepTime d) (he : s.DueAlone e)
    (hshort : shortAt (tf s) old = false) (hroom : 1 ≤ tickRoom s.conf.cfg false (levelNow s) (levelNow s) 1) :
    fireStep old ⟨s, [], 0⟩ = fireOne old ⟨s, [], 0⟩ e := by
  have hne : e.op ≠ .hoist := by rw [hop]; exact nofun
  have hdue : dueStep s = some e := by
    unfold dueStep
    rw [he.dueHoist_none hne, he.dueOps hne]
    have hw : fadeWaits e.op s = false := by rw [hop]; rfl
    have hstep : isStep e.op = true := by rw [hop]; rfl
    obtain ⟨k, hk⟩ := Nat.exists_eq_succ_of_ne_zero (Nat.ne_of_gt hroom)
    simp [hw, hk, hstep]
  unfold fireStep
  simp only [hshort, hdue]
  rfl

theorem fireStep_stepTime {s : State} {old : TW} {e : Sched} {d : BitVec 64} (hop : e.op = .stepTime d) (he : s.DueAlone e)
    (hshort : shortAt (tf s) old = false) (hroom : 1 ≤ tickRoom s.conf.cfg false (levelNow s) (levelNow s) 1)
    (hbars : calBars s s.time.tw = false) (hq : s.time.quality ≠ 0) :
    (fireStep old ⟨s, [], 0⟩).st.time = (stepTime d (unsched e s)).time ∧
    (fireStep old ⟨s, [], 0⟩).st.act.sched = [] ∧ (fireStep old ⟨s, [], 0⟩).st.conf = s.conf := by
  rw [fireStep_of_step hop he hshort hroom]
  have hb : calBars (unsched e s) (unsched e s).time.tw = false := hbars
  have hc : fireCond e.op (unsched e s) = 0 := by
    rw [hop]
    unfold fireCond
    simp only [hb]
    exact if_neg hq
  have hw : fadeWaits e.op s = false := by rw [hop]; rfl
  obtain ⟨htime, hsched, _, hconf, _⟩ := fireOne_of_cond old (a := ⟨s, [], 0⟩) hw hc
  refine ⟨?_, hsched.trans he.unsched, hconf⟩
  rw [htime, fireEffect, hop]

theorem State.SameBasis.calBars_eq {s t : State} (h : s.SameBasis t) (F : TW) : calBars t F = calBars s F := by
  unfold calBars; rw [h.cal]

/-- FRAME_TICK with a time step alone (R26). -/
theorem exec_frameTick_step {s : State} (o : TickObs) {d : BitVec 64} (hl : live s = true) (hdue : s.OneDue (.stepTime d))
    (hroom : s.tickTakes) (hq : s.time.quality ≠ 0) :
    ∃ t, exec (.frameTick o) s = .next t ∧ t.time.tw = s.time.nextTick + d ∧ t.time.epoch = s.time.epoch + 1 ∧
      t.time.frameTw = t.time.tw ∧ t.time.nextTick = frameEnd (tf s) t.time.tw ∧
      t.time.shortFrame = decide (frameLen t.time.tw t.time.nextTick < tf s) ∧ t.time.lastStepTick = t.time.tw ∧
      t.time.lastStepDelta = d ∧ t.act.sched = [] ∧
      t.frame.tw = t.time.tw ∧ t.frame.number = frameNumber (tf s) t.time.tw ∧ t.frame.epoch = t.time.epoch := by
  have hcome := comesTo_tickReach o hdue.safeDue_eq
  generalize hr : clearNoted (tickReach o s) = r at hcome
  obtain ⟨e, he, hop⟩ := hdue.dueAlone hcome
  have hset := hdue.setTime_eq hcome
  obtain ⟨hhib, _, _, _, hbars, hshort, _⟩ := hdue
  have hbase := hcome.basis
  have hrtw := hcome.atTick.tw
  obtain ⟨htime, hsched, hconf⟩ := fireStep_stepTime (old := s.time.nextTick) hop he (by rwa [hbase.tf_eq]) (hbase.room hroom)
    (by rwa [hbase.calBars_eq, hrtw]) (by rwa [hbase.quality])
  generalize ha : fireStep s.time.nextTick ⟨r, [], 0⟩ = a at htime hsched hconf
  rw [← hset] at ha
  obtain ⟨t, ht, hcourse, hs, hftw, hfno, hfep⟩ := exec_frameTick_of_sched_nil hl hhib hr ha hsched
  obtain ⟨htw, hep, hlast, hdelta⟩ := stepTime_time d (unsched e r)
  rw [← htime] at htw hep hlast hdelta
  have htf : tf a.st = tf s := by rw [← hbase.tf_eq]; unfold tf cfgAt; rw [hconf]
  obtain ⟨ttw, tep, tframe, tnext, tshort, tlast, tdelta, _⟩ := openFrame_course hcourse
  rw [htf] at tnext tshort hfno
  have hutw : (unsched e r).time.tw = s.time.nextTick := hrtw
  rw [hutw] at htw hlast
  refine ⟨t, ht, ttw.trans htw, ?_, by rw [tframe, ttw], by rw [tnext, ttw], by rw [tshort, ttw, tnext], ?_, tdelta.trans hdelta,
    hs, by rw [hftw, ttw], by rw [hfno, ttw], by rw [hfep, tep]⟩
  · exact tep.trans (hep.trans (congrArg (· + 1) hcome.atTick.epoch))
  · rw [tlast, hlast, ttw, htw]

/-- FRAME_TICK with a setting of the time word alone (R232). -/
theorem exec_frameTick_setting {s : State} (o : TickObs) {x F : TW} (hl : live s = true) (hh : s.power.hibEntry = false)
    (hsafe : s.power.safeDue = false) (hd : s.ptp.setDue = false) (hs : s.act.sched = [])
    (hp : s.time.setPending = some (x, F)) (hF : TW.atOrBefore F s.time.nextTick = true) (hq : s.time.quality = 0) :
    ∃ t, exec (.frameTick o) s = .next t ∧ t.time.tw = x ∧ t.time.epoch = s.time.epoch ∧ t.time.setPending = none ∧
      t.time.frameTw = x ∧ t.time.nextTick = frameEnd (tf s) x ∧
      t.time.shortFrame = decide (frameLen x t.time.nextTick < tf s) ∧
      t.frame.tw = x ∧ t.frame.number = frameNumber (tf s) x ∧ t.frame.epoch = s.time.epoch := by
  have hcome := comesTo_tickReach o hsafe
  generalize hr : clearNoted (tickReach o s) = r at hcome
  have hset := setTime_of_pending (hcome.setDue.trans hd) (hcome.atTick.setPending.trans hp)
    (by rwa [hcome.atTick.tw]) (hcome.basis.quality.trans hq)
  obtain ⟨htw, hep, hpend⟩ := firstSet_time x r
  have hsched : (firstSet x r).act.sched = [] := by simp [hcome.sched, hs]
  have ha : fireStep s.time.nextTick ⟨setTime r, [], 0⟩ = ⟨firstSet x r, [], 0⟩ := by
    rw [hset, fireStep_of_no_step s.time.nextTick (a := ⟨firstSet x r, [], 0⟩) (dueStep_eq_none (by rw [hsched]; exact nofun))]
  obtain ⟨t, ht, hcourse, _, hftw, hfno, hfep⟩ := exec_frameTick_of_sched_nil hl hh hr ha hsched
  have htf : tf (firstSet x r) = tf s := by rw [← hcome.basis.tf_eq]; unfold tf cfgAt; simp
  obtain ⟨ttw, tep, tframe, tnext, tshort, _, _, tpend⟩ := openFrame_course hcourse
  rw [htw] at ttw tframe hftw
  rw [htf, htw] at tnext tshort hfno
  have hepoch := hep.trans hcome.atTick.epoch
  exact ⟨t, ht, ttw, tep.trans hepoch, tpend.trans hpend, tframe, tnext, by rw [tshort, tnext], hftw, hfno, hfep.trans hepoch⟩

/-! ### A hoist (R343) -/

theorem commit_conf (content : KV) (k : BitVec 128) (s : State) :
    (commit content k s).conf.hoist = none ∧ (commit content k s).conf.cfg = cfgApply s.conf.cfg content ∧
    (commit content k s).conf.generation = newGen k ∧
    (commit content k s).conf.digest = digestOf (cfgApply s.conf.cfg content) ∧
    (commit content k s).conf.shadow = s.conf.shadow := by
  unfold commit
  extract_lets now c lv conf0 conf t0 t1 t2 clocks t3
  have h2 : t2.conf = conf := by simp [t2, t1]
  have h3 : t3.conf = conf := by
    unfold t3
    split
    · exact h2
    · exact h2
  have h4 : (imageSave (slotClaim t3)).conf = conf := by simp [h3]
  rw [h4]
  exact ⟨rfl, rfl, rfl, rfl, rfl⟩

theorem hoistTrace_return_conf (f : Option AdmitFail) (code : Nat) {s : State} {h : HoistPending} (hh : s.conf.hoist = some h) :
    (hoistTrace f code (hoistReturn s)).conf.hoist = none ∧ (hoistTrace f code (hoistReturn s)).conf.cfg = s.conf.cfg ∧
    (hoistTrace f code (hoistReturn s)).conf.generation = s.conf.generation ∧
    (hoistTrace f code (hoistReturn s)).conf.digest = s.conf.digest ∧
    (hoistTrace f code (hoistReturn s)).conf.shadow = shadowReturn s.conf.shadow h.content := by
  have hcontent : hoistContent s = h.content := by unfold hoistContent; rw [hh]
  unfold hoistTrace hoistReturn
  rw [hcontent]
  dsimp only
  (repeat' split) <;> simp

/-- The configuration after the hoist of a tick: committed, or the content is back in the shadow. -/
structure Conf.Hoisted (c : Conf) (h : HoistPending) (tick : TW) (d : Conf) : Prop where
  hoist : d.hoist = none
  lastTick : d.hoistLastTick = tick
  committed : d.hoistLastResult = 0 →
    d.cfg = cfgApply c.cfg h.content ∧ d.generation = newGen h.check ∧ d.digest = digestOf d.cfg ∧ d.shadow = c.shadow
  refused : d.hoistLastResult ≠ 0 →
    d.cfg = c.cfg ∧ d.generation = c.generation ∧ d.digest = c.digest ∧ d.shadow = shadowReturn c.shadow h.content

/-- What the judgement x of the pending hoist h makes of s. -/
def hoistJudged (h : HoistPending) (x : Option AdmitFail × Nat) (s : State) : State :=
  if x.2 = 0 then commit h.content h.check s else hoistTrace x.1 x.2 (hoistReturn s)

/-- The judgement of a hoist is recorded with its tick. -/
def hoistRecorded (code : Nat) (s : State) : State :=
  { s with conf := { s.conf with hoistLastTick := s.time.tw, hoistLastResult := code } }

theorem fireHoist_eq (old : TW) (e : Sched) {a : Fired} {h : HoistPending} (hh : a.st.conf.hoist = some h) :
    ∃ x k, (fireHoist old e a).st = oweCompletion k (hoistRecorded x.2 (hoistJudged h x (unsched e a.st))) := by
  unfold fireHoist
  extract_lets s1
  rw [show s1.conf.hoist = some h from hh]
  exact ⟨_, _, rfl⟩

theorem hoistJudged_tw (h : HoistPending) (x : Option AdmitFail × Nat) (s : State) :
    (hoistJudged h x s).time.tw = s.time.tw := by
  unfold hoistJudged
  split
  · simp
  · simp

theorem hoisted_of_judged {h : HoistPending} (x : Option AdmitFail × Nat) {s : State} (hh : s.conf.hoist = some h) :
    s.conf.Hoisted h s.time.tw (hoistRecorded x.2 (hoistJudged h x s)).conf := by
  have htw := hoistJudged_tw h x s
  by_cases hx : x.2 = 0
  · have hj : hoistJudged h x s = commit h.content h.check s := if_pos hx
    obtain ⟨ch, ccfg, cgen, cdig, csh⟩ := commit_conf h.content h.check s
    rw [hj] at htw ⊢
    exact ⟨ch, htw, fun _ => ⟨ccfg, cgen, cdig.trans (by rw [← ccfg]; rfl), csh⟩, fun hne => absurd hx hne⟩
  · have hj : hoistJudged h x s = hoistTrace x.1 x.2 (hoistReturn s) := if_neg hx
    obtain ⟨ch, ccfg, cgen, cdig, csh⟩ := hoistTrace_return_conf x.1 x.2 hh
    rw [hj] at htw ⊢
    exact ⟨ch, htw, fun h0 => absurd h0 hx, fun _ => ⟨ccfg, cgen, cdig, csh⟩⟩

theorem fireHoist_conf (old : TW) (e : Sched) {a : Fired} {h : HoistPending} (hh : a.st.conf.hoist = some h) :
    a.st.conf.Hoisted h a.st.time.tw (fireHoist old e a).st.conf := by
  obtain ⟨x, k, hs⟩ := fireHoist_eq old e hh
  rw [hs]
  exact hoisted_of_judged (s := unsched e a.st) x hh

theorem hoistJudged_sched (h : HoistPending) (x : Option AdmitFail × Nat) (s : State) :
    (hoistJudged h x s).act.sched = s.act.sched := by
  unfold hoistJudged
  split
  · simp
  · simp [hoistReturn]

theorem fireHoist_sched (old : TW) {e : Sched} {a : Fired} {h : HoistPending} (hh : a.st.conf.hoist = some h)
    (he : a.st.DueAlone e) : (fireHoist old e a).st.act.sched = [] := by
  obtain ⟨x, k, hs⟩ := fireHoist_eq old e hh
  rw [hs]
  exact (hoistJudged_sched h x _).trans he.unsched

/-- FRAME_TICK with a hoist alone (R343). -/
theorem exec_frameTick_hoist {s : State} (o : TickObs) {h : HoistPending} (hl : live s = true) (hdue : s.OneDue .hoist)
    (hh : s.conf.hoist = some h) :
    ∃ t, exec (.frameTick o) s = .next t ∧ s.conf.Hoisted h s.time.nextTick t.conf ∧ t.act.sched = [] ∧
      t.frame.generation = t.conf.generation ∧ t.frame.digest = t.conf.digest := by
  have hcome := comesTo_tickReach o hdue.safeDue_eq
  generalize hr : clearNoted (tickReach o s) = r at hcome
  obtain ⟨e, he, hop⟩ := hdue.dueAlone hcome
  have hset := hdue.setTime_eq hcome
  obtain ⟨hhib, _, _, _, _, hshort, _⟩ := hdue
  have hno : ∀ x ∈ r.act.sched, isStep x.op = false := by
    obtain ⟨hs, _, _⟩ := he
    simp [hs, hop, isStep]
  have hstep := tickHead_of_no_step hset (dueStep_eq_none hno)
  generalize ha : Fired.afterStep ⟨r, [], 0⟩ = a at hstep
  have hconf : a.st.conf = s.conf := by rw [← ha, ← hcome.basis.conf]; simp [Fired.afterStep]
  have htw : a.st.time.tw = s.time.nextTick := by rw [← ha, ← hcome.atTick.tw]; simp [Fired.afterStep]
  have hea : a.st.DueAlone e := by rw [← ha]; exact he.afterStep
  have hha : a.st.conf.hoist = some h := hconf ▸ hh
  have htf : tf a.st = tf s := by unfold tf cfgAt; rw [hconf]
  rw [hoistAndOpen_of_hoist r.time.tw (by rwa [htf, htw]) (hea.dueHoist hop)] at hstep
  have hjudged := fireHoist_conf r.time.tw e hha
  have hsched := fireHoist_sched r.time.tw hha hea
  rw [hconf, htw] at hjudged
  generalize fireHoist r.time.tw e a = b at hstep hjudged hsched
  have hreach := (stands_frameTick_of_hoist o s (by rw [hr, hstep])).trans (stands_settle _)
  have hfire : (tickFire (tickReach o s)).st.conf = b.st.conf ∧ (tickFire (tickReach o s)).st.act.sched = [] := by
    unfold tickFire
    rw [hr, hstep]
    exact ⟨by simp, tickOps_sched_nil _ _ _ (retick_sched_nil hsched)⟩
  have hexec := exec_frameTick (o := o) hl hhib
  generalize settle (frameTick o s) = t at hreach hexec
  generalize (tickFire (tickReach o s)).st = u at hreach hfire
  obtain ⟨hfconf, hfsched⟩ := hfire
  have htconf : t.conf = b.st.conf := hreach.conf.trans hfconf
  refine ⟨t, hexec, htconf ▸ hjudged, hreach.sched.trans hfsched, ?_, ?_⟩
  · rw [hreach.frame, hreach.conf]; rfl
  · rw [hreach.frame, hreach.conf]; rfl

/-! ### Starts and stops of streams (R269) -/

section
variable {s t : State} (h : s.SameBasis t)
include h

theorem State.SameBasis.cfgAt_eq (i j : Nat) : cfgAt t i j = cfgAt s i j := by unfold cfgAt; rw [h.conf]

theorem State.SameBasis.runningAfter_eq : runningAfter t [] = runningAfter s [] := by
  funext st; unfold runningAfter streamAt; rw [h.streams]

theorem State.SameBasis.diesReady_eq : diesReady t = diesReady s := by
  funext mask; unfold diesReady dieAt; rw [h.dies]

theorem State.SameBasis.readyFor_eq (F : TW) : readyFor t F = readyFor s F := by
  unfold readyFor; rw [h.mode, h.calBars_eq]

theorem State.SameBasis.reserveFill_eq : reserveFill t = reserveFill s := by unfold reserveFill; rw [h.res]

theorem State.SameBasis.cfgAfter_eq : cfgAfter t [] = cfgAfter s [] := by simp [cfgAfter, h.conf]

theorem State.SameBasis.startCond_eq (F : TW) (m : BitVec 16) : startCond t [] F m = startCond s [] F m := by
  unfold startCond
  rw [h.cfgAfter_eq, h.runningAfter_eq, h.diesReady_eq, h.readyFor_eq, h.calBars_eq, h.reserveFill_eq, h.cfgAt_eq, h.quality,
    h.slotState]

theorem State.SameBasis.stopCond_eq (m : BitVec 16) : stopCond t [] m = stopCond s [] m := by
  unfold stopCond; rw [h.runningAfter_eq]

end

theorem runs_getElem? (s : State) (j : Nat) : s.runs[j]? = s.streams[j]?.map fun k => (k.running, k.startTw) := by
  simp [State.runs]

/-- Operations that change which streams run, one stream after another. -/
theorem forList_runs_getElem? {f : Nat → State → State} {g : Bool × TW → Bool × TW} (P : State → Prop)
    (hg : ∀ p, g (g p) = g p) (hf : ∀ k x, P x → (f k x).runs = updAt g k x.runs ∧ P (f k x))
    (l : List Nat) {s : State} (hs : P s) (j : Nat) :
    (forList l f s).runs[j]? = if j ∈ l then s.runs[j]?.map g else s.runs[j]? := by
  unfold forList
  induction l generalizing s with
  | nil => simp
  | cons k l ih =>
    obtain ⟨hr, hp⟩ := hf k s hs
    rw [List.foldl_cons, ih hp, hr, updAt_getElem?]
    by_cases hk : j = k <;> by_cases hl : j ∈ l <;> simp [hk, hl, Function.comp_def, hg]

theorem forList_runs_length {f : Nat → State → State} (hf : ∀ k x, (f k x).streams.length = x.streams.length) (l : List Nat)
    (s : State) : (forList l f s).runs.length = s.streams.length := by
  unfold forList
  induction l generalizing s with
  | nil => simp [State.runs]
  | cons k l ih => rw [List.foldl_cons, ih, hf]

theorem updAt_map {α β : Type} (p : α → β) (f : α → α) (g : β → β) (h : ∀ x, p (f x) = g (p x)) (k : Nat)
    (l : List α) : (updAt f k l).map p = updAt g k (l.map p) := by
  induction l generalizing k with
  | nil => cases k <;> rfl
  | cons a l ih => cases k <;> simp [updAt, h, ih]

/-- A stream that starts at a tick. -/
def begun (tick : TW) (_ : Bool × TW) : Bool × TW := (true, tick)

/-- A stream that stops. -/
def ended (p : Bool × TW) : Bool × TW := (false, p.2)

theorem startStream_runs (k : Nat) (s : State) : (startStream k s).runs = updAt (begun s.time.tw) k s.runs := by
  have h : (startStream k s).streams = updAt (Stream.begin_ (cfgAt s 0x3600 k) s) k s.streams := by simp [startStream]
  unfold State.runs
  rw [h]
  exact updAt_map (fun k : Stream => (k.running, k.startTw)) _ _ (fun _ => rfl) k _

theorem stopStream_runs (k : Nat) (s : State) : (stopStream k s).runs = updAt ended k s.runs := by
  have h : (stopStream k s).streams = updAt Stream.stopped k s.streams := by simp [stopStream]
  unfold State.runs
  rw [h]
  exact updAt_map (fun k : Stream => (k.running, k.startTw)) _ _ (fun _ => rfl) k _

theorem mem_streamsOf {m : BitVec 16} {st : Nat} : st ∈ streamsOf m ↔ st < 16 ∧ m.toNat.testBit st = true := by
  simp [streamsOf]

theorem anyRunning_eq (s : State) : anyRunning s = s.runs.any Prod.fst := by
  simp [anyRunning, State.runs, Function.comp_def]

theorem runMode_mode {s : State} (h : s.power.mode = .ready ∨ s.power.mode = .run) :
    (runMode s).power.mode = if anyRunning s then .run else .ready := by
  unfold runMode
  rcases h with h | h
  · simp only [h]
    split
    · rfl
    · exact h
  · simp only [h]
    split
    · exact h
    · rfl

theorem runMode_runs (s : State) : (runMode s).runs = s.runs := State.runs_congr (by simp)

theorem runs_start (m : BitVec 16) {s : State} (hlen : s.streams.length = 16) {st : Nat} (hst : st < 16) :
    (forList (streamsOf m) startStream s).runs.getD st (false, 0) =
      if m.toNat.testBit st then (true, s.time.tw) else s.runs.getD st (false, 0) := by
  have h := forList_runs_getElem? (f := startStream) (g := begun s.time.tw) (fun x => x.time.tw = s.time.tw) (fun _ => rfl)
    (fun k x hx => ⟨hx ▸ startStream_runs k x, by simpa using hx⟩) (streamsOf m) rfl st
  rw [List.getD_eq_getElem?_getD, h, runs_getElem?, List.getD_eq_getElem?_getD, runs_getElem?,
    List.getElem?_eq_getElem (hlen ▸ hst)]
  simp only [mem_streamsOf, hst, true_and]
  split <;> rfl

theorem runs_stop (m : BitVec 16) {s : State} (hlen : s.streams.length = 16) {st : Nat} (hst : st < 16) :
    (forList (streamsOf m) stopStream s).runs.getD st (false, 0) =
      if m.toNat.testBit st then (false, (s.runs.getD st (false, 0)).2) else s.runs.getD st (false, 0) := by
  have h := forList_runs_getElem? (f := stopStream) (g := ended) (fun _ => True) (fun _ => rfl)
    (fun k x _ => ⟨stopStream_runs k x, trivial⟩) (streamsOf m) (s := s) trivial st
  rw [List.getD_eq_getElem?_getD, h, runs_getElem?, List.getD_eq_getElem?_getD, runs_getElem?,
    List.getElem?_eq_getElem (hlen ▸ hst)]
  simp only [mem_streamsOf, hst, true_and]
  split <;> rfl

/-! The operation that is due alone, in step 4 of R32. -/

/-- The reserve stop stops none: no stream runs, or the reserve has its room. -/
def State.ReserveHolds (s : State) : Prop :=
  3 * wCfg s.conf.cfg + reserveFill s ≤ cfgAt s 0x4B05 0 * 2 ^ 20 ∨ runningStreams s = []

theorem State.SameBasis.reserveHolds {s t : State} (h : s.SameBasis t) (hs : s.ReserveHolds) : t.ReserveHolds := by
  unfold State.ReserveHolds runningStreams streamAt at *
  rw [h.conf, h.reserveFill_eq, h.cfgAt_eq, h.streams]
  exact hs

theorem reserveStop_of_holds {a : Fired} (h : a.st.ReserveHolds) :
    a.st.SameBasis (reserveStop a).st ∧ (reserveStop a).ops = a.ops := by
  have hq : (reserveStop a).st.time.quality = a.st.time.quality := by simp
  unfold reserveStop
  dsimp only
  split
  · exact ⟨⟨rfl, rfl, rfl, rfl, rfl, rfl, rfl, rfl, rfl⟩, rfl⟩
  · next hfull =>
    have hnone := h.resolve_left hfull
    rw [hnone]
    exact ⟨⟨rfl, rfl, rfl, rfl, rfl, rfl, rfl, rfl, rfl⟩, rfl⟩

theorem fireOps_of_due (old : TW) (level : Nat) {a : Fired} {e : Sched} (he : a.st.DueAlone e) (hne : e.op ≠ .hoist)
    (hstep : isStep e.op = false) (hshort : shortAt (tf a.st) a.st.time.tw = false) (hops : a.ops = 0)
    (hroom : 1 ≤ tickRoom a.st.conf.cfg false level (levelNow a.st) 1) : fireOps old false level a = fireOne old a e := by
  unfold fireOps
  simp only [hshort, he.dueOps hne, Bool.false_eq_true, if_false]
  have hl : List.filter (fun e => !isStep e.op) [e] = [e] := by simp [hstep]
  rw [hl]
  simp only [List.length_singleton, hops, List.foldl_cons, List.foldl_nil]
  exact if_pos hroom

/-- Step 4 of R32 for a state at the tick with one operation on the streams due, which is neither a hoist nor a step. -/
theorem tickOps_of_due {s u : State} {e : Sched} (old : TW) (hbase : s.SameBasis u) (he : u.DueAlone e) (hne : e.op ≠ .hoist)
    (hstep : isStep e.op = false) (hfade : ∀ x, fadeWaits e.op x = false) (htw : u.time.tw = s.time.nextTick)
    (hshort : shortAt (tf s) s.time.nextTick = false) (hroom : s.tickTakes) (hres : s.ReserveHolds)
    (hcond : ∀ x, s.SameBasis x → x.time.tw = s.time.nextTick → fireCond e.op x = 0) :
    ∃ v w : State, s.SameBasis v ∧ v.time.tw = s.time.nextTick ∧ w.runs = (fireEffect e v).runs ∧
      w.power.mode = s.power.mode ∧ w.act.sched = [] ∧
      (tickOps old false (levelNow s) ⟨u, [], 0⟩).st = runMode (outsLow w) := by
  unfold tickOps
  extract_lets b c
  have howc : s.SameBasis (owcTick u) := hbase.trans ⟨rfl, rfl, rfl, rfl, rfl, rfl, rfl, rfl, rfl⟩
  obtain ⟨hstop, hops⟩ := reserveStop_of_holds (a := ⟨owcTick u, [], 0⟩) (howc.reserveHolds hres)
  have hb : s.SameBasis b.st := howc.trans hstop
  have hbtw : b.st.time.tw = s.time.nextTick := by rw [← htw]; simp [b]
  have heb : b.st.DueAlone e := he.congr (by simp [b])
  have hc : c = fireOne old b e := by
    refine fireOps_of_due old (levelNow s) heb hne hstep (by rwa [hb.tf_eq, hbtw]) hops ?_
    rw [hb.conf, hb.level]
    exact hroom
  have hv : s.SameBasis (unsched e b.st) := hb.trans ⟨rfl, rfl, rfl, rfl, rfl, rfl, rfl, rfl, rfl⟩
  obtain ⟨_, hsched, hstreams, _, hpower⟩ := fireOne_of_cond old (hfade b.st) (hcond _ hv hbtw)
  refine ⟨unsched e b.st, c.st, hv, hbtw, ?_, ?_, ?_, rfl⟩
  · rw [hc]; exact State.runs_congr hstreams
  · rw [hc, hpower, hb.mode]
  · rw [hc, hsched]; exact heb.unsched

theorem sameBasis_opened (x : State) : x.SameBasis (retick (openFrame (dueAfterStep x))) := by
  constructor
  case level => simp [levelNow]
  all_goals simp

/-- Steps 2 to 4 of R32 for one operation on the streams that is due alone. -/
theorem tickFire_of_due {s r : State} {op : Op} (hdue : s.OneDue op) (hcome : s.ComesTo (clearNoted r)) (hne : op ≠ .hoist)
    (hstep : isStep op = false) (hfade : ∀ x, fadeWaits op x = false) (hroom : s.tickTakes) (hres : s.ReserveHolds)
    (hcond : ∀ x, s.SameBasis x → x.time.tw = s.time.nextTick → fireCond op x = 0) :
    ∃ e v w, e.op = op ∧ s.SameBasis v ∧ v.time.tw = s.time.nextTick ∧ w.runs = (fireEffect e v).runs ∧
      w.power.mode = s.power.mode ∧ w.act.sched = [] ∧ (tickFire r).st = runMode (outsLow w) := by
  have hlevel : levelNow r = levelNow s := hcome.basis.level
  have hrtw : r.time.tw = s.time.nextTick := hcome.atTick.tw
  unfold tickFire
  rw [hlevel, hrtw]
  generalize clearNoted r = x at hcome
  obtain ⟨e, he, rfl⟩ := hdue.dueAlone hcome
  have hset := hdue.setTime_eq hcome
  have hno : ∀ y ∈ x.act.sched, isStep y.op = false := by
    obtain ⟨hs, _, _⟩ := he
    simp [hs, hstep]
  have hhead := tickHead_of_no_step hset (dueStep_eq_none hno)
  rw [hoistAndOpen_of_no_hoist (a := Fired.afterStep ⟨x, [], 0⟩) _ (he.afterStep.dueHoist_none hne)] at hhead
  rw [hhead]
  have hopen : s.SameBasis (retick (openFrame (dueAfterStep x))) := hcome.basis.trans (sameBasis_opened x)
  have heo : (retick (openFrame (dueAfterStep x))).DueAlone e := (he.afterStep.congr (t := openFrame (dueAfterStep x)) rfl).retick
  obtain ⟨_, _, _, _, _, hshort, _⟩ := hdue
  have hotw : (retick (openFrame (dueAfterStep x))).time.tw = s.time.nextTick := by simpa using hcome.atTick.tw
  obtain ⟨v, w, hw⟩ := tickOps_of_due s.time.nextTick hopen heo hne hstep hfade hotw hshort hroom hres hcond
  exact ⟨e, v, w, rfl, hw⟩

theorem exec_frameTick_of_due {s : State} {op : Op} (o : TickObs) (hl : live s = true) (hdue : s.OneDue op) (hne : op ≠ .hoist)
    (hstep : isStep op = false) (hfade : ∀ x, fadeWaits op x = false) (hroom : s.tickTakes) (hres : s.ReserveHolds)
    (hcond : ∀ x, s.SameBasis x → x.time.tw = s.time.nextTick → fireCond op x = 0)
    (hmode : s.power.mode = .ready ∨ s.power.mode = .run) :
    ∃ t e v, exec (.frameTick o) s = .next t ∧ e.op = op ∧ s.SameBasis v ∧ v.time.tw = s.time.nextTick ∧
      t.act.sched = [] ∧ (t.power.mode ≠ .safe → t.runs = (fireEffect e v).runs ∧
        t.power.mode = if (fireEffect e v).runs.any Prod.fst then .run else .ready) := by
  obtain ⟨e, v, w, hop, hv, hvtw, hruns, hwmode, hsched, hfire⟩ :=
    tickFire_of_due hdue (comesTo_tickReach o hdue.safeDue_eq) hne hstep hfade hroom hres hcond
  obtain ⟨hhib, _⟩ := hdue
  obtain ⟨t, ht, hreach⟩ := exec_frameTick_reaches (o := o) hl hhib
  rw [hfire] at hreach
  have hlow : (outsLow w).runs = w.runs := State.runs_congr (by simp)
  refine ⟨t, e, v, ht, hop, hv, hvtw, hreach.sched (by simpa using hsched), fun hsafe => ?_⟩
  obtain ⟨htmode, htruns⟩ := hreach.active hsafe
  have htr : t.runs = (fireEffect e v).runs := htruns.trans ((runMode_runs _).trans (hlow.trans hruns))
  refine ⟨htr, ?_⟩
  have hm : (outsLow w).power.mode = .ready ∨ (outsLow w).power.mode = .run := by simpa [hwmode] using hmode
  rw [htmode, ← hruns, ← hlow, ← anyRunning_eq]
  exact runMode_mode hm

theorem streamAt_of_runs {s t : State} (h : t.runs = s.runs) (st : Nat) :
    (streamAt t st).running = (s.runs.getD st (false, 0)).1 ∧ (streamAt t st).startTw = (s.runs.getD st (false, 0)).2 := by
  rw [← h, State.runs_getD]
  exact ⟨rfl, rfl⟩

theorem running_of_none {s : State} (h : ∀ k ∈ s.streams, k.running = false) (st : Nat) : (streamAt s st).running = false := by
  unfold streamAt
  rw [List.getD_eq_getElem?_getD]
  cases hk : s.streams[st]? with
  | none => rfl
  | some k => exact h k (List.mem_of_getElem? hk)

theorem runningStreams_eq_nil {s : State} (h : ∀ k ∈ s.streams, k.running = false) : runningStreams s = [] := by
  unfold runningStreams
  rw [List.filter_eq_nil_iff]
  intro st _
  rw [running_of_none h]
  exact Bool.false_ne_true

theorem exists_testBit {m : BitVec 16} (h : m ≠ 0) : ∃ st < 16, m.toNat.testBit st = true := by
  by_contra hn
  push Not at hn
  refine h (BitVec.eq_of_getLsbD_eq fun i hi => ?_)
  have hb := hn i hi
  simpa [BitVec.getLsbD] using hb

theorem any_fst_eq {l : List (Bool × TW)} (h : l.length ≤ 16) :
    l.any Prod.fst = (List.range 16).any fun st => (l.getD st (false, 0)).1 := by
  rw [Bool.eq_iff_iff, List.any_eq_true, List.any_eq_true]
  constructor
  · rintro ⟨p, hp, hrun⟩
    obtain ⟨j, hj, rfl⟩ := List.mem_iff_getElem.mp hp
    exact ⟨j, List.mem_range.mpr (by omega), by simpa [List.getD_eq_getElem?_getD, hj] using hrun⟩
  · rintro ⟨j, _, hrun⟩
    rw [List.getD_eq_getElem?_getD] at hrun
    cases hk : l[j]? with
    | none => rw [hk] at hrun; exact absurd hrun Bool.false_ne_true
    | some p => exact ⟨p, List.mem_of_getElem? hk, by rwa [hk] at hrun⟩

/-- FRAME_TICK with a start alone (R269). -/
theorem exec_frameTick_start {s : State} (o : TickObs) {m : BitVec 16} (hl : live s = true) (hdue : s.OneDue (.startStreams m))
    (hroom : s.tickTakes) (hm : m ≠ 0) (hlen : s.streams.length = 16) (hnone : ∀ k ∈ s.streams, k.running = false)
    (hcond : startCond s [] s.time.nextTick m = 0) (hmode : s.power.mode = .ready) :
    ∃ t, exec (.frameTick o) s = .next t ∧ t.act.sched = [] ∧
      (t.power.mode ≠ .safe → t.power.mode = .run ∧
        (∀ st < 16, (streamAt t st).running = m.toNat.testBit st ∧
          (m.toNat.testBit st = true → (streamAt t st).startTw = s.time.nextTick))) := by
  have hfire (x : State) (hx : s.SameBasis x) (htw : x.time.tw = s.time.nextTick) : fireCond (.startStreams m) x = 0 := by
    obtain ⟨_, _, _, _, hbars, _⟩ := hdue
    simp only [fireCond, htw, hx.calBars_eq, hbars, hx.startCond_eq, Bool.false_eq_true, if_false]
    exact hcond
  have hres : s.ReserveHolds := .inr (runningStreams_eq_nil hnone)
  obtain ⟨t, e, v, ht, hop, hv, hvtw, hsched, hactive⟩ := exec_frameTick_of_due o hl hdue nofun rfl (fun _ => rfl) hroom
    hres hfire (.inl hmode)
  refine ⟨t, ht, hsched, fun hsafe => ?_⟩
  obtain ⟨hruns, hrunmode⟩ := hactive hsafe
  have heff : fireEffect e v = forList (streamsOf m) startStream v := by rw [fireEffect, hop]
  have hstart (st : Nat) (hst : st < 16) : (fireEffect e v).runs.getD st (false, 0) =
      if m.toNat.testBit st then (true, v.time.tw) else v.runs.getD st (false, 0) := by
    rw [heff]
    exact runs_start m (hv.streams ▸ hlen) hst
  have hvnone := running_of_none (hv.streams ▸ hnone)
  have hlen' : (fireEffect e v).runs.length = 16 := by
    rw [heff, forList_runs_length (fun k x => by simp [startStream]), hv.streams, hlen]
  refine ⟨?_, fun st hst => ?_⟩
  · obtain ⟨st, hst, hbit⟩ := exists_testBit hm
    have hany : (fireEffect e v).runs.any Prod.fst = true := by
      rw [any_fst_eq hlen'.le, List.any_eq_true]
      exact ⟨st, List.mem_range.mpr hst, by rw [hstart st hst, if_pos hbit]⟩
    rw [hrunmode, if_pos hany]
  · obtain ⟨hrun, htw⟩ := streamAt_of_runs hruns st
    rw [hrun, htw, hstart st hst]
    cases hbit : m.toNat.testBit st
    · exact ⟨by rw [if_neg Bool.false_ne_true, State.runs_getD]; exact hvnone st, nofun⟩
    · exact ⟨rfl, fun _ => hvtw⟩

/-- FRAME_TICK with a stop alone (R269). -/
theorem exec_frameTick_stop {s : State} (o : TickObs) {m : BitVec 16} (hl : live s = true) (hdue : s.OneDue (.stopStreams m))
    (hroom : s.tickTakes) (hlen : s.streams.length = 16) (hcond : stopCond s [] m = 0) (hmode : s.power.mode = .run)
    (hres : cfgAt s 0x4B05 0 * 2 ^ 20 ≥ 3 * wCfg s.conf.cfg + reserveFill s) :
    ∃ t, exec (.frameTick o) s = .next t ∧ t.act.sched = [] ∧
      (t.power.mode ≠ .safe →
        (∀ st < 16, (streamAt t st).running = ((streamAt s st).running && !m.toNat.testBit st)) ∧
        t.power.mode = (if (List.range 16).any (fun st => (streamAt t st).running) then .run else .ready)) := by
  have hfire (x : State) (hx : s.SameBasis x) (htw : x.time.tw = s.time.nextTick) : fireCond (.stopStreams m) x = 0 := by
    obtain ⟨_, _, _, _, hbars, _⟩ := hdue
    simp only [fireCond, htw, hx.calBars_eq, hbars, hx.stopCond_eq, Bool.false_eq_true, if_false]
    exact hcond
  obtain ⟨t, e, v, ht, hop, hv, hvtw, hsched, hactive⟩ := exec_frameTick_of_due o hl hdue nofun rfl (fun _ => rfl) hroom
    (.inl hres) hfire (.inr hmode)
  refine ⟨t, ht, hsched, fun hsafe => ?_⟩
  obtain ⟨hruns, hrunmode⟩ := hactive hsafe
  have heff : fireEffect e v = forList (streamsOf m) stopStream v := by rw [fireEffect, hop]
  have hlen' : (fireEffect e v).runs.length = 16 := by
    rw [heff, forList_runs_length (fun k x => by simp [stopStream]), hv.streams, hlen]
  refine ⟨fun st hst => ?_, ?_⟩
  · have hstop := runs_stop m (hv.streams ▸ hlen) hst
    rw [← heff, State.runs_getD v, show streamAt v st = streamAt s st by unfold streamAt; rw [hv.streams]] at hstop
    rw [(streamAt_of_runs hruns st).1, hstop]
    cases m.toNat.testBit st <;> simp
  · have hany : (fun st => ((fireEffect e v).runs.getD st (false, 0)).1) = fun st => (streamAt t st).running :=
      funext fun st => (streamAt_of_runs hruns st).1.symm
    rw [hrunmode, any_fst_eq hlen'.le, hany]

/-! ### FRAME_TICK -/

/-- Settles O16: the tick is reached before its operations, each operation that is due alone has its effect there, and what the
tick does after its operations leaves that effect, but for an entry into SAFE. -/
theorem tickReached : Obligations.TickReached := by
  refine ⟨fun s o hl hd hp hh hstep => ?_, fun s o d hl hdue hroom hq => exec_frameTick_step o hl hdue hroom hq,
    fun s o h hl hdue hh => ?_, fun s o m hl hdue hroom hm hlen hnone hcond hmode =>
      exec_frameTick_start o hl hdue hroom hm hlen hnone hcond hmode,
    fun s o m hl hdue hroom hlen hcond hmode hres => exec_frameTick_stop o hl hdue hroom hlen hcond hmode hres,
    fun s o x F hl hh hsafe hd hs hp hF hq => exec_frameTick_setting o hl hh hsafe hd hs hp hF hq⟩
  · obtain ⟨t, ht, hat, hftw, hframe, hpend, href, hocxo⟩ := exec_frameTick_of_no_step o hl hd hp hh hstep
    exact ⟨t, ht, hat.tw, hat.cyc, hat.pt, hat.frac, hftw, hat.epoch, by rw [hframe], by rw [hframe], by rw [hframe],
      by rw [hframe], hpend, href, hocxo⟩
  · obtain ⟨t, ht, hhoist, hsched, hgen, hdig⟩ := exec_frameTick_hoist o hl hdue hh
    exact ⟨t, ht, hhoist.hoist, hsched, hhoist.lastTick, hhoist.committed, hhoist.refused, hgen, hdig⟩

end Sys2Proof.Machine

/-! SUPPORT AND PROOFS. Analog inputs: overload episodes and their spans (R46, R47, R51, R52) and the open-wire check (R55, R57,
Table 2.5). -/

namespace Sys2Proof.Machine

/-! ### One channel after a change of one or of every channel -/

theorem chanAt_congr {s t : State} (h : t.chans = s.chans) (c : Nat) : chanAt t c = chanAt s c := by unfold chanAt; rw [h]

theorem groupAt_congr {s t : State} (h : t.groups = s.groups) (g : Nat) : groupAt t g = groupAt s g := by unfold groupAt; rw [h]

/-- Past the last channel a channel number reads as a channel with nothing known. -/
theorem chanAt_of_length_le {s : State} {c : Nat} (h : s.chans.length ≤ c) : chanAt s c = .init :=
  List.getD_eq_default _ _ h

theorem chanAt_onChans (f : Nat → Chan → Chan) {s : State} {c : Nat} (h : c < s.chans.length) :
    chanAt (onChans f s) c = f c (chanAt s c) := by
  simp [chanAt, List.getD_eq_getElem?_getD, h]

theorem chanAt_onChans_of_fixed {f : Nat → Chan → Chan} {s : State} {c : Nat} (h : f c (chanAt s c) = chanAt s c) :
    chanAt (onChans f s) c = chanAt s c := by
  rcases Nat.lt_or_ge c s.chans.length with hc | hc
  · rw [chanAt_onChans f hc, h]
  · rw [chanAt_of_length_le hc, chanAt_of_length_le (by simpa using hc)]

/-- A reading that f keeps of channel c is kept of every channel when f changes channel c. -/
theorem chanAt_onChan_keeps {β : Type} (r : Chan → β) {f : Chan → Chan} {s : State} {c : Nat}
    (h : r (f (chanAt s c)) = r (chanAt s c)) (j : Nat) : r (chanAt (onChan c f s) j) = r (chanAt s j) := by
  by_cases hj : j = c
  · subst hj
    rcases Nat.lt_or_ge j s.chans.length with hc | hc
    · rw [chanAt_onChan_same j f s hc, h]
    · rw [chanAt_of_length_le hc, chanAt_of_length_le (by simpa using hc)]
  · rw [chanAt_onChan_other c j f s hj]

/-! ### Overload episodes (R46, R47, R51, R52) -/

/-- Samples of channel c from the next modulator edge on begin a new episode. -/
abbrev State.OpensEpisode (s : State) (c : Nat) : Prop := (chanAt s c).ovrEdge = 0 ∨ (chanAt s c).ovrEdge + 18 < edgeNow s

/-- First sample of the episode that overload samples of channel c from now on belong to. -/
def State.episodeFirst (s : State) (c : Nat) : Nat := if s.OpensEpisode c then edgeNow s else (chanAt s c).ovrFirst

/-- Its last sample, after n of them. -/
def State.episodeLast (s : State) (c n : Nat) : Nat :=
  if s.OpensEpisode c then edgeNow s + n - 1 else max (edgeNow s + n - 1) (chanAt s c).ovrEdge

/-- A channel in which the episode of channel c goes on, or begins, with n overload samples from the next modulator edge on. -/
def State.inEpisode (s : State) (c n : Nat) (ch : Chan) : Chan :=
  { addTaint (s.episodeFirst c) (s.episodeLast c n + ovrTail) ch with
    ovrFirst := s.episodeFirst c, ovrEdge := s.episodeLast c n, ovrLevel := true
    ovrCount := if s.OpensEpisode c then satInc ch.ovrCount else ch.ovrCount
    ovrLast := if s.OpensEpisode c then twAt s (edgePt s (edgeNow s)) else ch.ovrLast }

/-- The channels after n overload samples of channel c, before its neighbours are tainted. -/
def State.withEpisode (s : State) (c n : Nat) (side : OvrSide) : State :=
  onChan c (s.inEpisode c n) (onChan c (noteRun (edgeNow s) (edgeNow s + n - 1) side) s)

/-- What n overload samples of channel c do to channel i by the neighbour rule (R51). -/
def State.neighbourTaint (s : State) (c n i : Nat) (ch : Chan) : Chan :=
  if i / 32 = c / 32 ∧ i ≠ c then addTaint (s.episodeFirst c) (s.episodeLast c n + neighbourTail) ch else ch

theorem overload_eq (s : State) (c : Nat) {n : Nat} (side : OvrSide) (hn : 0 < n) :
    overload c n side s =
      if cfgBool s 0x2F43 (c / 32) then onChans (s.neighbourTaint c n) (s.withEpisode c n side) else s.withEpisode c n side := by
  simp only [overload, Nat.ne_of_gt hn, if_false, ← Bool.decide_or, decide_eq_true_eq]
  rfl

theorem overload_only (s : State) (c : Nat) {n : Nat} (side : OvrSide) (hn : 0 < n) :
    overload c n side s = { s with chans := (overload c n side s).chans } := by
  rw [overload_eq s c side hn]; split <;> rfl

theorem withEpisode_chanAt_same {s : State} {c : Nat} (n : Nat) (side : OvrSide) (hc : c < s.chans.length) :
    chanAt (s.withEpisode c n side) c =
      s.inEpisode c n (noteRun (edgeNow s) (edgeNow s + n - 1) side (chanAt s c)) := by
  rw [State.withEpisode, chanAt_onChan_same _ _ _ (by simpa using hc), chanAt_onChan_same _ _ _ hc]

theorem withEpisode_chanAt_other (s : State) {c j : Nat} (n : Nat) (side : OvrSide) (hj : j ≠ c) :
    chanAt (s.withEpisode c n side) j = chanAt s j := by
  rw [State.withEpisode, chanAt_onChan_other _ _ _ _ hj, chanAt_onChan_other _ _ _ _ hj]

/-- The channel of the samples takes its episode, whatever the neighbour rule does. -/
theorem overload_chanAt_same {s : State} {c n : Nat} (side : OvrSide) (hn : 0 < n) (hc : c < s.chans.length) :
    chanAt (overload c n side s) c =
      s.inEpisode c n (noteRun (edgeNow s) (edgeNow s + n - 1) side (chanAt s c)) := by
  rw [overload_eq s c side hn, ← withEpisode_chanAt_same n side hc]
  split
  · exact chanAt_onChans_of_fixed (if_neg (by simp))
  · rfl

/-- Without the neighbour rule, or on another die, a channel stays as it is. -/
theorem overload_chanAt_far {s : State} {c j n : Nat} (side : OvrSide) (hn : 0 < n) (hj : j ≠ c)
    (h : cfgBool s 0x2F43 (c / 32) = false ∨ j / 32 ≠ c / 32) : chanAt (overload c n side s) j = chanAt s j := by
  rw [overload_eq s c side hn, ← withEpisode_chanAt_other s n side hj]
  split
  next hrule => exact chanAt_onChans_of_fixed (if_neg fun hd => (h.resolve_left (by simp [hrule])) hd.1)
  next => rfl

/-- By the neighbour rule the other channels of the die are tainted (R51). -/
theorem overload_chanAt_neighbour {s : State} {c j n : Nat} (side : OvrSide) (hn : 0 < n) (hj : j ≠ c)
    (hjs : j < s.chans.length) (hrule : cfgBool s 0x2F43 (c / 32) = true) (hdie : j / 32 = c / 32) :
    chanAt (overload c n side s) j = addTaint (s.episodeFirst c) (s.episodeLast c n + neighbourTail) (chanAt s j) := by
  rw [overload_eq s c side hn, if_pos hrule, chanAt_onChans _ (by simpa [State.withEpisode] using hjs),
    withEpisode_chanAt_other s n side hj]
  exact if_pos ⟨hdie, hj⟩

theorem exec_overloadExcursion {s : State} (c : Fin 128) (run : OvrRun) (hl : live s = true) :
    exec (.overloadExcursion c run) s = done (overload c.val run.samples run.side s) := if_pos hl

theorem exec_overloadSpanClose {s : State} (c : Fin 128) (hl : live s = true) :
    exec (.overloadSpanClose c) s = done (onChan c.val (fun x => { x with ovrLevel := false }) s) := if_pos hl

/-- Settles O23: the channel of the samples takes its episode, the neighbour rule reaches the other channels of its die alone,
and the end of the span lowers the level. -/
theorem overloadEpisodes : Obligations.OverloadEpisodes := by
  intro s c n side hl hc hn
  rw [exec_overloadExcursion c _ hl, exec_overloadSpanClose c hl]
  have honly := overload_only s c.val side hn
  refine ⟨ex_done s _ (by rw [honly]) (by rw [honly]) fun t ht => ?_,
    ex_done s _ rfl rfl fun t ht => ⟨congrArg State.chans ht, by rw [ht]; rfl⟩⟩
  have hat (j : Nat) : chanAt t j = chanAt (overload c.val n side s) j := chanAt_congr (congrArg State.chans ht) j
  have hself := (hat c.val).trans (overload_chanAt_same side hn hc)
  have hframe : t = { s with chans := t.chans, health := s.settledHealth t, store := s.settledStore t } := by
    rw [ht, honly]; rfl
  clear ht
  rw [hself]
  refine ⟨rfl, rfl, fun h => ⟨if_pos h, if_pos h, if_pos h⟩, fun h => ⟨if_neg h, if_neg h, if_neg h⟩, rfl,
    fun j hj hjs => ⟨fun h => (hat j).trans (overload_chanAt_far side hn hj h),
      fun hrule hdie => (hat j).trans (overload_chanAt_neighbour side hn hj hjs hrule hdie)⟩, hframe⟩

/-! ### The phases of an open-wire check (R55, Table 2.5) -/

theorem owcAdvance_of_due {o : Owc} (e : Nat) (hs : o.state = 2) (hd : o.due = true) (hp : o.phase < 5) :
    owcAdvance e o = { o with
      phase := o.phase + 1, due := false, marks := o.marks ++ [e]
      pull := if o.phase = 2 ∨ o.phase = 3 then 2 else if o.phase = 4 then 0 else 1 } := by
  rw [owcAdvance, if_pos ⟨hs, hd, hp⟩]
  congr 1
  generalize o.phase = p at hp
  interval_cases p <;> rfl

/-- An included channel of the group takes the pull of the phase that has begun. -/
theorem owcPulls_chanAt_included {s : State} {g c : Nat} (hc : c < s.chans.length) (hg : c / 32 = g)
    (hin : (chanAt s c).owcIn = true) :
    chanAt (owcPulls g s) c =
      setPull (edgeNow s)
        (if (groupAt s g).owc.pull = 0 then cfgGet s.conf.cfg (chanKey 3 c)
          else owcPull (groupAt s g).owc.cur (decide ((groupAt s g).owc.pull = 2)))
        (owcPull (groupAt s g).owc.cur false) (chanAt s c) :=
  (chanAt_onChans _ hc).trans (if_pos ⟨hg, hin⟩)

/-- The other channels keep theirs. -/
theorem owcPulls_chanAt_other {s : State} {g c : Nat} (h : c / 32 ≠ g ∨ (chanAt s c).owcIn = false) :
    chanAt (owcPulls g s) c = chanAt s c :=
  chanAt_onChans_of_fixed (if_neg fun ⟨hg, hin⟩ => h.elim (absurd hg) (by simp [hin]))

/-- A phase boundary of group g, before the pulls of its channels. -/
def owcStep (g : Nat) (s : State) : State := onGroup g (fun gr => { gr with owc := owcAdvance (edgeNow s) gr.owc }) s

theorem owcStep_owc {s : State} {g : Nat} (hg : g < s.groups.length) :
    (groupAt (owcStep g s) g).owc = owcAdvance (edgeNow s) (groupAt s g).owc :=
  congrArg Group.owc (groupAt_onGroup_same _ _ _ hg)

theorem owcPhase_of_same_pull {s : State} {g : Nat}
    (h : (groupAt (owcStep g s) g).owc.pull = (groupAt s g).owc.pull) : owcPhase g s = owcStep g s := if_pos h

theorem owcPhase_of_new_pull {s : State} {g : Nat}
    (h : (groupAt (owcStep g s) g).owc.pull ≠ (groupAt s g).owc.pull) : owcPhase g s = owcPulls g (owcStep g s) := if_neg h

theorem owcPhase_groups (g : Nat) (s : State) : (owcPhase g s).groups = (owcStep g s).groups := by
  by_cases h : (groupAt (owcStep g s) g).owc.pull = (groupAt s g).owc.pull
  · rw [owcPhase_of_same_pull h]
  · rw [owcPhase_of_new_pull h]; simp

theorem owcPhase_chanAt_fixed {s : State} {g c : Nat}
    (h : c / 32 ≠ g ∨ (chanAt s c).owcIn = false ∨ (groupAt (owcStep g s) g).owc.pull = (groupAt s g).owc.pull) :
    chanAt (owcPhase g s) c = chanAt s c := by
  by_cases hp : (groupAt (owcStep g s) g).owc.pull = (groupAt s g).owc.pull
  · rw [owcPhase_of_same_pull hp]; rfl
  · rw [owcPhase_of_new_pull hp]
    exact owcPulls_chanAt_other (s := owcStep g s) (h.imp_right fun k => k.resolve_right hp)

/-- Where the pull differs from the phase before, an included channel of the group takes that of the phase that begins. -/
theorem owcPhase_chanAt_included {s : State} {g c : Nat} (hc : c < s.chans.length) (hg : c / 32 = g)
    (hin : (chanAt s c).owcIn = true) (hp : (groupAt (owcStep g s) g).owc.pull ≠ (groupAt s g).owc.pull) :
    chanAt (owcPhase g s) c =
      setPull (edgeNow s)
        (if (groupAt (owcStep g s) g).owc.pull = 0 then cfgGet s.conf.cfg (chanKey 3 c)
          else owcPull (groupAt (owcStep g s) g).owc.cur (decide ((groupAt (owcStep g s) g).owc.pull = 2)))
        (owcPull (groupAt (owcStep g s) g).owc.cur false) (chanAt s c) := by
  rw [owcPhase_of_new_pull hp]
  exact owcPulls_chanAt_included (s := owcStep g s) hc hg hin

theorem owcPhase_only (g : Nat) (s : State) :
    owcPhase g s = { s with groups := (owcPhase g s).groups, chans := (owcPhase g s).chans } := by
  unfold owcPhase
  dsimp only
  split <;> rfl

theorem exec_owcPhaseBoundary {s : State} (g : Fin 4) (hl : live s = true) :
    exec (.owcPhaseBoundary g) s = done (owcPhase g.val s) := if_pos hl

/-! ### What an open-wire check gathers leaves its channels included (R57) -/

@[simp] theorem owcGather_owcIn (marks : List Nat) (a b : Nat) (v : Int) (ch : Chan) :
    (owcGather marks a b v ch).owcIn = ch.owcIn := by
  unfold owcGather; dsimp only; (repeat' split) <;> rfl

@[simp] theorem convert_owcIn (s : State) (c e : Nat) (b : BitVec 18) (ch : Chan) : (convert s c e b ch).owcIn = ch.owcIn := by
  unfold convert; dsimp only; (repeat' split) <;> simp

@[simp] theorem chanStep_owcIn (s : State) (c : Nat) (ch : Chan) (b : BitVec 18) : (chanStep s c ch b).owcIn = ch.owcIn := by
  unfold chanStep
  split
  · exact convert_owcIn ..
  · rfl

theorem foldl_chanStep_owcIn (s : State) (c : Nat) (l : List (BitVec 18)) (ch : Chan) :
    (l.foldl (chanStep s c) ch).owcIn = ch.owcIn := by
  induction l generalizing ch with
  | nil => rfl
  | cons b l ih => rw [List.foldl_cons, ih, chanStep_owcIn]

theorem feedChan_owcIn (f : Feed) (s : State) (c : Nat) : (chanAt (feedChan f s) c).owcIn = (chanAt s c).owcIn :=
  chanAt_onChan_keeps Chan.owcIn (foldl_chanStep_owcIn ..) c

/-- A reading of the state that f keeps is kept by a loop over a list. -/
theorem forList_keeps {α β : Type} (r : State → β) (l : List α) (f : α → State → State) (s : State)
    (h : ∀ a s, r (f a s) = r s) : r (forList l f s) = r s := by
  unfold forList
  induction l generalizing s with
  | nil => rfl
  | cons a l ih => rw [List.foldl_cons, ih, h]

theorem forList_feedChan_owcIn (l : List Feed) (s : State) (c : Nat) :
    (chanAt (forList l feedChan s) c).owcIn = (chanAt s c).owcIn :=
  forList_keeps (fun x => (chanAt x c).owcIn) l feedChan s fun f x => feedChan_owcIn f x c

theorem forList_feedChan_chans_length (l : List Feed) (s : State) : (forList l feedChan s).chans.length = s.chans.length :=
  forList_keeps (fun x => x.chans.length) l feedChan s fun f x => by simp [feedChan]

/-! ### The end of an open-wire check (R57, Table 2.5) -/

@[simp] theorem owcVerdict_owcIn (s : State) (cur c : Nat) (ch : Chan) : (owcVerdict s cur c ch).owcIn = ch.owcIn := by
  unfold owcVerdict; dsimp only; (repeat' split) <;> rfl

/-- The verdicts, by the state s of the check, on the included channels of group g. -/
def owcVerdicts (s : State) (g : Nat) : State → State :=
  onChans fun c ch => if c / 32 = g ∧ ch.owcIn then owcVerdict s (groupAt s g).owc.cur c ch else ch

/-- The check of group g is over, before its completion record. -/
def owcEnded (g : Nat) (feed : List Feed) (s : State) : State :=
  onGroup g (fun gr => { gr with owc := { gr.owc with state := 0, due := false } })
    (owcClose g (edgeNow s) (owcVerdicts s g (forList feed feedChan s)))

/-- The channels that are not under check keep what the conversions have left. -/
theorem owcEnded_chanAt_other {s : State} {g c : Nat} (feed : List Feed) (h : c / 32 ≠ g ∨ (chanAt s c).owcIn = false) :
    chanAt (owcEnded g feed s) c = chanAt (forList feed feedChan s) c := by
  have hnot : ¬(c / 32 = g ∧ (chanAt (forList feed feedChan s) c).owcIn = true) := by
    rw [forList_feedChan_owcIn]; exact fun ⟨hg, hin⟩ => h.elim (absurd hg) (by simp [hin])
  have hverdict : chanAt (owcVerdicts s g (forList feed feedChan s)) c = chanAt (forList feed feedChan s) c :=
    chanAt_onChans_of_fixed (if_neg hnot)
  exact (chanAt_onChans_of_fixed (if_neg (by rwa [hverdict]))).trans hverdict

/-- An included channel has its verdict and leaves the check. -/
theorem owcEnded_chanAt_included {s : State} {g c : Nat} (feed : List Feed) (hc : c < s.chans.length) (hg : c / 32 = g)
    (hin : (chanAt s c).owcIn = true) :
    let judged := owcVerdict s (groupAt s g).owc.cur c (chanAt (forList feed feedChan s) c)
    chanAt (owcEnded g feed s) c = { judged with
      owcIn := false, checks := judged.checks.map fun p => if p.2 = 2 ^ 64 then (p.1, edgeNow s - 1) else p } := by
  intro judged
  have hlen := (forList_feedChan_chans_length feed s).symm ▸ hc
  have hfed : (chanAt (forList feed feedChan s) c).owcIn = true := (forList_feedChan_owcIn feed s c).trans hin
  have hverdict : chanAt (owcVerdicts s g (forList feed feedChan s)) c = judged :=
    (chanAt_onChans _ hlen).trans (if_pos ⟨hg, hfed⟩)
  refine (chanAt_onChans _ (by simpa [owcVerdicts] using hlen)).trans ?_
  rw [hverdict]
  exact if_pos ⟨hg, (owcVerdict_owcIn ..).trans hfed⟩

theorem completeNow_log_head? (k : Completion) (s : State) : (completeNow k s).act.log.head? = some k := by
  simp [completeNow, logCompletion]

section
variable {s : State} {g : Nat} (feed : List Feed) (hs : (groupAt s g).owc.state = 2) (hp : (groupAt s g).owc.phase = 5)
  (hd : (groupAt s g).owc.due = true)
include hs hp hd

theorem owcComplete_of_due :
    owcComplete g feed s =
      if owcShared s g then owcEnded g feed s
      else completeNow (owcRecord s (groupAt s g).owc 5) (owcEnded g feed s) :=
  if_pos ⟨hs, hp, hd⟩

theorem owcComplete_chanAt (c : Nat) :
    chanAt (owcComplete g feed s) c = chanAt (owcEnded g feed s) c := by
  rw [owcComplete_of_due feed hs hp hd]
  split
  · rfl
  · exact chanAt_congr (by simp) c

theorem owcComplete_state (hg : g < s.groups.length) :
    (groupAt (owcComplete g feed s) g).owc.state = 0 := by
  have hended : (groupAt (owcEnded g feed s) g).owc.state = 0 := by
    rw [owcEnded, groupAt_onGroup_same _ _ _ (by simpa [owcVerdicts] using hg)]
  rw [owcComplete_of_due feed hs hp hd]
  split
  · exact hended
  · rw [groupAt_congr (s := owcEnded g feed s) (by simp), hended]

/-- The completion record of a check that no other group shares is the latest. -/
theorem owcComplete_log (h : owcShared s g = false) :
    (owcComplete g feed s).act.log.head? = some (owcRecord s (groupAt s g).owc 5) := by
  rw [owcComplete_of_due feed hs hp hd, if_neg (by simp [h]), completeNow_log_head?]

end

/-- The end of a check changes channels, groups, the completion records and the class queues alone. -/
theorem owcComplete_only (g : Nat) (feed : List Feed) (s : State) :
    owcComplete g feed s = { s with
      chans := (owcComplete g feed s).chans, groups := (owcComplete g feed s).groups, act := (owcComplete g feed s).act
      buf := (owcComplete g feed s).buf } := by
  have h := owcComplete_frame g feed s
  generalize owcComplete g feed s = t at h ⊢
  obtain ⟨_, _⟩ := s
  cases t
  simp_all

theorem exec_owcComplete {s : State} (g : Fin 4) (feed : List Feed) (hl : live s = true) :
    exec (.owcComplete g feed) s = done (owcComplete g.val feed s) := if_pos hl

/-- Settles O24: a boundary puts the next phase and, where it differs, its pull into effect; the end judges the included channels
of the group after the conversions that the command brings, which leave them included. -/
theorem openWireChecks : Obligations.OpenWireChecks := by
  intro s g hl hg hs hd
  refine ⟨fun hp => ?_, fun feed hp => ?_⟩
  · rw [exec_owcPhaseBoundary g hl]
    have honly := owcPhase_only g.val s
    have howc : (groupAt (owcStep g.val s) g.val).owc = _ := (owcStep_owc hg).trans (owcAdvance_of_due (edgeNow s) hs hd hp)
    refine ex_done s _ (by rw [honly]) (by rw [honly]) fun t ht => ?_
    have hat (c : Nat) : chanAt t c = chanAt (owcPhase g.val s) c := chanAt_congr (congrArg State.chans ht) c
    have hgroups : t.groups = (owcStep g.val s).groups := (congrArg State.groups ht).trans (owcPhase_groups g.val s)
    refine ⟨(congrArg Group.owc (groupAt_congr hgroups g.val)).trans howc,
      fun c h => (hat c).trans (owcPhase_chanAt_fixed ?_), fun c hc hcg hin hpull => ?_, by rw [ht, honly]; rfl⟩
    · rwa [howc]
    · rw [hat c, owcPhase_chanAt_included hc hcg hin (by rwa [howc]), howc]
      rfl
  · rw [exec_owcComplete g feed hl]
    have honly := owcComplete_only g.val feed s
    refine ex_done s _ (by rw [honly]) (by rw [honly]) fun t ht => ?_
    have hat (c : Nat) : chanAt t c = chanAt (owcEnded g.val feed s) c :=
      (chanAt_congr (congrArg State.chans ht) c).trans (owcComplete_chanAt feed hs hp hd c)
    refine ⟨?_, fun c hc hcg hin => ?_, fun c h => (hat c).trans (owcEnded_chanAt_other feed h), fun h => ?_,
      by rw [ht, honly]; rfl⟩
    · rw [groupAt_congr (congrArg State.groups ht)]; exact owcComplete_state feed hs hp hd hg
    · rw [hat c, owcEnded_chanAt_included feed hc hcg hin]
      exact ⟨rfl, rfl, rfl⟩
    · exact (congrArg (fun a => a.log.head?) (congrArg State.act ht)).trans (owcComplete_log feed hs hp hd h)

end Sys2Proof.Machine

/-! SUPPORT AND PROOFS. Converter slices and reference: the reference in use and the reference buffers (R67, R68, R70, R382,
R395), and the begin and the end of a start-up self-calibration (R76, R77, R79, R81, R83, R203, R335). -/

namespace Sys2Proof.Machine

/-! ### The supervision of the references (R395) -/

/-- The departures in a row that a reading leaves. -/
def State.departuresWith (s : State) (code : Int) : List Int :=
  if beyondPpm (departure code) (cfgAt s 0x5C60 0) then (code :: s.ref.departures).take 8 else []

/-- A reading of the two references noted. -/
def zenerNoted (code : Int) (s : State) : State :=
  { s with ref := { s.ref with
      zs := (code :: s.ref.zs).take 64, ratio := some (meanRatio ((code :: s.ref.zs).take 64))
      departures := s.departuresWith code } }

section
variable {s : State} {code : Int} (h0 : s.ref.inUse = 0)
include h0

/-- A reading that stands for no reference leads to SAFE at the next tick. -/
theorem judgeZener_of_fault {clip : Bool} (h : clip = true ∨ beyondPpm (departure code) 1000 = true) :
    judgeZener code clip s =
      raisePn 2 { zenerNoted code s with
        power := { s.power with safeDue := s.power.safeDue || decide (s.power.mode ≠ .safe), bootOnly := true } } :=
  (if_neg (by simp [h0])).trans (if_pos (by simpa using h))

variable (h : beyondPpm (departure code) 1000 = false)
include h

theorem judgeZener_of_few (hl : (s.departuresWith code).length < 8) : judgeZener code false s = zenerNoted code s :=
  (if_neg (by simp [h0])).trans ((if_neg (by simp [h])).trans (if_neg (Nat.not_le.mpr hl)))

theorem judgeZener_of_eight (hl : 8 ≤ (s.departuresWith code).length) :
    judgeZener code false s = retirePrimary (s.departuresWith code) (zenerNoted code s) :=
  (if_neg (by simp [h0])).trans ((if_neg (by simp [h])).trans (if_pos hl))

end

theorem departuresWith_inside {s : State} {code : Int} (h : beyondPpm (departure code) (cfgAt s 0x5C60 0) = false) :
    s.departuresWith code = [] := if_neg (by simp [h])

/-- Up to eight departures are kept. -/
theorem departuresWith_outside {s : State} {code : Int} (h : beyondPpm (departure code) (cfgAt s 0x5C60 0) = true)
    (hl : s.ref.departures.length ≤ 7) : s.departuresWith code = code :: s.ref.departures :=
  (if_pos h).trans (List.take_of_length_le (Nat.succ_le_succ hl))

/-! ### The change to the spare reference (R70, R92) -/

/-- A reading that f keeps of channel c is kept when f changes every channel. -/
theorem chanAt_onChans_keeps {β : Type} (r : Chan → β) {f : Nat → Chan → Chan} {s : State} {c : Nat}
    (h : r (f c (chanAt s c)) = r (chanAt s c)) : r (chanAt (onChans f s) c) = r (chanAt s c) := by
  rcases Nat.lt_or_ge c s.chans.length with hc | hc
  · rw [chanAt_onChans f hc, h]
  · rw [chanAt_of_length_le hc, chanAt_of_length_le (by simpa using hc)]

/-- What is noted of the slice that serves a channel leaves its taint. -/
theorem logServe_taint (e : Nat) (was s : State) (c : Nat) : (chanAt (logServe e was s) c).taint = (chanAt s c).taint :=
  chanAt_onChans_keeps Chan.taint (by split <;> rfl)

/-- A switch factor noted leaves the reference in use. -/
@[simp] theorem logSwitch_ref (e : Nat) (was s : State) :
    (logSwitch e was s).ref.inUse = s.ref.inUse ∧ (logSwitch e was s).ref.k = s.ref.k ∧
    (logSwitch e was s).ref.edge = s.ref.edge := by
  unfold logSwitch; split <;> exact ⟨rfl, rfl, rfl⟩

/-- The change is in effect from the next modulator edge on. -/
theorem refChange_ref (k : Int) (s : State) :
    (refChange k s).ref.inUse = 1 ∧ (refChange k s).ref.k = k ∧ (refChange k s).ref.edge = edgeFrom s (s.time.pt + 1) := by
  simp [refChange]

/-- A self-calibration still measures channel c. -/
def State.measures (s : State) (c : Nat) : Bool :=
  decide (s.cal.state = 2) && !s.cal.written && s.cal.mask.testBit (c / 32)

/-- A channel that no self-calibration measures is tainted from the change on. -/
theorem refChange_taint (k : Int) {s : State} {c : Nat} (hc : c < s.chans.length) :
    (chanAt (refChange k s) c).taint =
      if s.measures c then (chanAt s c).taint
      else (addTaint (edgeFrom s (s.time.pt + 1)) (edgeFrom s (s.time.pt + 1) + 17) (chanAt s c)).taint := by
  unfold refChange
  extract_lets e spared t ref t'
  have hlast : (chanAt (keepSave (calAgain (logSwitch e s (logServe e s t')))) c).taint = (chanAt (logServe e s t') c).taint :=
    congrArg Chan.taint (chanAt_congr (by simp) c)
  have ht : chanAt t' c = chanAt t c := chanAt_congr rfl c
  rw [hlast, logServe_taint, ht, chanAt_onChans _ hc]
  exact apply_ite Chan.taint ..

/-- The primary reference is retired, before the change to the spare. -/
def primaryRetired (codes : List Int) (s : State) : State :=
  raisePn 1 (raisePn 2 { s with
    ref := { s.ref with ratio := some (meanRatio codes), departures := [] }
    health.spare := { s.health.spare with primaryRetired := true } })

theorem retirePrimary_eq (codes : List Int) (s : State) :
    retirePrimary codes s = refChange (roundRat ((meanRatio codes - 1) * 2 ^ 30)) (primaryRetired codes s) := rfl

/-! ### The buffers of the dies (R67, R68, R382) -/

theorem updAt_updAt {α : Type} (f g : α → α) (k : Nat) (l : List α) :
    updAt f k (updAt g k l) = updAt (fun x => f (g x)) k l := by
  induction l generalizing k with
  | nil => cases k <;> rfl
  | cons a l ih => cases k <;> simp [updAt, ih]

theorem exec_refReadySet {s : State} (g : Fin 4) (hl : live s = true) (he : (dieAt s g.val).refEnable = true)
    (hb : (dieAt s g.val).bufOut = false) (ho : s.power.refOven = true) :
    exec (.refReadySet g) s = done (onDie g.val (fun d => { d with refReady := true }) s) :=
  (if_pos hl).trans (congrArg done (if_pos ⟨he, by simp [hb], ho⟩))

/-- The slices of die g begin or cease to convert as its buffer changes by f. -/
theorem setConv_onDie_dies (on : Bool) (g : Nat) (f : Die → Die) (s : State) :
    (setConv on g (onDie g f s)).dies =
      updAt (fun d => { f d with convLog := logPush (!on) on (edgeNow s) (f d).convLog }) g s.dies :=
  updAt_updAt ..

/-- Die g with its buffer enabled. -/
def bufferOn (g : Nat) (s : State) : State :=
  gatePut g 0 <| setConv true g <|
    onDie g (fun d => { d with refEnable := true, bufOut := false, enabledAt := s.time.pt, bufOkFrom := s.time.pt }) s

theorem refbufWrite_enables {r : Role} {g : Nat} {s : State} (hl : live s = true) (hr : roleOk r .operator = true)
    (he : (dieAt s g).refEnable = false) (hc : s.cal.state = 0) : refbufWrite r g 1 s = accept (bufferOn g s) := by
  have hfree : ¬((dieAt s g).refEnable = true ∨ s.cal.state ≠ 0) := by simp [he, hc]
  exact (gate_pass _ _ _ _ _ _ hr rfl (servedModes_contains hl)).trans ((if_pos rfl).trans (if_neg hfree))

/-- Die g with its buffer disabled: its visit is abandoned. -/
def bufferOff (g : Nat) (s : State) : State :=
  logServe (edgeNow s) s <| gatePut g 1 <| setConv false g <|
    onDie g (fun d => { abandonVisit d with refEnable := false, refReady := false, bufOut := false }) s

theorem refbufWrite_disables {r : Role} {g : Nat} {s : State} (hl : live s = true) (hr : roleOk r .operator = true)
    (he : (dieAt s g).refEnable = true) (hc : s.cal.state = 0) (hs : dieStreams s g = false) :
    refbufWrite r g 0 s = accept (bufferOff g s) := by
  have hon : ¬(!(dieAt s g).refEnable) = true := by simp [he]
  have hfree : ¬(s.cal.state ≠ 0 ∨ dieStreams s g = true) := by simp [hc, hs]
  exact (gate_pass _ _ _ _ _ _ hr rfl (servedModes_contains hl)).trans
    ((if_neg nofun).trans ((if_neg hon).trans (if_neg hfree)))

theorem bufferOff_only (g : Nat) (s : State) :
    bufferOff g s = { s with
      dies := (bufferOff g s).dies, chans := (bufferOff g s).chans, clocks := (bufferOff g s).clocks } := by
  simp only [bufferOff, logServe, gatePut, setConv, onDie, onChans]

/-- The channels of another die are served as before. -/
theorem bufferOff_chanAt {g c : Nat} (s : State) (h : c / 32 ≠ g) : chanAt (bufferOff g s) c = chanAt s c := by
  have hdie : (bufferOff g s).dies.getD (c / 32) (Die.init (c / 32)) = dieAt s (c / 32) := by
    simp only [bufferOff, logServe_frame, gatePut_frame, setConv_onDie_dies]
    exact updAt_getD_other _ _ _ _ _ h
  refine chanAt_onChans_of_fixed (if_pos ?_)
  unfold servingNow
  rw [← hdie]
  rfl

/-- Settles O20: what a reading leaves, by the run of departures; the eighth changes the reference; a buffer that is enabled or
disabled changes its die, and one that is disabled what serves the channels of the die. -/
theorem referenceBuffers : Obligations.ReferenceBuffers := by
  refine ⟨fun s code clip h0 h => ?_, fun s code h0 h => ⟨fun hin => ?_, fun hout hl => ?_, fun hout hl => ?_⟩,
    fun s g hl => ⟨fun he hb ho => ?_, fun r hr he hc => ?_, fun r hr he hc hs => ?_⟩⟩
  · rw [judgeZener_of_fault h0 h]
    exact ⟨rfl, h0, rfl⟩
  · have hd := departuresWith_inside hin
    rw [judgeZener_of_few h0 h (by rw [hd]; exact Nat.succ_pos _)]
    exact ⟨hd, h0, rfl⟩
  · have hd := departuresWith_outside hout (Nat.le_of_lt hl)
    rw [judgeZener_of_few h0 h (by rw [hd]; exact Nat.succ_lt_succ hl)]
    exact ⟨hd, h0, rfl⟩
  · have hd := departuresWith_outside hout (Nat.le_of_eq hl)
    rw [judgeZener_of_eight h0 h (by rw [hd]; exact Nat.le_of_eq (congrArg Nat.succ hl.symm)), hd,
      retirePrimary_eq]
    intro t e measured
    obtain ⟨hu, hk, he⟩ := refChange_ref (roundRat ((meanRatio (code :: s.ref.departures) - 1) * 2 ^ 30))
      (primaryRetired (code :: s.ref.departures) (zenerNoted code s))
    exact ⟨hu, hk, he, by simp [t, primaryRetired, raisePn], fun c hc => refChange_taint _ hc⟩
  · rw [exec_refReadySet g hl he hb ho]
    exact ex_done s _ rfl rfl fun t ht => ⟨congrArg State.dies ht, by rw [ht]; rfl⟩
  · refine ex_served s _ _ hl (refbufWrite_enables hl hr he hc) rfl rfl fun t ht => ?_
    have hdies : t.dies = (bufferOn g.val s).dies := by rw [ht]; rfl
    exact ⟨by rw [ht]; rfl, hdies.trans (setConv_onDie_dies ..), by rw [ht]; rfl, by rw [ht]; rfl⟩
  · have honly := bufferOff_only g.val s
    refine ex_served s _ _ hl (refbufWrite_disables hl hr he hc hs) (by rw [accept_st, honly]) (by rw [accept_st, honly])
      fun t ht => ?_
    have hdies : t.dies = (bufferOff g.val s).dies := by rw [ht]; rfl
    have hchans : t.chans = (bufferOff g.val s).chans := by rw [ht]; rfl
    have hclocks : t.clocks = (bufferOff g.val s).clocks := by rw [ht]; rfl
    exact ⟨by rw [ht, accept_st, honly]; rfl, hdies.trans (setConv_onDie_dies ..), hclocks,
      fun c h => (chanAt_congr hchans c).trans (bufferOff_chanAt s h), by rw [ht, accept_st, honly]; rfl⟩

/-! ### A self-calibration begins -/

/-- What CAL_START notes of the calibration that it asks for (R76, R77). -/
def calAsked (v : BitVec 8) (s : State) : State :=
  { s with cal := { s.cal with
      state := 1, mask := v.toNat, c0 := directTick s, endTick := calEndTick s (directTick s) 0
      extensions := 0, restart := none, written := false } }

theorem calStartWrite_accepts {s : State} {r : Role} {v : BitVec 8} (hr : roleOk r .operator = true) (hv : calMaskOk v = true)
    (hm : s.power.mode = .ready) (h0 : s.cal.state = 0)
    (hdies : ∀ g < 4, v.toNat.testBit g = true → (dieAt s g).refReady = true ∧ fadeState s g = 0)
    (howc : ∀ g < 4, owcState s g = 0)
    (hsched : ∀ e ∈ s.act.sched, TW.atOrBefore e.fire (calEndTick s (directTick s) 0) = false) :
    calStartWrite r v s = ⟨0, octetsOf 8 (directTick s).toNat, calAsked v s⟩ := by
  refine (gate_pass _ _ _ _ _ _ hr hv (by rw [hm]; rfl)).trans ?_
  have hbusy : ¬((List.range 4).any fun g =>
      (v.toNat.testBit g && (!(dieAt s g).refReady || decide (fadeState s g ≠ 0))) || decide (owcState s g ≠ 0)) = true := by
    simpa using fun g hg => ⟨fun hb => hdies g hg hb, howc g hg⟩
  have hearly : ¬(s.act.sched.any fun x => TW.atOrBefore x.fire (calEndTick s (directTick s) 0)) = true := by
    simpa using hsched
  dsimp only
  rw [if_neg (by simp [h0]), if_neg hbusy, if_neg hearly]
  rfl

/-- Outside READY and RUN every trigger output is low, and no pulse waits for it (R203). -/
theorem outsLow_low {s : State} (h : outsMode s = false) : ∀ q ∈ (outsLow s).outs, q.level = false ∧ q.starts = [] := by
  intro q hq
  obtain ⟨i, hi, rfl⟩ := List.mem_mapIdx.mp hq
  simp [h]

/-- A calibration that begins changes the dies, their channels and the auxiliary path. -/
theorem calBegin_only (mask : Nat) (s : State) :
    calBegin mask s = { s with
      cal := (calBegin mask s).cal, dies := (calBegin mask s).dies, chans := (calBegin mask s).chans
      aux := (calBegin mask s).aux } := by
  have h := calBegin_frame mask s
  generalize calBegin mask s = t at h ⊢
  obtain ⟨_, _⟩ := s
  cases t
  simp_all

/-- The module enters CALIBRATE with the power part p: no slice has failed yet, and the trigger outputs are low. -/
def calEntered (p : Power) (s : State) : State :=
  outsLow { s with power := { p with mode := .calibrate }, cal := { s.cal with retiredOn := 0, failedOn := 0 } }

theorem calEntered_outs_low (p : Power) (s : State) : ∀ q ∈ (calEntered p s).outs, q.level = false ∧ q.starts = [] :=
  outsLow_low rfl

theorem calC0_of_warm {s : State} (hm : s.power.mode = .warm) (hf : s.cal.fromWarm = true) :
    calC0 s = calBegin (enabledMask s) (calEntered { s.power with warmEnd := some s.time.pt } s) := if_pos ⟨hf, hm⟩

theorem calC0_of_ready {s : State} (hm : s.power.mode = .ready) (hf : s.cal.fromWarm = false) (h1 : s.cal.state = 1) :
    calC0 s = calBegin s.cal.mask (calEntered s.power s) :=
  (if_neg (by simp [hf])).trans (if_pos ⟨h1, hm⟩)

theorem exec_calC0 {s : State} (hl : live s = true) (hh : s.power.hibEntry = false) : exec .calC0 s = done (calC0 s) :=
  (if_neg (by simp [hh])).trans (if_pos hl)

theorem exec_calRestart {s : State} (hl : live s = true) : exec .calRestart s = done (calRestart s) := if_pos hl

/-- The next state of a calibration that begins at C0 as the module enters CALIBRATE. -/
theorem ex_calEntered {P : State → Prop} (s : State) (mask : Nat) (p : Power)
    (h : ∀ t, t.power = { p with mode := .calibrate } →
      t.cal = (calBegin mask (calEntered p s)).cal →
      (∀ q ∈ t.outs, q.level = false ∧ q.starts = []) →
      t = { s with
        power := t.power, cal := t.cal, dies := t.dies, chans := t.chans, aux := t.aux, outs := t.outs
        health := s.settledHealth t, store := s.settledStore t } → P t) :
    ∃ t, done (calBegin mask (calEntered p s)) = .next t ∧ P t := by
  have honly := calBegin_only mask (calEntered p s)
  refine ex_done s _ (by rw [honly]; rfl) (by rw [honly]; rfl) fun t ht => ?_
  have hpower : t.power = (calEntered p s).power := (congrArg State.power ht).trans (by simp)
  have houts : t.outs = (calEntered p s).outs := (congrArg State.outs ht).trans (by simp)
  exact h t hpower (by rw [ht]) (by rw [houts]; exact calEntered_outs_low p s) (by rw [ht, honly]; rfl)

/-- Settles O21: CAL_START notes what it asks for, and each C0, out of WARM, READY or a restart, begins the same calibration. -/
theorem calibrationBegins : Obligations.CalibrationBegins := by
  intro s
  refine ⟨fun r v hr hv hm h0 hdies howc hsched => ?_, fun hh hm hf => ?_, fun hh hm hf h1 => ?_, fun hm hrestart => ?_⟩
  · have hl : live s = true := by rw [live, hm]; rfl
    exact ex_served s _ _ hl (calStartWrite_accepts hr hv hm h0 hdies howc hsched) rfl rfl fun t ht =>
      ⟨congrArg State.out ht, congrArg State.cal ht, by rw [ht]; rfl⟩
  · rw [exec_calC0 (by rw [live, hm]; rfl) hh, calC0_of_warm hm hf]
    refine ex_calEntered s _ _ fun t hp hc ho hs => ⟨hp, ?_⟩
    rw [hc]
    exact ⟨rfl, rfl, rfl, rfl, rfl, rfl, rfl, ho, hc ▸ hs⟩
  · rw [exec_calC0 (by rw [live, hm]; rfl) hh, calC0_of_ready hm hf h1]
    refine ex_calEntered s _ _ fun t hp hc ho hs => ⟨hp, ?_⟩
    rw [hc]
    exact ⟨rfl, rfl, rfl, rfl, rfl, rfl, rfl, ho, hc ▸ hs⟩
  · have hbegin : calRestart s = calBegin s.cal.mask s := if_pos ⟨hm, hrestart⟩
    have honly := calBegin_only s.cal.mask s
    rw [exec_calRestart (by rw [live, hm]; rfl), hbegin]
    refine ex_done s _ (by rw [honly]) (by rw [honly]) fun t ht => ?_
    have hc : t.cal = (calBegin s.cal.mask s).cal := by rw [ht]
    have hframe : t = { s with
        cal := t.cal, dies := t.dies, chans := t.chans, aux := t.aux, health := s.settledHealth t
        store := s.settledStore t } := by rw [ht, honly]; rfl
    rw [hc] at hframe ⊢
    exact ⟨rfl, rfl, rfl, rfl, rfl, hframe⟩

/-! ### A self-calibration ends -/

/-- A self-calibration of a fifth die alone is under way, which no slice or buffer has failed. -/
def fifthDieCalibrates : State :=
  { State.reset with
    power := { State.reset.power with mode := .calibrate }
    cal := { State.reset.cal with state := 2, mask := 16 }
    dies := State.reset.dies ++ [Die.init 4] }

theorem fifthDieCalibrates_orphan : ∀ d ∈ fifthDieCalibrates.dies, d.orphan = 0 := by decide

/-- The end gives a result to every die of the mask, the fifth too. -/
theorem calEnd_fifthDieCalibrates_calResult :
    (calEnd fifthDieCalibrates).dies.map (·.calResult) = [0, 0, 0, 0, 1] := by decide +kernel

/-- CAL_END with the C0 and the end tick of the calibration that runs ends it. -/
theorem exec_calEnd_dies {s t : State} (hl : live s = true) (h : exec (.calEnd s.cal.c0 s.cal.endTick) s = .next t) :
    t.dies = (calEnd s).dies := by
  have hend : exec (.calEnd s.cal.c0 s.cal.endTick) s = done (calEnd s) :=
    (if_pos hl).trans (congrArg done (if_pos ⟨rfl, rfl⟩))
  cases hend.symm.trans h
  simp

/-- Refutes O22: the statement lets a die past the fourth keep its result, while the end of a self-calibration judges each die of
its mask; a state with a fifth die in the mask shows the difference. -/
theorem not_calibrationEnds : ¬ Obligations.CalibrationEnds := by
  intro h
  obtain ⟨_, hend, _⟩ := h
  obtain ⟨t, ht, _, _, hresults, _⟩ := hend fifthDieCalibrates rfl rfl rfl rfl fifthDieCalibrates_orphan
  rw [exec_calEnd_dies rfl ht, calEnd_fifthDieCalibrates_calResult] at hresults
  have hstated : fifthDieCalibrates.dies.mapIdx (fun g d =>
      if fifthDieCalibrates.cal.mask.testBit g ∧ g < 4 then (if fifthDieCalibrates.cal.retiredOn.testBit g then 2 else 1)
      else d.calResult) = [0, 0, 0, 0, 0] := by decide
  exact absurd (hresults.trans hstated) (by decide)

end Sys2Proof.Machine

/-! SUPPORT AND PROOFS. Converter slices and reference: conversions, resampled outputs and the parts of a block (R48, R68, R112,
R148, R154, R270, R271, R308). -/

namespace Sys2Proof.Machine

/-! ### Conversions given to a channel (R68, R112) -/

@[simp] theorem owcGather_path (marks : List Nat) (a b : Nat) (v : Int) (ch : Chan) :
    (owcGather marks a b v ch).path = ch.path := by
  unfold owcGather; dsimp only; (repeat' split) <;> rfl

/-- A conversion at edge e leaves the channel's path at the edge after it. -/
theorem convert_path_e (s : State) (c e : Nat) (b : BitVec 18) (ch : Chan) : (convert s c e b ch).path.e = e + 1 := by
  unfold convert; dsimp only; (repeat' split) <;> simp

section
variable {s : State} {c : Nat}

/-- While the die converts, each conversion moves the edge count by one. -/
theorem foldl_chanStep_path_e (l : List (BitVec 18)) {ch : Chan}
    (h : ∀ e, ch.path.e ≤ e → logAt true (dieAt s (c / 32)).convLog e = true) :
    (l.foldl (chanStep s c) ch).path.e = ch.path.e + l.length := by
  induction l generalizing ch with
  | nil => rfl
  | cons b l ih =>
    have hnext : nextConv (dieAt s (c / 32)).convLog ch.path.e = some ch.path.e := if_pos (h _ (Nat.le_refl _))
    have hstep : (chanStep s c ch b).path.e = ch.path.e + 1 := by
      unfold chanStep; rw [hnext]; exact convert_path_e ..
    rw [List.foldl_cons, ih fun e he => h e (by omega), hstep, List.length_cons]
    omega

/-- Once the die has ceased to convert, no conversion takes a place. -/
theorem foldl_chanStep_of_ceased (l : List (BitVec 18)) {ch : Chan}
    (h : nextConv (dieAt s (c / 32)).convLog ch.path.e = none) : l.foldl (chanStep s c) ch = ch := by
  induction l with
  | nil => rfl
  | cons b l ih =>
    have hstep : chanStep s c ch b = ch := by unfold chanStep; rw [h]
    rw [List.foldl_cons, hstep, ih]

end

/-- An element put where it stands changes nothing. -/
theorem updAt_getD_self {α : Type} (k : Nat) (l : List α) (d : α) : updAt (fun _ => l.getD k d) k l = l := by
  induction l generalizing k with
  | nil => cases k <;> rfl
  | cons a l ih =>
    cases k with
    | zero => rfl
    | succ k => exact congrArg (a :: ·) (ih k)

theorem feedChan_chans_of_ceased {f : Feed} {s : State}
    (h : nextConv (dieAt s (f.ch.val / 32)).convLog (chanAt s f.ch.val).path.e = none) : (feedChan f s).chans = s.chans := by
  simp only [feedChan, foldl_chanStep_of_ceased f.samples h, onChan_chans]
  exact updAt_getD_self ..

theorem feedChan_chanAt_same {f : Feed} {s : State} (h : f.ch.val < s.chans.length) :
    chanAt (feedChan f s) f.ch.val = f.samples.foldl (chanStep s f.ch.val) (chanAt s f.ch.val) := chanAt_onChan_same _ _ _ h

/-! ### Averages (R154) -/

/-- What an averager holds with an output taken (R154). -/
def Averager.taking (o : Resampled) (a : Averager) : Averager :=
  { a with
    sums := if a.count = 0 then o.zs else addLists a.sums o.zs
    flags := if a.count = 0 then o.flags else List.zipWith (· ||| ·) a.flags o.flags
    count := if a.count = 0 then 1 else a.count + 1, ident := o.ident }

theorem average_inside {k : Nat} {o : Resampled} {a : Averager} (ha : a.open_ = true) (h : (o.n + 1) % 2 ^ k ≠ 0) :
    average k o a = (a.taking o, none) := by
  by_cases hc : a.count = 0 <;> simp [average, Averager.taking, ha, h, hc]

/-- At the last output of an interval the averager delivers and begins anew. -/
theorem average_last {k : Nat} {o : Resampled} {a : Averager} (ha : a.open_ = true) (h : (o.n + 1) % 2 ^ k = 0) :
    average k o a =
      (let x := a.taking o
       let ws := x.sums.map fun z => finalWord z (256 * x.count)
       ({ x with sums := [], flags := [], count := 0 }, some ⟨o.n, o.ident, o.epoch, o.shift, ws.map (·.1),
          List.zipWith (fun f w => if w.2 then f ||| 1 else f) x.flags ws⟩)) := by
  by_cases hc : a.count = 0 <;> simp [average, Averager.taking, ha, h, hc]

/-- Without averaging each output is delivered. -/
theorem average_none_delivers (o : Resampled) (a : Averager) : ∃ q, (average 0 o a).2 = some q ∧ q.n = o.n := by
  cases ha : a.open_ with
  | true => rw [average_last ha (by rw [Nat.pow_zero, Nat.mod_one])]; exact ⟨_, rfl, rfl⟩
  | false => simp [average, ha, Nat.mod_one]

/-! ### Final words (R48) -/

/-- A rounded quotient is the nearest whole number. -/
theorem roundDiv_near (n : Int) {d : Nat} (hd : 0 < d) : 2 * (n - roundDiv n d * d).natAbs ≤ d := by
  have key (m : Int) : (2 * m + d) - 2 * d < 2 * ((2 * m + d) / (2 * d) * d) ∧ 2 * ((2 * m + d) / (2 * d) * d) ≤ 2 * m + d := by
    have h1 := Int.emod_add_mul_ediv (2 * m + d) (2 * d)
    have h2 := Int.emod_nonneg (2 * m + d) (b := 2 * d) (by omega)
    have h3 := Int.emod_lt_of_pos (2 * m + d) (b := 2 * d) (by omega)
    have h4 : (2 * (d : Int)) * ((2 * m + d) / (2 * d)) = 2 * ((2 * m + d) / (2 * d) * d) := by ring
    omega
  unfold roundDiv
  split
  · have := key n
    omega
  · have := key (-n)
    rw [Int.neg_mul]
    omega

theorem finalWord_cases (z : Int) (d : Nat) :
    (2 ^ 31 - 1 < roundDiv z d ∧ finalWord z d = (2 ^ 31 - 1, true)) ∨
    (roundDiv z d < -(2 ^ 31 - 1) ∧ finalWord z d = (-(2 ^ 31 - 1), true)) ∨
    (-(2 ^ 31 - 1) ≤ roundDiv z d ∧ roundDiv z d ≤ 2 ^ 31 - 1 ∧ finalWord z d = (roundDiv z d, false)) := by
  unfold finalWord
  dsimp only
  split
  · exact .inl ⟨by assumption, rfl⟩
  · split
    · exact .inr (.inl ⟨by assumption, rfl⟩)
    · exact .inr (.inr ⟨by omega, by omega, rfl⟩)

theorem finalWord_spec (z : Int) {d : Nat} (hd : 0 < d) :
    -(2 ^ 31 - 1) ≤ (finalWord z d).1 ∧ (finalWord z d).1 ≤ 2 ^ 31 - 1 ∧
    ((finalWord z d).2 = false → 2 * (z - (finalWord z d).1 * d).natAbs ≤ d) ∧
    ((finalWord z d).2 = true → (finalWord z d).1 = 2 ^ 31 - 1 ∨ (finalWord z d).1 = -(2 ^ 31 - 1)) := by
  obtain ⟨_, h⟩ | ⟨_, h⟩ | ⟨hlo, hhi, h⟩ := finalWord_cases z d <;> rw [h]
  · exact ⟨by decide, by decide, nofun, fun _ => .inl rfl⟩
  · exact ⟨by decide, by decide, nofun, fun _ => .inr rfl⟩
  · exact ⟨hlo, hhi, fun _ => roundDiv_near z hd, nofun⟩

/-! ### What the trigger units change as they take an output (R183, R187) -/

/-- From s to t the trigger units have acted: their outputs, the frames and records that they send, and pennants. -/
def UnitsActed (s t : State) : Prop :=
  t = { s with
    units := t.units, outs := t.outs, link := t.link, ev := t.ev, fv := t.fv
    health := { s.health with pennants := t.health.pennants } }

theorem UnitsActed.refl (s : State) : UnitsActed s s := rfl

theorem UnitsActed.trans {a b c : State} (h : UnitsActed a b) (k : UnitsActed b c) : UnitsActed a c := by
  unfold UnitsActed at *; rw [k, h]

theorem UnitsActed.ite {s : State} {c : Prop} [Decidable c] {a b : State} (ha : UnitsActed s a) (hb : UnitsActed s b) :
    UnitsActed s (if c then a else b) := by
  split
  · exact ha
  · exact hb

theorem unitsActed_forNat (n : Nat) (f : Nat → State → State) (s : State) (h : ∀ k s, UnitsActed s (f k s)) :
    UnitsActed s (forNat n f s) := by
  induction n with
  | zero => exact .refl s
  | succ n ih => rw [forNat_succ]; exact ih.trans (h n _)

theorem unitsActed_onUnit (u : Nat) (f : Unit → Unit) (s : State) : UnitsActed s (onUnit u f s) := rfl

theorem unitsActed_trgOffer (u : Nat) (ev : TrgEvent) (s : State) : UnitsActed s (trgOffer u ev s) := by
  have h := trgOffer_frame u ev s
  have hp : (trgOffer u ev s).health = _ := pennantsOnly_trgOffer u ev s
  unfold UnitsActed
  rw [← hp]
  clear hp
  generalize trgOffer u ev s = t at h ⊢
  obtain ⟨_, _⟩ := s
  cases t
  simp_all

theorem unitsActed_trgClose (u : Nat) (s : State) : UnitsActed s (trgClose u s) := by
  unfold trgClose disarmUnit
  dsimp only
  (repeat' split) <;> rfl

theorem unitsActed_trgStore (u : Nat) (o : OutRec) (s : State) : UnitsActed s (trgStore u o s) := by
  unfold trgStore
  extract_lets cap rate x y place keep s1
  have h1 : UnitsActed s s1 := unitsActed_onUnit ..
  exact .ite (.refl s) ((h1.trans (unitsActed_trgClose u s1)).trans (unitsActed_onUnit ..))

theorem unitsActed_whenever {s t : State} (b : Bool) {f : State → State} (h : UnitsActed s t) (hf : UnitsActed t (f t)) :
    UnitsActed s (whenever b f t) := by
  cases b
  · exact h
  · exact h.trans hf

theorem unitsActed_trgWatch (u : Nat) (chans : List Nat) (o : Resampled) (s : State) : UnitsActed s (trgWatch u chans o s) := by
  unfold trgWatch
  extract_lets kind ev i xn tnt skipTnt d s1 x
  have h1 : UnitsActed s s1 := unitsActed_onUnit ..
  refine .ite (.refl s) (.ite h1 ?_)
  split
  · exact h1
  · refine .ite h1 ?_
    extract_lets v r s2 edge s3
    have h2 : UnitsActed s s2 := h1.trans (unitsActed_onUnit ..)
    have h3 : UnitsActed s s3 := unitsActed_whenever _ h2 (unitsActed_trgOffer ..)
    exact unitsActed_whenever _ h3 (unitsActed_trgOffer ..)

theorem unitsActed_trgSample (u : Nat) (chans : List Nat) (o : Resampled) (s : State) :
    UnitsActed s (trgSample u chans o s) := by
  unfold trgSample
  extract_lets r s1
  have h1 : UnitsActed s s1 := unitsActed_onUnit ..
  split
  · exact .ite (h1.trans (unitsActed_trgStore ..)) h1
  · exact h1

/-! ### A resampled output (R148, R154, R270) -/

/-- Stream t takes what its averager holds and delivers at an output: the grid moves on, and words delivered go on the open
block. -/
def Stream.taking (k : Nat) (r : Averager × Option OutRec) (words : OutRec → OutRec) (t : Stream) : Stream :=
  match r.2 with
  | some q => appendOutput k (words q) { gridStep t with avg := r.1 }
  | none => { gridStep t with avg := r.1 }

/-- Stream st has taken its next output o, before the trigger units do. -/
def outputTaken (st : Nat) (o : Resampled) (s : State) : State :=
  onStream st (Stream.taking (cfgAt s 0x3602 st) (average (cfgAt s 0x3602 st) o (streamAt s st).avg)
    (orphanWords s st (maskChans (streamMask s.conf.cfg st)))) s

theorem outputFormed_of_stopped {st : Nat} {f : Feed} {s : State} (h : (streamAt s st).running = false) :
    outputFormed st [f] s = feedChan f s :=
  if_neg (fun hr : (streamAt (feedChan f s) st).running = true => Bool.false_ne_true (h.symm.trans hr))

/-- After its stream a complete window goes to the trigger units, which leave the streams as they are. -/
theorem outputFormed_acts {st : Nat} {o : Resampled} {s : State} (hr : (streamAt s st).running = true)
    (ho : formOutput s st = some o) : UnitsActed (outputTaken st o s) (outputFormed st [] s) := by
  have hform : outputFormed st [] s = _ := if_pos hr
  rw [hform]
  change UnitsActed _ (match formOutput s st with | none => s | some o => _)
  rw [ho]
  exact (unitsActed_forNat 8 _ _ fun u x => unitsActed_whenever _ (.refl x) (unitsActed_trgWatch ..)).trans
    (unitsActed_forNat 8 _ _ fun u x => unitsActed_whenever _ (.refl x) (unitsActed_trgSample ..))

theorem appendOutput_gridIndex (k : Nat) (q : OutRec) (t : Stream) : (appendOutput k q t).gridIndex = q.n := by
  unfold appendOutput; dsimp only; (repeat' split) <;> rfl

theorem appendOutput_avg (k : Nat) (q : OutRec) (t : Stream) : (appendOutput k q t).avg = t.avg := by
  unfold appendOutput; dsimp only; (repeat' split) <;> rfl

/-- The output is the newest of the part in progress. -/
theorem appendOutput_parts (k : Nat) (q : OutRec) (t : Stream) :
    ∃ p l, (appendOutput k q t).parts = p :: l ∧ p.outs.head? = some q := by
  unfold appendOutput; dsimp only; (repeat' split) <;> exact ⟨_, _, rfl, rfl⟩

theorem gridStep_parts (t : Stream) : (gridStep t).parts = t.parts := by unfold gridStep; split <;> rfl

section
variable (k : Nat) {r : Averager × Option OutRec} (words : OutRec → OutRec) (t : Stream)

theorem Stream.taking_avg : (t.taking k r words).avg = r.1 := by
  unfold Stream.taking
  split
  · exact appendOutput_avg ..
  · rfl

theorem Stream.taking_none (h : r.2 = none) : (t.taking k r words).parts = t.parts := by
  unfold Stream.taking; rw [h]; exact gridStep_parts t

theorem Stream.taking_some {q : OutRec} (h : r.2 = some q) :
    t.taking k r words = appendOutput k (words q) { gridStep t with avg := r.1 } := by
  unfold Stream.taking; rw [h]

end

/-- The units' part of a cycle, and the settling of the flags at its end. -/
theorem UnitsActed.settled {s t : State} (h : UnitsActed s t) :
    settle t = { s with
      units := (settle t).units, outs := (settle t).outs, link := (settle t).link, ev := (settle t).ev, fv := (settle t).fv
      health := s.settledHealth (settle t), store := s.settledStore (settle t) } := by
  have hs := settle_settled t
  unfold UnitsActed at h
  unfold Settled State.settledHealth State.settledStore at *
  generalize settle t = u at hs ⊢
  rw [hs, h]

theorem exec_resampledOutputFormed {s : State} (st : Fin 16) (feed : List Feed) (hl : live s = true) :
    exec (.resampledOutputFormed st feed) s = done (outputFormed st.val feed s) := if_pos hl

/-- The next state where a complete window gives output o: the stream's, and what the trigger units do. -/
theorem ex_outputFormed {P : State → Prop} {s : State} {st : Fin 16} {o : Resampled} (hl : live s = true)
    (hr : (streamAt s st.val).running = true) (ho : formOutput s st.val = some o)
    (h : ∀ t, t.streams = (outputTaken st.val o s).streams →
      t = { s with
        streams := t.streams, units := t.units, outs := t.outs, link := t.link, ev := t.ev, fv := t.fv
        health := s.settledHealth t, store := s.settledStore t } → P t) :
    ∃ t, exec (.resampledOutputFormed st []) s = .next t ∧ P t := by
  rw [exec_resampledOutputFormed st [] hl]
  have hacts := (outputFormed_acts hr ho).settled
  have hstreams : (settle (outputFormed st.val [] s)).streams = (outputTaken st.val o s).streams := by rw [hacts]
  exact ⟨_, rfl, h _ hstreams (by rw [hstreams]; exact hacts)⟩

/-- The stream that has taken the output. -/
theorem outputTaken_streamAt_same (o : Resampled) {s : State} {st : Nat} (h : st < s.streams.length) :
    streamAt (outputTaken st o s) st =
      (streamAt s st).taking (cfgAt s 0x3602 st) (average (cfgAt s 0x3602 st) o (streamAt s st).avg)
        (orphanWords s st (maskChans (streamMask s.conf.cfg st))) := streamAt_onStream_same _ _ _ h

theorem outputTaken_streamAt_other (o : Resampled) (s : State) {st j : Nat} (h : j ≠ st) :
    streamAt (outputTaken st o s) j = streamAt s j := updAt_getD_other _ _ _ _ _ h

theorem streamAt_congr {s t : State} (h : t.streams = s.streams) (n : Nat) : streamAt t n = streamAt s n := by
  unfold streamAt; rw [h]

/-! ### The class queues (R296, R307, R308) -/

/-- Class queue q holds frame f, in the assembly area or in the reserve. -/
def State.holds (s : State) (q : Nat) (f : Frame) : Prop :=
  f.copied ∈ s.buf.asm.getD q [] ∨ { f.copied with moved := true } ∈ s.buf.res.getD q []

/-- What s holds in class queue q and is of the kind p, t holds there too, in as many queues. -/
structure State.KeepsQueue (s t : State) (q : Nat) (p : Frame → Prop) : Prop where
  asm : ∀ x, p x → x ∈ s.buf.asm.getD q [] → x ∈ t.buf.asm.getD q []
  res : ∀ x, p x → x ∈ s.buf.res.getD q [] → x ∈ t.buf.res.getD q []
  asmLength : t.buf.asm.length = s.buf.asm.length
  resLength : t.buf.res.length = s.buf.res.length

theorem State.KeepsQueue.trans {a b c : State} {q : Nat} {p : Frame → Prop} (h : a.KeepsQueue b q p) (k : b.KeepsQueue c q p) :
    a.KeepsQueue c q p :=
  ⟨fun x hp hx => k.asm x hp (h.asm x hp hx), fun x hp hx => k.res x hp (h.res x hp hx), k.asmLength.trans h.asmLength,
    k.resLength.trans h.resLength⟩

theorem mem_updAt_append {α : Type} {q : Nat} {l : List (List α)} (new : List α) {x : α} (h : x ∈ l.getD q []) :
    x ∈ (updAt (· ++ new) q l).getD q [] := by
  rcases Nat.lt_or_ge q l.length with hq | hq
  · rw [updAt_getD_same _ _ _ _ hq]; exact List.mem_append_left _ h
  · rw [List.getD_eq_default _ _ hq] at h; exact absurd h List.not_mem_nil

/-- A frame that is placed leaves those before it. -/
theorem placeFrame_keeps (q : Nat) (f : Frame) (s : State) : s.KeepsQueue (placeFrame q f s) q fun _ => True := by
  unfold placeFrame
  split
  · exact ⟨fun x _ hx => mem_updAt_append _ hx, fun _ _ hx => hx, updAt_length .., rfl⟩
  · exact ⟨fun _ _ hx => hx, fun x _ hx => mem_updAt_append _ hx, rfl, updAt_length ..⟩

theorem placeFrame_holds {q : Nat} (f : Frame) {s : State} (ha : q < s.buf.asm.length) (hr : q < s.buf.res.length) :
    (placeFrame q f s).holds q f := by
  unfold placeFrame
  split
  · left; dsimp only; rw [updAt_getD_same _ _ _ _ ha]; simp
  · right; dsimp only; rw [updAt_getD_same _ _ _ _ hr]; simp

theorem forList_placeFrame_keeps (q : Nat) (l : List Frame) (s : State) :
    s.KeepsQueue (forList l (placeFrame q) s) q fun _ => True := by
  unfold forList
  induction l generalizing s with
  | nil => exact ⟨fun _ _ hx => hx, fun _ _ hx => hx, rfl, rfl⟩
  | cons f l ih => exact (placeFrame_keeps q f s).trans (ih _)

theorem State.KeepsQueue.holds {s t : State} {q : Nat} {p : Frame → Prop} {f : Frame} (h : s.KeepsQueue t q p)
    (hc : p f.copied) (hm : p { f.copied with moved := true }) (hf : s.holds q f) : t.holds q f :=
  hf.imp (h.asm _ hc) (h.res _ hm)

/-- The frames at the end of queue q that a frame f, formed now, goes before (R296). -/
def laterFrames (q : Nat) (f : Frame) (s : State) : List Frame :=
  ((s.buf.asm.getD q [] ++ s.buf.res.getD q []).reverse.takeWhile fun x =>
    decide (x.formed = f.formed) && decide (kindOrder f < kindOrder x)).reverse

theorem laterFrames_kind {q : Nat} {f x : Frame} {s : State} (h : x ∈ laterFrames q f s) : kindOrder f < kindOrder x := by
  have hx := List.mem_takeWhile_imp (List.mem_reverse.mp h)
  simp only [Bool.and_eq_true, decide_eq_true_eq] at hx
  exact hx.2

/-- The frames that are later stand at the end of the queue. -/
theorem laterFrames_suffix (q : Nat) (f : Frame) (s : State) :
    ∃ front, s.buf.asm.getD q [] ++ s.buf.res.getD q [] = front ++ laterFrames q f s := by
  have h : laterFrames q f s <:+ (s.buf.asm.getD q [] ++ s.buf.res.getD q []).reverse.reverse :=
    List.reverse_suffix.mpr (List.takeWhile_prefix _)
  rw [List.reverse_reverse] at h
  obtain ⟨front, hfront⟩ := h
  exact ⟨front, hfront.symm⟩

/-- Of two lists in a row, cut before their common end, what is not in that end stays where it is. -/
theorem mem_take_of_append {α : Type} {a b front late : List α} (h : a ++ b = front ++ late) {x : α} (hx : x ∉ late) :
    (x ∈ a → x ∈ a.take (a.length + b.length - late.length)) ∧
    (x ∈ b → x ∈ b.take (a.length + b.length - late.length - a.length)) := by
  have hn : a.length + b.length - late.length = front.length := by
    have := congrArg List.length h
    simp only [List.length_append] at this
    omega
  rw [hn]
  obtain ⟨m, rfl, rfl⟩ | ⟨m, rfl, rfl⟩ := List.append_eq_append_iff.mp h
  · exact ⟨fun ha => by rwa [List.take_of_length_le (by simp)], fun hb => by simp_all⟩
  · exact ⟨fun ha => by simp_all, fun hb => by simp_all⟩

/-- Queue q without the last n of its frames. -/
def queueCut (q n : Nat) (s : State) : State :=
  let asm := s.buf.asm.getD q []
  let res := s.buf.res.getD q []
  let m := asm.length + res.length - n
  { s with buf := { s.buf with asm := s.buf.asm.set q (asm.take m), res := s.buf.res.set q (res.take (m - asm.length)) } }

theorem mem_set_getD {α : Type} {q : Nat} {l : List (List α)} {v : List α} {x : α} (h : x ∈ l.getD q []) (hv : x ∈ v) :
    x ∈ (l.set q v).getD q [] := by
  rcases Nat.lt_or_ge q l.length with hq | hq
  · simpa [hq] using hv
  · rw [List.getD_eq_default _ _ hq] at h; exact absurd h List.not_mem_nil

/-- Cutting the later frames leaves those of no later kind. -/
theorem queueCut_keeps (q : Nat) (f : Frame) (s : State) :
    s.KeepsQueue (queueCut q (laterFrames q f s).length s) q fun x => kindOrder x ≤ kindOrder f := by
  obtain ⟨front, h⟩ := laterFrames_suffix q f s
  have hnot {x : Frame} (hk : kindOrder x ≤ kindOrder f) : x ∉ laterFrames q f s :=
    fun hx => absurd (laterFrames_kind hx) (Nat.not_lt.mpr hk)
  exact ⟨fun x hk hx => mem_set_getD hx ((mem_take_of_append h (hnot hk)).1 hx),
    fun x hk hx => mem_set_getD hx ((mem_take_of_append h (hnot hk)).2 hx), List.length_set .., List.length_set ..⟩

theorem formFrame_eq (q : Nat) (f : Frame) (s : State) :
    formFrame q f s =
      (let g := { f with formed := s.time.cyc }
       if (laterFrames q g s).isEmpty then placeFrame q g s
       else forList (g :: laterFrames q g s) (placeFrame q) (queueCut q (laterFrames q g s).length s)) := rfl

theorem State.KeepsQueue.mono {s t : State} {q : Nat} {p p' : Frame → Prop} (h : s.KeepsQueue t q p) (hp : ∀ x, p' x → p x) :
    s.KeepsQueue t q p' :=
  ⟨fun x hx => h.asm x (hp x hx), fun x hx => h.res x (hp x hx), h.asmLength, h.resLength⟩

/-- A frame that is formed leaves the frames of no later kind in its queue. -/
theorem formFrame_keeps (q : Nat) (f : Frame) (s : State) :
    s.KeepsQueue (formFrame q f s) q fun x => kindOrder x ≤ kindOrder f := by
  rw [formFrame_eq]
  dsimp only
  split
  · exact (placeFrame_keeps ..).mono fun _ _ => trivial
  · exact (queueCut_keeps q { f with formed := s.time.cyc } s).trans
      ((forList_placeFrame_keeps ..).mono fun _ _ => trivial)

theorem formFrame_holds {q : Nat} (f : Frame) {s : State} (ha : q < s.buf.asm.length) (hr : q < s.buf.res.length) :
    (formFrame q f s).holds q { f with formed := s.time.cyc } := by
  rw [formFrame_eq]
  dsimp only
  split
  · exact placeFrame_holds _ ha hr
  · refine (forList_placeFrame_keeps q (laterFrames q _ s) (placeFrame q _ (queueCut q _ s))).holds trivial trivial
      (placeFrame_holds _ ?_ ?_)
    · simpa [queueCut] using ha
    · simpa [queueCut] using hr

/-- Frames of one kind that are formed in a row are all in their queue. -/
theorem forList_formFrame_holds {q n : Nat} {l : List Frame} {s : State} (hl : ∀ f ∈ l, kindOrder f = n)
    (ha : q < s.buf.asm.length) (hr : q < s.buf.res.length) :
    ∀ f ∈ l, (forList l (formFrame q) s).holds q { f with formed := s.time.cyc } := by
  have hkeeps (l : List Frame) (hl : ∀ f ∈ l, kindOrder f = n) (s : State) :
      s.KeepsQueue (forList l (formFrame q) s) q fun x => kindOrder x ≤ n := by
    unfold forList
    induction l generalizing s with
    | nil => exact ⟨fun _ _ hx => hx, fun _ _ hx => hx, rfl, rfl⟩
    | cons f l ih =>
      obtain ⟨hf, hl⟩ := List.forall_mem_cons.mp hl
      exact ((formFrame_keeps q f s).mono fun x hx => hf ▸ hx).trans (ih hl _)
  induction l generalizing s with
  | nil => exact nofun
  | cons f l ih =>
    obtain ⟨hf, hl⟩ := List.forall_mem_cons.mp hl
    have hk := formFrame_keeps q f s
    have htime : (formFrame q f s).time = s.time := by simp
    refine List.forall_mem_cons.mpr ⟨?_, ?_⟩
    · exact (hkeeps l hl _).holds (Nat.le_of_eq hf) (Nat.le_of_eq hf) (formFrame_holds f ha hr)
    · rw [← htime]
      exact ih hl (hk.asmLength.symm ▸ ha) (hk.resLength.symm ▸ hr)

/-! ### An interim close (R271, R308) -/

theorem partSegments_kind {s : State} {c : KV} {ens st part seg0 : Nat} {first final interim last : Bool} {p : Part} :
    ∀ f ∈ partSegments s c ens st part seg0 first final interim last p, kindOrder f = 1 := by
  intro f hf
  obtain ⟨_, _, rfl⟩ := List.mem_mapIdx.mp hf
  rfl

/-- Part p, older than which `older` are, with what its interim close sends noted. -/
def Part.closed (s : State) (st : Nat) (older : List Part) (p : Part) : Part :=
  { p with sent := some (partSent s s.conf.cfg (ensign s) st older.length (streamAt s st).firstDue false true p) }

/-- Stream st has its part p closed, before the segments are formed. -/
def interimClosed (st : Nat) (p : Part) (older : List Part) (s : State) : State :=
  onStream st (fun x => { x with parts := p.closed s st older :: older }) s

theorem interimClose_of_open {s : State} {st : Nat} {p : Part} {older : List Part} (hr : (streamAt s st).running = true)
    (htf : tf s < frameLen s.time.frameTw s.time.nextTick) (hp : (streamAt s st).parts = p :: older) (hs : p.sent = none)
    (ho : p.outs ≠ []) :
    interimClose st s =
      forList (partSegments s s.conf.cfg (ensign s) st older.length ((older.map (partSegCount s.conf.cfg st)).sum)
          (streamAt s st).firstDue false true false p) (formFrame 0)
        (interimClosed st p older s) := by
  have hopen : ¬(p.sent.isSome = true ∨ p.outs.isEmpty = true) := by simp [hs, ho]
  have hlong : interimClose st s = _ := if_pos ⟨hr, htf⟩
  rw [hlong, hp]
  exact if_neg hopen

theorem interimClose_only (st : Nat) (s : State) :
    interimClose st s = { s with streams := (interimClose st s).streams, buf := (interimClose st s).buf } := by
  have h := interimClose_frame st s
  generalize interimClose st s = t at h ⊢
  obtain ⟨_, _⟩ := s
  cases t
  simp_all

theorem exec_interimClose {s : State} (st : Fin 16) (hl : live s = true) :
    exec (.interimClose st) s = done (interimClose st.val s) := if_pos hl

/-- Settles O32: conversions move the path of their channel alone; the stream takes its output before the trigger units act; an
average and a final word by their cases; and the segments that an interim close forms stay in their queue. -/
theorem outputsAndParts : Obligations.OutputsAndParts := by
  refine ⟨fun s st hl => ⟨fun f hstop hc => ?_, fun o hr hst h0 ho => ?_⟩, fun s st o hl hr hst ho => ?_, fun k o a ha => ?_,
    fun z d hd => finalWord_spec z hd, fun s st p older hl hr htf hp hs ho ha hres => ?_⟩
  · rw [exec_resampledOutputFormed st _ hl, outputFormed_of_stopped hstop]
    refine ex_done s _ rfl rfl fun t ht => ?_
    have hchans : t.chans = (feedChan f s).chans := by rw [ht]
    have hat (j : Nat) : chanAt t j = chanAt (feedChan f s) j := chanAt_congr hchans j
    refine ⟨fun hconv => ?_, fun hceased => hchans.trans (feedChan_chans_of_ceased hceased), fun j hj => ?_, by rw [ht]; rfl⟩
    · rw [hat, feedChan_chanAt_same hc, foldl_chanStep_path_e _ hconv]
    · rw [hat, feedChan, chanAt_onChan_other _ _ _ _ hj]
  · refine ex_outputFormed hl hr ho fun t hstreams hframe => ?_
    obtain ⟨q, hq, hn⟩ := average_none_delivers o (streamAt s st.val).avg
    have hat : streamAt t st.val = _ := (streamAt_congr hstreams _).trans (outputTaken_streamAt_same o hst)
    rw [h0, Stream.taking_some _ _ _ hq] at hat
    rw [hat]
    obtain ⟨p, l, hparts, hhead⟩ := appendOutput_parts 0 (orphanWords s st.val (maskChans (streamMask s.conf.cfg st.val)) q)
      { gridStep (streamAt s st.val) with avg := (average 0 o (streamAt s st.val).avg).1 }
    exact ⟨(appendOutput_gridIndex ..).trans hn, ⟨p, l, _, hparts, hhead, hn⟩,
      fun j hj => (streamAt_congr hstreams j).trans (outputTaken_streamAt_other o s hj), hframe⟩
  · intro r
    refine ex_outputFormed hl hr ho fun t hstreams _ => ?_
    rw [streamAt_congr hstreams, outputTaken_streamAt_same o hst]
    refine ⟨Stream.taking_avg .., fun h => Stream.taking_none _ _ _ h, fun q h => ?_⟩
    rw [Stream.taking_some _ _ _ h]
    exact appendOutput_parts ..
  · intro n sums flags
    refine ⟨fun h => average_inside ha h, fun h => ?_⟩
    rw [average_last ha h]
    refine ⟨_, rfl, rfl, ha, rfl, List.map_map .., ?_⟩
    exact List.zipWith_map_right ..
  · rw [exec_interimClose st hl]
    have honly := interimClose_only st.val s
    have hclose := interimClose_of_open hr htf hp hs ho
    refine ex_done s _ (by rw [honly]) (by rw [honly]) fun t ht => ⟨?_, fun f hf => ?_, by rw [ht, honly]; rfl⟩
    · have hstreams : t.streams = (interimClose st.val s).streams := by rw [ht]
      rw [hstreams, hclose, forList_streams _ _ _ fun f x => by simp]
      rfl
    · have hbuf : t.buf = (interimClose st.val s).buf := by rw [ht]
      rw [hbuf, hclose]
      exact forList_formFrame_holds (s := interimClosed st.val p older s) partSegments_kind ha hres f hf

end Sys2Proof.Machine

/-! SUPPORT AND PROOFS. Spare rotation and takeover: the two halves of a visit and the pair update (R89, R95, R96, R98 to
R100). -/

namespace Sys2Proof.Machine

/-! ### One slice of a die after a change of one -/

theorem dieAt_congr {s t : State} (h : t.dies = s.dies) (g : Nat) : dieAt t g = dieAt s g := by unfold dieAt; rw [h]

theorem Die.slice_upd_same {k : Nat} (f : Slice → Slice) {d : Die} (h : k < d.slices.length) :
    (d.upd k f).slice k = f (d.slice k) := updAt_getD_same f k d.slices _ h

theorem Die.slice_upd_other {j k : Nat} (f : Slice → Slice) (d : Die) (h : j ≠ k) : (d.upd k f).slice j = d.slice j :=
  updAt_getD_other f k j d.slices _ h

/-- A reading of the slices that f keeps is kept when f changes one of them. -/
theorem Die.slice_upd_keeps {β : Type} (r : Slice → β) {f : Slice → Slice} (h : ∀ x, r (f x) = r x) (d : Die) (k j : Nat) :
    r ((d.upd k f).slice j) = r (d.slice j) := by
  simp only [Die.slice, Die.upd, List.getD_eq_getElem?_getD, updAt_getElem?]
  split
  · cases d.slices[j]? <;> simp [h]
  · rfl

@[simp] theorem Die.upd_slices_length (k : Nat) (f : Slice → Slice) (d : Die) :
    (d.upd k f).slices.length = d.slices.length := updAt_length f k d.slices

/-! ### The reserve spare (R89) -/

/-- What keeps the duties of the slices keeps the reserve spare. -/
theorem reserveSpare_upd {f : Slice → Slice} (h : ∀ x, ((f x).duty && (f x).reserve) = (x.duty && x.reserve)) (k : Nat)
    (d : Die) : reserveSpare (d.upd k f) = reserveSpare d := by
  have hmap (e : Die) : reserveSpare e = (e.slices.map fun x => x.duty && x.reserve).findIdx? id := by
    simp only [reserveSpare, List.findIdx?_map]; rfl
  rw [hmap, hmap]
  exact congrArg _ (updAt_map_of_keeps _ f k d.slices h)

theorem reserveSpare_lt {d : Die} {r : Nat} (h : reserveSpare d = some r) : r < d.slices.length :=
  (List.findIdx?_eq_some_iff_getElem.mp h).1

/-- The reserve spare is on the ladder after it begins its calibration. -/
theorem reserveLadder_activity {d : Die} {r : Nat} (h : reserveSpare d = some r) :
    ((reserveLadder d).slice r).activity = 3 := by
  simp only [reserveLadder, h]
  rw [Die.slice_upd_same _ (reserveSpare_lt h)]

/-- The reserve spare's calibration changes the slices alone, and none of them leaves. -/
@[simp] theorem reserveLadder_frame (d : Die) :
    (reserveLadder d).visit = d.visit ∧ (reserveLadder d).skipped = d.skipped ∧
    (reserveLadder d).slices.length = d.slices.length := by
  unfold reserveLadder
  split
  · exact ⟨rfl, rfl, Die.upd_slices_length ..⟩
  · exact ⟨rfl, rfl, rfl⟩

/-! ### The end of a visit -/

@[simp] theorem advanceVisit_frame (d : Die) :
    (advanceVisit d).slices = d.slices ∧ (advanceVisit d).skipped = d.skipped ∧ (advanceVisit d).pairDue = d.pairDue := by
  unfold advanceVisit
  extract_lets n d'
  split
  · exact ⟨rfl, rfl, rfl⟩
  · split <;> exact ⟨rfl, rfl, rfl⟩

@[simp] theorem endVisit_frame (counts : Bool) (d : Die) :
    (endVisit counts d).visit = none ∧ (endVisit counts d).slices = d.slices ∧ (endVisit counts d).skipped = d.skipped ∧
    (endVisit counts d).pairDue = d.pairDue := by
  cases counts
  · exact ⟨rfl, rfl, rfl, rfl⟩
  · exact ⟨rfl, advanceVisit_frame d⟩

/-! ### The next state of a step of a visit -/

theorem onDie_onDie (g : Nat) (f h : Die → Die) (s : State) : onDie g f (onDie g h s) = onDie g (fun d => f (h d)) s :=
  congrArg (fun l => { s with dies := l }) (updAt_updAt f h g s.dies)

/-- The next state of an event that changes die g alone. -/
theorem ex_done_onDie {P : State → Prop} {s : State} {g : Nat} (f : Die → Die) (hg : g < s.dies.length)
    (h : ∀ t, dieAt t g = f (dieAt s g) →
      t = { s with dies := t.dies, health := s.settledHealth t, store := s.settledStore t } → P t) :
    ∃ t, done (onDie g f s) = .next t ∧ P t :=
  ex_done s _ rfl rfl fun t ht =>
    h t ((dieAt_congr (congrArg State.dies ht) g).trans (dieAt_onDie_same g f s hg)) (by rw [ht]; rfl)

/-- The next state of an event x that changes die g by f, and channels. -/
theorem ex_done_onDie_chans {P : State → Prop} {s x : State} {g : Nat} (f : Die → Die) (hg : g < s.dies.length)
    (hx : x = { onDie g f s with chans := x.chans })
    (h : ∀ t, dieAt t g = f (dieAt s g) → t.chans = x.chans →
      t = { s with dies := t.dies, chans := t.chans, health := s.settledHealth t, store := s.settledStore t } → P t) :
    ∃ t, done x = .next t ∧ P t := by
  refine ex_done s x (by rw [hx]; rfl) (by rw [hx]; rfl) fun t ht => ?_
  have hdies : t.dies = (onDie g f s).dies := by rw [ht, hx]
  exact h t ((dieAt_congr hdies g).trans (dieAt_onDie_same g f s hg)) (by rw [ht]) (by rw [ht, hx]; rfl)

/-! ### The forward fit (R96, R98) -/

/-- The sums of the forward fit's window. -/
abbrev State.fwdSums (s : State) (g : Nat) (v : Visit) (f : FitObs) : FitSums :=
  fitSums s (chanOf g v.chan) (v.v0 + 8192) 3056 f

/-- The gain trim that the forward fit is to give the spare, that of the home slice. -/
abbrev State.fwdGain (s : State) (g : Nat) (v : Visit) : Int := ((dieAt s g).slice v.home).trimB

/-- The offset trim of the forward fit. -/
abbrev State.fwdOffset (s : State) (g : Nat) (v : Visit) (f : FitObs) : Int := fitOffset (s.fwdSums g v f) (s.fwdGain g v)

section
variable {s : State} {g : Nat} {v : Visit} {f : FitObs} (hv : (dieAt s g).visit = some v) (hp : v.phase = 1)
  (hd : v.fwdDone = false)
include hv hp hd

theorem forwardFit_of_few (hn : 2 * (s.fwdSums g v f).n < 3056) :
    forwardFit g f s = onVisit g (fun v => { v with fwdDone := true, fwdSkip := true }) s := by
  unfold forwardFit
  rw [hv]
  exact (if_neg (by simp [hp, hd])).trans (if_pos hn)

variable (hn : 3056 ≤ 2 * (s.fwdSums g v f).n)
include hn

theorem forwardFit_of_bad (hbad : fitBad (s.fwdSums g v f) (s.fwdOffset g v f) (s.fwdGain g v) = true) :
    forwardFit g f s =
      onDie g (fun d => { d with
        visit := d.visit.map fun v => { v with fwdDone := true, swapped := true }, fitFail := satInc d.fitFail }) s := by
  unfold forwardFit
  rw [hv]
  exact (if_neg (by simp [hp, hd])).trans ((if_neg (Nat.not_lt.mpr hn)).trans ((if_pos hbad).trans (onDie_onDie ..)))

theorem forwardFit_of_good (hgood : fitBad (s.fwdSums g v f) (s.fwdOffset g v f) (s.fwdGain g v) = false) :
    forwardFit g f s =
      onDie g (fun d => Die.upd v.spare (fun k => { k with trimA := s.fwdOffset g v f, trimB := s.fwdGain g v })
        { d with visit := d.visit.map fun w => { w with
            fwdDone := true, fitA := s.fwdOffset g v f, fitB := s.fwdGain g v } }) s := by
  unfold forwardFit
  rw [hv]
  exact (if_neg (by simp [hp, hd])).trans
    ((if_neg (Nat.not_lt.mpr hn)).trans ((if_neg (by simp [hgood])).trans (onDie_onDie ..)))

end

theorem exec_rotForwardFit {s : State} (g : Fin 4) (f : FitObs) (hl : live s = true) :
    exec (.rotForwardFit g f) s = done (forwardFit g.val f s) := if_pos hl

/-! ### The handover (R95, R98) -/

/-- A skipped visit ends. -/
def Die.skipVisit (v : Visit) (d : Die) : Die :=
  reserveLadder (endVisit true { d.upd v.spare Slice.idle with skipped := satInc d.skipped })

/-- A die in phase 2 of its visit. -/
def Visit.onLadder (v : Visit) (d : Die) : Die := { d with rotPhase := 2, visit := some { v with phase := 2 } }

/-- The spare serves the channel, and the home slice goes to the ladder. -/
def Die.handOver (v : Visit) (d : Die) : Die :=
  v.onLadder (((reserveLadder d).upd v.spare fun k => { k with activity := 2 }).upd v.home fun k => { k with activity := 3 })

/-- After a failed fit the spare goes to the ladder in place of the home slice. -/
def Die.calibrateSpare (v : Visit) (d : Die) : Die :=
  v.onLadder ((reserveLadder d).upd v.spare fun k => { k with activity := 3, onChan := 0 })

section
variable {s : State} {g : Nat} {v : Visit} (hv : (dieAt s g).visit = some v) (hp : v.phase = 1) (hd : v.fwdDone = true)
include hv hp hd

theorem handover_of_skip (hs : v.fwdSkip = true) : handover g s = onDie g (Die.skipVisit v) s := by
  unfold handover
  rw [hv]
  exact (if_neg (by simp [hp, hd])).trans (if_pos hs)

theorem handover_of_fitted (hs : v.fwdSkip = false) (hw : v.swapped = false) :
    handover g s =
      logServe (v.v0 + 204800) s (markSwap (chanOf g v.chan) (v.v0 + 204800) (onDie g (Die.handOver v) s)) := by
  unfold handover
  rw [hv]
  refine (if_neg (by simp [hp, hd])).trans ((if_neg (by simp [hs])).trans ((if_neg (by simp [hw])).trans ?_))
  exact congrArg (fun F => logServe _ s (markSwap _ _ (onDie g F s)))
    (funext fun d => congrArg v.onLadder (if_neg (by simp [hw])))

theorem handover_of_swapped (hs : v.fwdSkip = false) (hw : v.swapped = true) :
    handover g s = onDie g (Die.calibrateSpare v) s := by
  unfold handover
  rw [hv]
  refine (if_neg (by simp [hp, hd])).trans ((if_neg (by simp [hs])).trans ((if_pos hw).trans ?_))
  exact congrArg (fun F => onDie g F s) (funext fun d => congrArg v.onLadder (if_pos hw))

end

/-- The reserve spare of a die whose visit is skipped begins its own calibration. -/
theorem skipVisit_reserve {v : Visit} {d : Die} {r : Nat} (h : reserveSpare d = some r) :
    ((d.skipVisit v).slice r).activity = 3 := by
  refine reserveLadder_activity ?_
  have hidle : reserveSpare (d.upd v.spare Slice.idle) = some r := (reserveSpare_upd (f := Slice.idle) (fun _ => rfl) _ _).trans h
  simpa only [reserveSpare, endVisit_frame] using hidle

theorem handOver_spare {v : Visit} {d : Die} (hne : v.home ≠ v.spare) (h : v.spare < d.slices.length) :
    ((d.handOver v).slice v.spare).activity = 2 :=
  (congrArg Slice.activity (Die.slice_upd_other _ _ hne.symm)).trans
    (congrArg Slice.activity (Die.slice_upd_same _ (by simpa using h)))

theorem handOver_home {v : Visit} {d : Die} (h : v.home < d.slices.length) :
    ((d.handOver v).slice v.home).activity = 3 :=
  congrArg Slice.activity (Die.slice_upd_same _ (by simpa using h))

theorem handOver_reserve {v : Visit} {d : Die} {r : Nat} (h : reserveSpare d = some r) (hr : r ≠ v.spare) :
    ((d.handOver v).slice r).activity = 3 := by
  by_cases hh : r = v.home
  · exact hh ▸ handOver_home (hh ▸ reserveSpare_lt h)
  · exact (congrArg Slice.activity ((Die.slice_upd_other _ _ hh).trans (Die.slice_upd_other _ _ hr))).trans
      (reserveLadder_activity h)

theorem calibrateSpare_spare {v : Visit} {d : Die} (h : v.spare < d.slices.length) :
    ((d.calibrateSpare v).slice v.spare).activity = 3 :=
  congrArg Slice.activity (Die.slice_upd_same _ (by simpa using h))

theorem calibrateSpare_reserve {v : Visit} {d : Die} {r : Nat} (h : reserveSpare d = some r) :
    ((d.calibrateSpare v).slice r).activity = 3 := by
  by_cases hr : r = v.spare
  · exact hr ▸ calibrateSpare_spare (hr ▸ reserveSpare_lt h)
  · exact (congrArg Slice.activity (Die.slice_upd_other _ _ hr)).trans (reserveLadder_activity h)

/-- What is noted of the slice that serves a channel leaves its swap samples. -/
theorem logServe_swaps (e : Nat) (was s : State) (c : Nat) : (chanAt (logServe e was s) c).swaps = (chanAt s c).swaps :=
  chanAt_onChans_keeps Chan.swaps (by split <;> rfl)

theorem markSwap_swaps {c : Nat} (e : Nat) {s : State} (h : c < s.chans.length) :
    (chanAt (markSwap c e s) c).swaps = (e :: (chanAt s c).swaps).take 64 :=
  congrArg Chan.swaps (chanAt_onChan_same c _ s h)

theorem exec_rotHandover {s : State} (g : Fin 4) (hl : live s = true) :
    exec (.rotHandover g) s = done (handover g.val s) := if_pos hl

/-- Settles O25: the forward fit by the valid blocks and the residual of its window, and the handover by what the fit has left. -/
theorem visitForward : Obligations.VisitForward := by
  intro s g v hl hg hv hp
  refine ⟨fun f hd hn => ?_, fun f hd hn => ?_, fun hd hs => ?_, fun hd hs hw => ?_, fun hd hs hw => ?_⟩
  · rw [exec_rotForwardFit g f hl, forwardFit_of_few hv hp hd hn]
    exact ex_done_onDie _ hg fun t ht hframe => ⟨by rw [ht, hv]; rfl, hframe⟩
  · rw [exec_rotForwardFit g f hl]
    cases hbad : fitBad (s.fwdSums g v f) (s.fwdOffset g v f) (s.fwdGain g v) with
    | true =>
      rw [forwardFit_of_bad hv hp hd hn hbad]
      refine ex_done_onDie _ hg fun t ht hframe => ⟨(iff_of_eq (if_pos hbad)).mpr ?_, hframe⟩
      rw [ht, hv]
      exact ⟨rfl, rfl⟩
    | false =>
      rw [forwardFit_of_good hv hp hd hn hbad]
      refine ex_done_onDie _ hg fun t ht hframe => ⟨(iff_of_eq (if_neg (by simp [hbad]))).mpr ?_, hframe⟩
      rw [ht, hv]
      exact ⟨rfl, rfl⟩
  · rw [exec_rotHandover g hl, handover_of_skip hv hp hd hs]
    refine ex_done_onDie _ hg fun t ht hframe => ?_
    rw [ht]
    exact ⟨by simp [Die.skipVisit], by simp [Die.skipVisit], fun r hr => skipVisit_reserve hr, hframe⟩
  · rw [exec_rotHandover g hl, handover_of_fitted hv hp hd hs hw]
    refine ex_done_onDie_chans _ hg rfl fun t ht hchans hframe => ?_
    rw [ht]
    exact ⟨rfl, rfl, fun hne hh hk => ⟨handOver_spare hne hk, handOver_home hh⟩, fun r hr hne => handOver_reserve hr hne,
      fun hc => (congrArg Chan.swaps (chanAt_congr hchans _)).trans ((logServe_swaps ..).trans (markSwap_swaps _ hc)), hframe⟩
  · rw [exec_rotHandover g hl, handover_of_swapped hv hp hd hs hw]
    refine ex_done_onDie _ hg fun t ht hframe => ?_
    rw [ht]
    exact ⟨rfl, rfl, calibrateSpare_spare, fun r hr => calibrateSpare_reserve hr, hframe⟩


/-! ### The ladder calibration of a visit (R99) and the reconnection (R95, R98) -/

section
variable {s : State} {g : Nat} {v : Visit} (hv : (dieAt s g).visit = some v) (hp : v.phase = 2)
include hv hp

/-- The ladder calibration of the slice that the visit has put there ends for the visit. -/
theorem ladderEnd_of_visit {k : Nat} (o : LadderObs) (hd : v.ladderDone = false)
    (hk : k = if v.swapped then v.spare else v.home) : ladderEnd g k o s = visitLadder g k v o s := by
  simp only [ladderEnd, hv]
  exact if_pos (by simp [hp, hd, hk])

/-- The die of visit v whose home slice shadows its channel, each slice with the weights w. -/
def Visit.shadow (v : Visit) (w : Slice → List Nat) (d : Die) : Die :=
  { d.upd v.home fun k => { k with weights := w k, activity := 1 } with
    rotPhase := 3, visit := some { v with phase := 3, reconnected := true } }

theorem reconnect_of_calibrated (hd : v.ladderDone = true) (hw : v.swapped = false) (hr : v.refHit = false) :
    reconnect g s = onDie g (v.shadow fun _ => v.newWeights) s := by
  unfold reconnect
  rw [hv]
  refine (if_neg (by simp [hp, hd])).trans ((if_neg (by simp [hw])).trans ((if_neg (by simp [hw])).trans ?_))
  exact congrArg (fun w => onDie g (v.shadow w) s) (funext fun k => if_neg (by simp [hr]))

end

theorem visitLadder_of_good {s : State} {g k : Nat} {v : Visit} {o : LadderObs} (hr : v.refHit = false)
    (hb : ladderBad s g k o = false) :
    visitLadder g k v o s =
      onDie g (fun d => Die.upd k (fun x => { x with oX := o.oNew, oXAt := some s.time.pt })
        { d with visit := d.visit.map fun w => { w with
            ladderDone := true, newWeights := o.weights.take 19, oNew := o.oNew, oOld := o.oOld, dNew := o.dNew
            dOld := o.dOld } }) s :=
  (if_neg (by simp [hr])).trans ((if_neg (by simp [hb])).trans (onDie_onDie ..))

theorem exec_rotLadderCalEnd {s : State} (g : Fin 4) (k : Fin 34) (o : LadderObs) (hl : live s = true) :
    exec (.rotLadderCalEnd g k o) s = done (ladderEnd g.val k.val o s) := if_pos hl

theorem exec_rotReconnect {s : State} (g : Fin 4) (hl : live s = true) :
    exec (.rotReconnect g) s = done (reconnect g.val s) := if_pos hl

/-! ### The reverse fit (R96, R98) -/

/-- The sums of the reverse fit's window. -/
abbrev State.revSums (s : State) (g : Nat) (v : Visit) (f : FitObs) : FitSums :=
  fitSums s (chanOf g v.chan) (v.v0 + 827392) 3008 f

/-- The gain trim that the reverse fit is to give the home slice, that of the spare with the gain of the new weights. -/
abbrev State.revGain (s : State) (g : Nat) (v : Visit) : Int := scaledGain v.dOld v.dNew ((dieAt s g).slice v.spare).trimB

/-- The offset trim of the reverse fit. -/
abbrev State.revOffset (s : State) (g : Nat) (v : Visit) (f : FitObs) : Int := fitOffset (s.revSums g v f) (s.revGain g v)

theorem loadTrim_eq (g w kind : Nat) (a b : Int) (s : State) :
    loadTrim g w kind a b s =
      onDie g (fun d => Die.upd w (fun k => { k with trimA := a, trimB := b })
        { d with visit := d.visit.map fun v => { v with revDone := true, revKind := kind, fitA := a, fitB := b } }) s :=
  onDie_onDie ..

section
variable {s : State} {g : Nat} {v : Visit} {f : FitObs} (hv : (dieAt s g).visit = some v) (hp : v.phase = 3)
  (hd : v.revDone = false)
include hv hp hd

/-- With too few valid blocks the trim is predicted. -/
theorem reverseFit_of_few (hn : 2 * (s.revSums g v f).n < 3008) :
    reverseFit g f s = loadTrim g v.home 1 (v.oldA + (v.oNew - v.oOld)) (scaledGain v.dOld v.dNew v.oldB) s := by
  unfold reverseFit
  rw [hv]
  exact (if_neg (by simp [hp, hd])).trans (if_pos hn)

variable (hn : ¬2 * (s.revSums g v f).n < 3008)
include hn

theorem reverseFit_of_bad (hbad : fitBad (s.revSums g v f) (s.revOffset g v f) (s.revGain g v) = true) :
    reverseFit g f s =
      onDie g (fun d => { d with
        visit := d.visit.map fun v => { v with revDone := true, revKind := 2 }, fitFail := satInc d.fitFail }) s := by
  unfold reverseFit
  rw [hv]
  exact (if_neg (by simp [hp, hd])).trans ((if_neg hn).trans ((if_pos hbad).trans (onDie_onDie ..)))

theorem reverseFit_of_good (hgood : ¬fitBad (s.revSums g v f) (s.revOffset g v f) (s.revGain g v) = true) :
    reverseFit g f s = loadTrim g v.home 0 (s.revOffset g v f) (s.revGain g v) s := by
  unfold reverseFit
  rw [hv]
  exact (if_neg (by simp [hp, hd])).trans ((if_neg hn).trans (if_neg hgood))

end

theorem exec_rotReverseFit {s : State} (g : Fin 4) (f : FitObs) (hl : live s = true) :
    exec (.rotReverseFit g f) s = done (reverseFit g.val f s) := if_pos hl

/-! ### The hand-back (R95, R98) -/

/-- The home slice serves the channel again, with the trim of the visit. -/
def Die.handBack (v : Visit) (d : Die) : Die :=
  endVisit true { (d.upd v.home fun k => { k with trimA := v.fitA, trimB := v.fitB, activity := 2 }).upd v.spare Slice.idle with
    pairDue := if v.revKind = 0 ∧ !v.refHit then some ⟨v.chan, v.home, v.fitA, v.fitB⟩ else d.pairDue }

/-- The home slice leaves its channel to the spare, and becomes a held spare (R462). -/
def Die.leaveToSpare (v : Visit) (d : Die) : Die :=
  endVisit true ((d.upd v.spare fun k => { k with
    role := .working, home := v.chan, reserve := false, activity := 2, onChan := 0 }).upd v.home Slice.toHeld)

theorem handBack_slices (v : Visit) (d : Die) :
    (d.handBack v).slices =
      updAt Slice.idle v.spare (updAt (fun k => { k with trimA := v.fitA, trimB := v.fitB, activity := 2 }) v.home d.slices) := by
  simp [Die.handBack, Die.upd]

section
variable {s : State} {g : Nat} {v : Visit} (hv : (dieAt s g).visit = some v) (hp : v.phase = 3) (hd : v.revDone = true)
include hv hp hd

theorem handBack_of_loaded (hk : v.revKind ≠ 2) :
    handBack g s =
      logServe (v.v0 + 1020928) s
        (onChan (chanOf g v.chan) (fun ch => { ch with lastVisit := twAt s (edgePt s (v.v0 + 1020928)) })
          (markSwap (chanOf g v.chan) (v.v0 + 1020928) (onDie g (Die.handBack v) s))) := by
  unfold handBack
  rw [hv]
  exact (if_neg (by simp [hp, hd])).trans (if_neg hk)

theorem handBack_of_failed (hk : v.revKind = 2) :
    handBack g s = logServe (v.v0 + 1020928) s (roleChange g (onDie g (Die.leaveToSpare v) s)) := by
  unfold handBack
  rw [hv]
  exact (if_neg (by simp [hp, hd])).trans (if_pos hk)

end

theorem handBack_pairDue {v : Visit} (d : Die) (hk : v.revKind = 0) (hr : v.refHit = false) :
    (d.handBack v).pairDue = some ⟨v.chan, v.home, v.fitA, v.fitB⟩ := by simp [Die.handBack, hk, hr]

/-- A spare that takes the rotating duty keeps what a slice has beside its duty (R89). -/
theorem dutyFix_slice_keeps {β : Type} (r : Slice → β) (h : ∀ x, r { x with reserve := false } = r x) (d : Die) (j : Nat) :
    r ((dutyFix d).slice j) = r (d.slice j) := by
  unfold dutyFix
  split
  · exact Die.slice_upd_keeps r h ..
  · rfl

@[simp] theorem dutyFix_visit (d : Die) : (dutyFix d).visit = d.visit := by
  unfold dutyFix; split <;> rfl

theorem leaveToSpare_slice {v : Visit} (d : Die) (j : Nat) :
    (d.leaveToSpare v).slice j = Die.slice ((d.upd v.spare fun k => { k with
      role := .working, home := v.chan, reserve := false, activity := 2, onChan := 0 }).upd v.home Slice.toHeld) j := by
  simp [Die.leaveToSpare, Die.slice]

theorem leaveToSpare_spare {v : Visit} {d : Die} (hne : v.home ≠ v.spare) (h : v.spare < d.slices.length) :
    ((d.leaveToSpare v).slice v.spare).role = .working ∧ ((d.leaveToSpare v).slice v.spare).home = v.chan := by
  rw [leaveToSpare_slice, Die.slice_upd_other _ _ hne.symm, Die.slice_upd_same _ h]
  exact ⟨rfl, rfl⟩

theorem leaveToSpare_home {v : Visit} {d : Die} (h : v.home < d.slices.length) :
    ((d.leaveToSpare v).slice v.home).role = .spare ∧ ((d.leaveToSpare v).slice v.home).held = true := by
  rw [leaveToSpare_slice, Die.slice_upd_same _ (by simpa using h)]
  exact ⟨rfl, rfl⟩

theorem imageSave_only (s : State) : imageSave s = { s with store := (imageSave s).store } := by
  unfold imageSave
  (repeat' split) <;> rfl

theorem roleChange_onDie (g : Nat) (f : Die → Die) (s : State) :
    roleChange g (onDie g f s) = imageSave (onDie g (fun d => dutyFix (f d)) s) := congrArg imageSave (onDie_onDie ..)

/-- The next state of an event that has left the health of s as it was. -/
theorem ex_done_health {P : State → Prop} (s x : State) (hh : x.health = s.health)
    (h : ∀ t, t = { x with health := s.settledHealth t, store := t.store } → P t) : ∃ t, done x = .next t ∧ P t := by
  have hhealth : (settle x).health = s.settledHealth (settle x) := by
    rw [State.settledHealth, ← hh]
    exact congrArg State.health (settle_settled x)
  exact ⟨settle x, rfl, h _ (by rw [← hhealth]; exact settle_only x)⟩

theorem exec_rotHandBack {s : State} (g : Fin 4) (hl : live s = true) :
    exec (.rotHandBack g) s = done (handBack g.val s) := if_pos hl

/-! ### The pair update (R100) -/

/-- The target pairs of a pair update that is due on die g. -/
def State.pairTargets (s : State) (g : Nat) (d : PairDue) : List (Int × Int) :=
  (chanAt s (chanOf g d.chan)).base.map
    (pairTarget (d.a - ((sliceAt s g d.slice).oX - (chanAt s (chanOf g d.chan)).oBase)) d.b)

/-- The live pairs moved towards them. -/
def State.pairsMoved (s : State) (g : Nat) (d : PairDue) : List (Int × Int) :=
  List.zipWith pairMove (chanAt s (chanOf g d.chan)).pairs (s.pairTargets g d)

/-- The pair update taken; it counts where a limit has cut it. -/
def Die.pairTaken (cut : Bool) (d : Die) : Die :=
  { d with pairDue := none, limited := if cut then satInc d.limited else d.limited }

theorem pairUpdate_of_inRange {s : State} {g : Nat} {d : PairDue} (hg : g < s.dies.length)
    (hd : (dieAt s g).pairDue = some d) (hr : (sliceAt s g d.slice).role = .working)
    (hh : (sliceAt s g d.slice).home = d.chan) (ht : (s.pairTargets g d).all pairInRange = true) :
    pairUpdate g s = setPairs (chanOf g d.chan) (edgeNow s) (s.pairsMoved g d)
      (onDie g (Die.pairTaken (decide (s.pairsMoved g d ≠ s.pairTargets g d))) s) := by
  unfold pairUpdate
  rw [hd]
  have hslice : sliceAt (onDie g (fun x => { x with pairDue := none }) s) g d.slice = sliceAt s g d.slice := by
    rw [sliceAt, dieAt_onDie_same g _ s hg]; rfl
  dsimp only
  rw [hslice, if_neg (by simp [hr, hh])]
  refine (if_pos ht).trans ?_
  by_cases hc : s.pairsMoved g d = s.pairTargets g d
  · rw [decide_eq_false (not_not_intro hc)]
    exact if_pos hc
  · rw [decide_eq_true hc]
    exact (if_neg hc).trans (congrArg (setPairs _ (edgeNow s) (s.pairsMoved g d)) (onDie_onDie ..))

theorem exec_rotPairUpdate {s : State} (g : Fin 4) (hl : live s = true) :
    exec (.rotPairUpdate g) s = done (pairUpdate g.val s) := if_pos hl

/-- Settles O26: each command of the second half takes the branch of its phase, and the pair update moves the pairs of its channel
alone. -/
theorem visitReverse : Obligations.VisitReverse := by
  intro s g hl hg
  refine ⟨fun v k o hv hp hd hw hr hk hb => ?_, fun v hv hp hd hw hr => ?_, fun v f hv hp hd => ?_,
    fun v hv hp hd hk => ?_, fun v hv hp hd hk hne hh hs => ?_, fun d hd hr hh hc ht => ?_⟩
  · rw [exec_rotLadderCalEnd g k o hl, ladderEnd_of_visit hv hp o hd (by simp [hw, hk]), visitLadder_of_good hr hb]
    refine ex_done_onDie _ hg fun t ht hframe => ?_
    rw [ht]
    exact ⟨congrArg (Option.map _) hv, rfl, hframe⟩
  · rw [exec_rotReconnect g hl, reconnect_of_calibrated hv hp hd hw hr]
    refine ex_done_onDie _ hg fun t ht hframe => ?_
    rw [ht]
    exact ⟨rfl, rfl, rfl, hframe⟩
  · rw [exec_rotReverseFit g f hl]
    by_cases hn : 2 * (s.revSums g v f).n < 3008
    · rw [reverseFit_of_few hv hp hd hn, loadTrim_eq]
      refine ex_done_onDie _ hg fun t ht hframe => ⟨(iff_of_eq (if_pos hn)).mpr ?_, hframe⟩
      rw [ht]
      exact ⟨congrArg (Option.map _) hv, rfl⟩
    by_cases hbad : fitBad (s.revSums g v f) (s.revOffset g v f) (s.revGain g v) = true
    · rw [reverseFit_of_bad hv hp hd hn hbad]
      refine ex_done_onDie _ hg fun t ht hframe =>
        ⟨(iff_of_eq (if_neg hn)).mpr ((iff_of_eq (if_pos hbad)).mpr ?_), hframe⟩
      rw [ht]
      exact ⟨congrArg (Option.map _) hv, rfl⟩
    · rw [reverseFit_of_good hv hp hd hn hbad, loadTrim_eq]
      refine ex_done_onDie _ hg fun t ht hframe =>
        ⟨(iff_of_eq (if_neg hn)).mpr ((iff_of_eq (if_neg hbad)).mpr ?_), hframe⟩
      rw [ht]
      exact ⟨congrArg (Option.map _) hv, rfl⟩
  · rw [exec_rotHandBack g hl, handBack_of_loaded hv hp hd hk]
    refine ex_done_onDie_chans _ hg rfl fun t ht _ hframe => ?_
    rw [ht]
    exact ⟨rfl, handBack_slices .., fun h0 hr => handBack_pairDue _ h0 hr, hframe⟩
  · rw [exec_rotHandBack g hl, handBack_of_failed hv hp hd hk, roleChange_onDie, imageSave_only]
    refine ex_done_health s _ (by simp) fun t ht => ?_
    have hdie : dieAt t g = dutyFix ((dieAt s g).leaveToSpare v) :=
      (dieAt_congr (congrArg State.dies ht) g).trans (dieAt_onDie_same _ _ _ hg)
    obtain ⟨hrole, hhome⟩ := leaveToSpare_spare hne hs
    obtain ⟨hspare, hheld⟩ := leaveToSpare_home hh
    rw [hdie, dutyFix_visit, dutyFix_slice_keeps Slice.role fun _ => rfl, dutyFix_slice_keeps Slice.home fun _ => rfl,
      dutyFix_slice_keeps Slice.role fun _ => rfl, dutyFix_slice_keeps Slice.held fun _ => rfl]
    exact ⟨rfl, hrole, hhome, hspare, hheld, by rw [ht]; rfl⟩
  · rw [exec_rotPairUpdate g hl, pairUpdate_of_inRange hg hd hr hh ht]
    refine ex_done_onDie_chans _ hg rfl fun t ht hchans hframe => ?_
    rw [ht]
    refine ⟨rfl, ?_, fun j hj => ?_, hframe⟩
    · exact (congrArg Chan.pairs (chanAt_congr hchans _)).trans (congrArg Chan.pairs (chanAt_onChan_same _ _ _ hc))
    · exact (chanAt_congr hchans j).trans (chanAt_onChan_other _ _ _ _ hj)

end Sys2Proof.Machine

/-! SUPPORT AND PROOFS. Spare rotation and takeover: the retirement of a slice that fails (R101, R102, R105, R354). -/

namespace Sys2Proof.Machine

/-! ### What keeps the role of every slice of a die -/

theorem Die.upd_role {f : Slice → Slice} (h : ∀ x, (f x).role = x.role) (k : Nat) (d : Die) (j : Nat) :
    ((d.upd k f).slice j).role = (d.slice j).role := Die.slice_upd_keeps Slice.role h d k j

theorem Die.role_congr {d e : Die} (h : e.slices = d.slices) (j : Nat) : (e.slice j).role = (d.slice j).role := by
  unfold Die.slice; rw [h]

@[simp] theorem calOver_role (d : Die) (j : Nat) : (d.calOver.slice j).role = (d.slice j).role := by
  simp only [Die.calOver, Die.slice, List.getD_eq_getElem?_getD, List.getElem?_map]
  cases d.slices[j]? with
  | none => rfl
  | some x => exact (apply_ite Slice.role ..).trans (ite_self _)

@[simp] theorem dutyFix_role (d : Die) (j : Nat) : ((dutyFix d).slice j).role = (d.slice j).role :=
  dutyFix_slice_keeps Slice.role (fun _ => rfl) d j

@[simp] theorem endVisit_role (counts : Bool) (d : Die) (j : Nat) : ((endVisit counts d).slice j).role = (d.slice j).role :=
  Die.role_congr (by simp) j

@[simp] theorem abandonVisit_role (d : Die) (j : Nat) : ((abandonVisit d).slice j).role = (d.slice j).role := by
  have hidle (k : Nat) (e : Die) : ((e.upd k Slice.idle).slice j).role = (e.slice j).role :=
    Die.upd_role (f := Slice.idle) (fun _ => rfl) k e j
  unfold abandonVisit
  extract_lets d1 d2
  have h1 : (d1.slice j).role = (d.slice j).role := by
    unfold d1
    split
    next v _ =>
      dsimp only
      split
      · exact (Die.upd_role (f := Slice.restored v) (fun _ => rfl) ..).trans ((calOver_role ..).trans (hidle ..))
      · exact (calOver_role ..).trans (hidle ..)
    next => rfl
  have h2 : (d2.slice j).role = (d1.slice j).role := by
    unfold d2
    split
    · exact hidle ..
    · rfl
  exact h2.trans h1

/-! ### What keeps the role of a slice of the module -/

theorem sliceAt_congr {s t : State} (h : t.dies = s.dies) (g k : Nat) : sliceAt t g k = sliceAt s g k := by
  unfold sliceAt; rw [dieAt_congr h]

@[simp] theorem sliceAt_onChan (c : Nat) (f : Chan → Chan) (s : State) (g k : Nat) :
    sliceAt (onChan c f s) g k = sliceAt s g k := sliceAt_congr (by simp) g k

@[simp] theorem sliceAt_setPairs (c e : Nat) (new : List (Int × Int)) (s : State) (g k : Nat) :
    sliceAt (setPairs c e new s) g k = sliceAt s g k := sliceAt_congr (by simp) g k

@[simp] theorem sliceAt_markSwap (c e : Nat) (s : State) (g k : Nat) :
    sliceAt (markSwap c e s) g k = sliceAt s g k := sliceAt_congr (by simp) g k

@[simp] theorem sliceAt_failFormed (c e : Nat) (zero : Bool) (s : State) (g k : Nat) :
    sliceAt (failFormed c e zero s) g k = sliceAt s g k := sliceAt_congr (by simp) g k

@[simp] theorem sliceAt_logServe (e : Nat) (was s : State) (g k : Nat) :
    sliceAt (logServe e was s) g k = sliceAt s g k := sliceAt_congr (by simp) g k

@[simp] theorem sliceAt_raisePn (n : Nat) (s : State) (g k : Nat) : sliceAt (raisePn n s) g k = sliceAt s g k := rfl

@[simp] theorem sliceAt_imageSave (s : State) (g k : Nat) : sliceAt (imageSave s) g k = sliceAt s g k :=
  sliceAt_congr (by simp) g k

@[simp] theorem sliceAt_settle (s : State) (g k : Nat) : sliceAt (settle s) g k = sliceAt s g k := sliceAt_congr (by simp) g k

/-- A reading of a die that f keeps is kept when f changes the die. -/
theorem dieAt_onDie_keeps {β : Type} (r : Die → β) {f : Die → Die} (h : ∀ d, r (f d) = r d) (g : Nat) (s : State) :
    r (dieAt (onDie g f s) g) = r (dieAt s g) := by
  rcases Nat.lt_or_ge g s.dies.length with hg | hg
  · rw [dieAt_onDie_same g f s hg, h]
  · rw [dieAt, dieAt, List.getD_eq_default _ _ hg, List.getD_eq_default _ _ (by simpa using hg)]

theorem onDie_role {f : Die → Die} {k : Nat} (h : ∀ d, ((f d).slice k).role = (d.slice k).role) (g : Nat) (s : State) :
    (sliceAt (onDie g f s) g k).role = (sliceAt s g k).role := dieAt_onDie_keeps (fun d => (d.slice k).role) h g s

theorem onSlice_role {f : Slice → Slice} (h : ∀ x, (f x).role = x.role) (g x k : Nat) (s : State) :
    (sliceAt (onSlice g x f s) g k).role = (sliceAt s g k).role :=
  onDie_role (f := Die.upd x f) (fun d => Die.upd_role h x d k) g s

theorem sliceAt_onSlice_other {k x : Nat} (f : Slice → Slice) (h : k ≠ x) (g : Nat) (s : State) :
    sliceAt (onSlice g x f s) g k = sliceAt s g k :=
  dieAt_onDie_keeps (f := Die.upd x f) (Die.slice · k) (fun d => Die.slice_upd_other f d h) g s

theorem sliceAt_onSlice_same {g k : Nat} (f : Slice → Slice) {s : State} (hg : g < s.dies.length)
    (hk : k < (dieAt s g).slices.length) : sliceAt (onSlice g k f s) g k = f (sliceAt s g k) :=
  (congrArg (Die.slice · k) (dieAt_onDie_same g (Die.upd k f) s hg)).trans (Die.slice_upd_same f hk)

/-! ### A retired slice stays retired in a takeover (R102 to R104) -/

/-- A slice found by a test passes it. -/
theorem slice_of_findIdx? {p : Slice → Bool} {d : Die} {x : Nat} (h : d.slices.findIdx? p = some x) : p (d.slice x) = true := by
  obtain ⟨hx, hp, _⟩ := List.findIdx?_eq_some_iff_getElem.mp h
  rwa [Die.slice, List.getD_eq_getElem _ _ hx]

/-- The slice that takes over a channel is a spare. -/
theorem chooseSpare_role {d : Die} {x : Nat} (h : chooseSpare d = some x) : (d.slice x).role = .spare := by
  have hduty {k : Slice} {b : Bool} (hk : (k.duty && b) = true) : k.role = .spare := by
    simp only [Slice.duty, Bool.and_eq_true, decide_eq_true_eq] at hk
    exact hk.1.1
  unfold chooseSpare at h
  split at h
  next hr => cases h; exact hduty (slice_of_findIdx? hr)
  next hr => cases h; exact hduty (slice_of_findIdx? hr)
  next => exact of_decide_eq_true (Bool.and_eq_true .. ▸ slice_of_findIdx? h).1

theorem orphanChannel_role (g p e : Nat) (s : State) (k : Nat) :
    (sliceAt (orphanChannel g p e s) g k).role = (sliceAt s g k).role := by
  rw [orphanChannel, sliceAt_failFormed, sliceAt_onChan]
  exact onDie_role (f := fun d => { d with orphan := d.orphan ||| 2 ^ p }) (fun _ => rfl) g s

theorem leaveVisit_role (g h : Nat) (s : State) (k : Nat) : (sliceAt (leaveVisit g h s) g k).role = (sliceAt s g k).role := by
  have hleft := onDie_role (f := abandonVisit) (k := k) (fun d => abandonVisit_role d k) g s
  unfold leaveVisit
  split
  · dsimp only
    split
    · rw [sliceAt_markSwap, hleft]
    · exact hleft
  · exact hleft

theorem sliceAt_takeOver_other {k x : Nat} (hk : k ≠ x) (g p h e : Nat) (s : State) :
    sliceAt (takeOver g p x h e s) g k = sliceAt s g k := by
  simp only [takeOver, sliceAt_failFormed, sliceAt_onChan, sliceAt_markSwap, sliceAt_setPairs, sliceAt_onSlice_other _ hk]

theorem serveFailed_keeps_retired {g k : Nat} {s : State} (hk : (sliceAt s g k).role = .retired) (p run h : Nat) :
    (sliceAt (serveFailed g p run h s) g k).role = .retired := by
  unfold serveFailed
  split
  next => exact (orphanChannel_role ..).trans hk
  next x hx =>
    have hne : k ≠ x := fun e => by
      have hspare := chooseSpare_role hx
      rw [← e, ← sliceAt, hk] at hspare
      nomatch hspare
    extract_lets d busy s'
    have hs : (sliceAt s' g k).role = .retired := by
      unfold s'
      split
      · exact (leaveVisit_role ..).trans hk
      · exact hk
    rw [sliceAt_takeOver_other hne, hs]

/-! ### A retirement (R101, R102) -/

theorem markRetired_role {g k : Nat} {s : State} (hg : g < s.dies.length) (hk : k < (dieAt s g).slices.length) :
    (sliceAt (markRetired g k s) g k).role = .retired := by
  rw [markRetired, sliceAt_onSlice_same _ hg hk]

theorem afterRetire_role (g : Nat) (s : State) (k : Nat) :
    (sliceAt (afterRetire g s) g k).role = (sliceAt s g k).role := by
  rw [afterRetire, sliceAt_imageSave, sliceAt_raisePn]
  refine onDie_role (fun d => ?_) g s
  dsimp only
  split <;> exact dutyFix_role d k

/-- A retirement is what follows a state in which the slice is marked and its channel is left to another one, with the stores as
they were. -/
theorem retireSlice_eq_afterRetire {g k : Nat} {s : State} (run : Nat) (hg : g < s.dies.length)
    (hk : k < (dieAt s g).slices.length) (hr : ((dieAt s g).slice k).role ≠ .retired)
    (hv : ∀ v, (dieAt s g).visit = some v → v.home ≠ v.spare) :
    ∃ u, (sliceAt u g k).role = .retired ∧ u.store = s.store ∧
      retireSlice g k run s = logServe (edgeNow s) s (afterRetire g u) := by
  unfold retireSlice
  extract_lets d sl h s1 s2 s3
  refine ⟨s3, ?_, ?_, if_neg hr⟩
  · have h1 : (sliceAt s1 g k).role = .retired := markRetired_role hg hk
    have h2 : (sliceAt s2 g k).role = .retired := by
      unfold s2
      split
      next v hvisit =>
        split
        next hkh =>
          split
          · rw [onDie_role (fun d => endVisit_role true d k), sliceAt_onSlice_other _ (hkh ▸ hv v hvisit), h1]
          · exact serveFailed_keeps_retired h1 ..
        next =>
          split
          · split
            · extract_lets c s1' s1''
              have h1' : (sliceAt s1' g k).role = .retired :=
                (onSlice_role (f := Slice.restored v) (fun _ => rfl) g v.home k s1).trans h1
              rw [sliceAt_failFormed, onDie_role (fun d => endVisit_role false d k), sliceAt_onChan, sliceAt_markSwap,
                sliceAt_setPairs, h1']
            · exact (onDie_role (fun d => endVisit_role false d k) g s1).trans h1
          · split
            · exact serveFailed_keeps_retired h1 ..
            · exact h1
      next =>
        split
        · exact serveFailed_keeps_retired h1 ..
        · exact h1
    refine (onDie_role (fun d => ?_) g s2).trans h2
    split
    · split <;> rfl
    · rfl
  · simp only [s3, s2, onDie_frame]
    (repeat' split) <;> simp [s1]

theorem imageSave_writing {s : State} (hf : s.store.faulty.any id = false) : (imageSave s).store.writing.isSome = true := by
  unfold imageSave
  rw [if_neg (by simp [hf])]
  split
  next hw =>
    split
    · rfl
    · simp [hw]
  next => rfl

theorem afterRetire_writing (g : Nat) {s : State} (hf : s.store.faulty.any id = false) :
    (afterRetire g s).store.writing.isSome = true := imageSave_writing hf

/-- A slice retired at a sample, by its role and the configuration image that is asked for. -/
theorem sampleFailed_retires {g k : Nat} {s : State} (run : Nat) (hg : g < s.dies.length)
    (hk : k < (dieAt s g).slices.length) (hr : ((dieAt s g).slice k).role ≠ .retired)
    (hv : ∀ v, (dieAt s g).visit = some v → v.home ≠ v.spare) (hf : s.store.faulty.any id = false) :
    (sliceAt (sampleFailed g k run s) g k).role = .retired ∧ (sampleFailed g k run s).store.writing.isSome = true := by
  obtain ⟨u, hu, hstore, heq⟩ := retireSlice_eq_afterRetire run hg hk hr hv
  have hrole : (sliceAt (retireSlice g k run s) g k).role = .retired := by
    rw [heq, sliceAt_logServe, afterRetire_role, hu]
  have hwriting : (retireSlice g k run s).store.writing.isSome = true := by
    rw [heq]
    simpa using afterRetire_writing g (hstore ▸ hf)
  unfold sampleFailed
  dsimp only
  split
  · exact ⟨(onDie_role (fun d => calOver_role d k) g _).trans hrole, hwriting⟩
  · exact ⟨hrole, hwriting⟩

/-! ### The failures of one sample (R105) -/

theorem forNat_fixed {n : Nat} {f : Nat → State → State} (s : State) (h : ∀ i < n, ∀ s, f i s = s) : forNat n f s = s := by
  induction n with
  | zero => rfl
  | succ n ih => rw [forNat_succ, ih fun i hi => h i (Nat.lt_succ_of_lt hi), h n (Nat.lt_succ_self n)]

/-- With no lower-numbered slice of the die that fails at the same sample, the failure takes effect at once. -/
theorem failSample_of_lowest {g k : Nat} (f : State → State) {s : State}
    (h : ∀ x ∈ (s.pending.takeWhile isFailure).filterMap (failureOf g), k ≤ x.1) : failSample g k f s = f s := by
  refine congrArg f (forNat_fixed s fun i hi t => ?_)
  split
  next p hp =>
    have hpi : p.1 = i := by simpa using List.find?_some hp
    exact absurd (h p (List.mem_of_find?_eq_some hp)) (Nat.not_le.mpr (hpi ▸ hi))
  next => rfl

theorem exec_stuckOutput {s : State} (g : Fin 4) (k : Fin 34) (hl : live s = true) :
    exec (.stuckOutput g k) s = done (failSample g.val k.val (stuck g.val k.val) s) := if_pos hl

theorem exec_arraySaturation {s : State} (g : Fin 4) (k : Fin 34) (hl : live s = true) :
    exec (.arraySaturation g k) s = done (failSample g.val k.val (saturated g.val k.val) s) := if_pos hl

/-- Settles O27: each failure comes to sampleFailed, which retires the slice and asks for an image. -/
theorem failedSlicesRetire : Obligations.FailedSlicesRetire := by
  intro s g k hl hg hk he hr hv hf hfirst
  have hretired (run : Nat) : ∃ t, done (sampleFailed g.val k.val run s) = .next t ∧
      ((dieAt t g.val).slice k.val).role = .retired ∧ t.store.writing.isSome = true ∧ t.pending = s.pending ∧
      t.power = s.power ∧ t.time = s.time ∧ t.conf = s.conf := by
    obtain ⟨hrole, hwriting⟩ := sampleFailed_retires run hg hk hr hv hf
    refine ⟨_, rfl, ?_, ?_, by simp, by simp, by simp, by simp⟩
    · exact (congrArg Slice.role (sliceAt_settle ..)).trans hrole
    · have hstore : (settle (sampleFailed g.val k.val run s)).store.writing = (sampleFailed g.val k.val run s).store.writing :=
        congrArg (fun t => t.store.writing) (settle_settled _)
      rw [hstore, hwriting]
  refine ⟨?_, fun ha hlatch => ?_⟩
  · rw [exec_stuckOutput g k hl, failSample_of_lowest _ hfirst, stuck, if_pos he]
    exact hretired 64
  · rw [exec_arraySaturation g k hl, failSample_of_lowest _ hfirst, saturated, if_pos ⟨he, ha, by simp [hlatch]⟩]
    exact hretired 16

end Sys2Proof.Machine

/-! SUPPORT AND PROOFS. Decimation chain: the banks of coefficients of a group, their writes, seals and loads, and cross-fades
(R126 to R134, R253, R354). -/

namespace Sys2Proof.Machine

/-! ### Locked banks and FIR_BANK_STATE (R126) -/

theorem bankFading_iff {s : State} {g b : Nat} :
    bankFading s g b = true ↔
      ∃ x, (groupAt s g).fade = some x ∧ x.first.isSome = true ∧ (x.target = b ∨ (groupAt s g).active = b) := by
  unfold bankFading
  cases (groupAt s g).fade <;> simp

/-- The fades of group g that wait for their tick, by the operations that hold them. -/
theorem mem_schedFades {s : State} {g : Nat} {e : Sched} {a : BitVec 32} :
    (e, a) ∈ schedFades s g ↔ e ∈ s.act.sched ∧ e.op = .xfade a ∧ fadeGroup a = g := by
  rw [schedFades, List.mem_filterMap]
  constructor
  · rintro ⟨d, hd, hda⟩
    split at hda
    next a' hop =>
      obtain ⟨hg, h⟩ := Option.ite_none_right_eq_some.mp hda
      cases h
      exact ⟨hd, hop, hg⟩
    next => nomatch hda
  · rintro ⟨he, hop, hg⟩
    exact ⟨e, he, by simp [hop, hg]⟩

theorem bankSched_iff {s : State} {g b : Nat} :
    bankSched s g b = true ↔
      (∃ e ∈ s.act.sched, ∃ a, e.op = .xfade a ∧ fadeGroup a = g ∧ fadeTarget a = b) ∨
      ∃ x, (groupAt s g).fade = some x ∧ x.first = none ∧ x.target = b := by
  have hsched : ((schedFades s g).any fun e => decide (fadeTarget e.2 = b)) = true ↔
      ∃ e ∈ s.act.sched, ∃ a, e.op = .xfade a ∧ fadeGroup a = g ∧ fadeTarget a = b := by
    simp only [List.any_eq_true, Prod.exists, mem_schedFades, decide_eq_true_eq, and_assoc, exists_and_left]
  rw [bankSched, Bool.or_eq_true, hsched]
  cases (groupAt s g).fade <;> simp

theorem bankLocked_iff {s : State} {g b : Nat} :
    bankLocked s g b = true ↔ (groupAt s g).active = b ∨ bankFading s g b = true ∨ bankSched s g b = true := by
  simp [bankLocked, or_assoc]

theorem boolNibble_testBit : ∀ a b c d : Bool,
    (8 * a.toNat + 4 * b.toNat + 2 * c.toNat + d.toNat).testBit 2 = b ∧
    (8 * a.toNat + 4 * b.toNat + 2 * c.toNat + d.toNat).testBit 1 = c ∧
    (8 * a.toNat + 4 * b.toNat + 2 * c.toNat + d.toNat).testBit 0 = d := by decide

/-- The four flags of FIR_BANK_STATE stand above twelve bits for the length. -/
theorem bankState_eq (s : State) (g b : Nat) :
    bankState s g b =
      2 ^ 12 * (8 * ((groupAt s g).bank b).sealed.toNat + 4 * (decide ((groupAt s g).active = b)).toNat +
        2 * (bankFading s g b).toNat + (bankSched s g b).toNat) + ((groupAt s g).bank b).len := by
  have flag (p : Bool) (k : Nat) : (if p then 2 ^ k else 0) = 2 ^ k * p.toNat := by cases p <;> simp
  have hactive : (if (groupAt s g).active = b then 2 ^ 14 else 0) = 2 ^ 14 * (decide ((groupAt s g).active = b)).toNat := by
    rw [← flag]; simp
  simp only [bankState, flag, hactive]
  omega

/-- FIR_BANK_STATE has ACTIVE, FADING and SCHEDULED in bits 14 to 12, above a length of at most seven bits (Table 5.4a). -/
theorem bankState_testBit {s : State} {g b : Nat} (h : ((groupAt s g).bank b).len < 128) :
    (bankState s g b).testBit 14 = decide ((groupAt s g).active = b) ∧
    (bankState s g b).testBit 13 = bankFading s g b ∧ (bankState s g b).testBit 12 = bankSched s g b := by
  have hlen : ((groupAt s g).bank b).len < 2 ^ 12 := by omega
  simp only [bankState_eq, Nat.testBit_two_pow_mul_add _ hlen]
  exact boolNibble_testBit ..

/-! ### Reads of the entries of Table 18.7 -/

/-- A read of an entry of Table 18.7 that the configuration store does not hold. -/
theorem readEntry_read3 (s : State) {row : Row} {idx : Nat} (sub : Nat) (hacc : row.acc ≠ .rws) (hlo : 0x3400 ≤ idx)
    (hhi : idx < 0x3800) : readEntry s row idx sub = octetsOf row.ty.size (read3 s idx sub) := by
  have hstored : ¬(row.acc = .rws ∨ storedRw idx = true) := by
    rintro (h | h)
    · exact hacc h
    · simp only [storedRw, Bool.or_eq_true, decide_eq_true_eq] at h
      omega
  rw [readEntry, readNat, if_neg hstored]
  simp (disch := omega) only [if_neg, if_pos]

theorem lookup_bankState (g : Fin 4) (b : Bool) :
    lookup 0x3404 (2 * g.val + b.toNat) = some (one 0x3404 0 7 .u16 .ro .observer 0) := by
  revert g b; decide

theorem lookup_firCoef (g : Fin 4) (b : Bool) (i : Fin 32) :
    lookup (0x3500 + 0x10 * g.val + b.toNat) i.val = some ⟨0x3500, 0x10, 4, 1, 2, 0, 0x1F, .i32, .rw, .operator, 0⟩ := by
  revert g b i; decide

theorem read3_bankState (s : State) (g : Nat) (b : Bool) : read3 s 0x3404 (2 * g + b.toNat) = bankState s g b.toNat := by
  have hb := b.toNat_lt
  have hg : (2 * g + b.toNat) / 2 = g := by omega
  have hbank : (2 * g + b.toNat) % 2 = b.toNat := by omega
  simp only [read3, hg, hbank]

theorem read3_firCoef (s : State) (g : Fin 4) (b : Bool) (i : Nat) :
    read3 s (0x3500 + 0x10 * g.val + b.toNat) i = wireInt 32 (((groupAt s g.val).bank b.toNat).coefs.getD i 0) := by
  fin_cases g <;> cases b <;> rfl

/-! ### Writes of banks (R127 to R129) -/

/-- A write that is accepted and changes one bank asks for a configuration image besides (R354). -/
theorem served_onBank {s : State} {k : State → Ans} {g b : Nat} {f : Bank → Bank} (hl : live s = true)
    (hk : k s = accept (imageSave (onBank g b f s))) :
    ∃ t, served s k = .next t ∧ t.out = .answer 0 [] :: s.out ∧
      t.groups = updAt (fun x => { x with banks := updAt f b x.banks }) g s.groups ∧
      t = { s with groups := t.groups, out := t.out, health := s.settledHealth t, store := t.store } := by
  rw [served_live s k hl, hk, imageSave_only]
  exact ex_done_health s (emit (.answer 0 []) { onBank g b f s with store := _ }) rfl fun t ht =>
    ⟨congrArg State.out ht, congrArg State.groups ht, by rw [ht]; rfl⟩

theorem signedOf_toNat {w : Nat} (v : BitVec w) : signedOf w v.toNat = v.toInt := by simp [signedOf]

theorem exec_firCoefWrite (r : Role) (g : Fin 4) (b : Bool) (i : Fin 32) (v : BitVec 32) (s : State) :
    exec (.firCoefWrite r g b i v) s = served s (firCoefWrite r g.val b.toNat i.val v) := by cases b <;> rfl

theorem exec_firSeal (r : Role) (v : BitVec 16) (s : State) : exec (.firSeal r v) s = served s (firSealWrite r v) := rfl

theorem exec_firLoadFactory (r : Role) (v : BitVec 16) (s : State) :
    exec (.firLoadFactory r v) s = served s (firLoadWrite r v) := rfl

section
variable {s : State} {r : Role} (hr : roleOk r .operator = true)
include hr

theorem firCoefWrite_out_of_range (g b i : Nat) {v : BitVec 32} (hv : v.toInt < -(2 ^ 23) ∨ 2 ^ 23 - 1 < v.toInt) :
    firCoefWrite r g b i v s = refuse 0x0201 s := by
  have hrange : inRI 32 (-(2 ^ 23)) (2 ^ 23 - 1) v.toNat = false := by
    rw [inRI, signedOf_toNat, Bool.and_eq_false_iff, decide_eq_false_iff_not, decide_eq_false_iff_not]
    omega
  rw [firCoefWrite, hrange]
  exact gate_refuse_value _ _ _ hr

variable (hl : live s = true)
include hl

theorem firCoefWrite_in_range (g b i : Nat) {v : BitVec 32} (hlo : -(2 ^ 23) ≤ v.toInt) (hhi : v.toInt ≤ 2 ^ 23 - 1) :
    firCoefWrite r g b i v s =
      if bankLocked s g b then refuse 0x0301 s
      else accept (imageSave (onBank g b (fun k =>
        { k with coefs := k.coefs.set i v.toInt, sealed := false, len := 0, crc := 0 }) s)) := by
  have hrange : inRI 32 (-(2 ^ 23)) (2 ^ 23 - 1) v.toNat = true := by
    rw [inRI, signedOf_toNat, decide_eq_true hlo, decide_eq_true hhi]; rfl
  exact gate_pass _ _ _ _ _ _ hr hrange (servedModes_contains hl)

theorem firSealWrite_of_value {v : BitVec 16} (hv : bits v.toNat 15 4 = 0) :
    firSealWrite r v s =
      if bankLocked s (bits v.toNat 2 1) (bits v.toNat 0 0) then refuse 0x0301 s
      else if !sealOk ((groupAt s (bits v.toNat 2 1)).bank (bits v.toNat 0 0)).coefs (lenOf v.toNat) then refuse 0x0205 s
      else accept (imageSave (onBank (bits v.toNat 2 1) (bits v.toNat 0 0) (sealBank (lenOf v.toNat)) s)) := by
  unfold firSealWrite
  exact gate_pass _ _ _ _ _ _ hr (decide_eq_true hv) (servedModes_contains hl)

theorem firLoadWrite_of_value {v : BitVec 16} (hv : bits v.toNat 15 6 = 0) (hd : bits v.toNat 5 4 ≠ 3) :
    firLoadWrite r v s =
      if bankLocked s (bits v.toNat 2 1) (bits v.toNat 0 0) then refuse 0x0301 s
      else accept (imageSave (onBank (bits v.toNat 2 1) (bits v.toNat 0 0) (fun k =>
        sealBank (lenOf v.toNat) { k with coefs := factoryFir (bits v.toNat 5 4 + 3) (v.toNat.testBit 3) }) s)) := by
  have hvalue : (decide (bits v.toNat 15 6 = 0) && decide (bits v.toNat 5 4 ≠ 3)) = true := by simp [hv, hd]
  unfold firLoadWrite
  exact gate_pass _ _ _ _ _ _ hr hvalue (servedModes_contains hl)

theorem exec_firCoefWrite_locked {g : Fin 4} {b : Bool} (hlock : bankLocked s g.val b.toNat = true) (i : Fin 32)
    {v : BitVec 32} (hlo : -(2 ^ 23) ≤ v.toInt) (hhi : v.toInt ≤ 2 ^ 23 - 1) :
    ∃ t, exec (.firCoefWrite r g b i v) s = .next t ∧ s.AnsweredOnly t 0x0301 := by
  rw [exec_firCoefWrite]
  exact served_refuse hl ((firCoefWrite_in_range hr hl _ _ _ hlo hhi).trans (if_pos hlock))

end

/-- Settles O28: the range and the lock refuse a write; one that passes both changes its bank, and the entry reads it. -/
theorem coefficientWrites : Obligations.CoefficientWrites := by
  intro s g b i
  refine ⟨fun r v hl hr => ⟨fun hv => ?_, fun hlo hhi => ⟨fun hlock => ?_, fun hfree => ?_⟩⟩,
    _, lookup_firCoef g b i, ?_⟩
  · rw [exec_firCoefWrite]
    exact served_refuse hl (firCoefWrite_out_of_range hr _ _ _ hv)
  · exact exec_firCoefWrite_locked hr hl hlock i hlo hhi
  · rw [exec_firCoefWrite]
    exact served_onBank hl ((firCoefWrite_in_range hr hl _ _ _ hlo hhi).trans (if_neg (by simp [hfree])))
  · have hb := b.toNat_lt
    refine (readEntry_read3 s _ (by decide) (by omega) (by omega)).trans ?_
    rw [read3_firCoef]
    rfl

/-- Settles O29: the lock comes from ACTIVE, FADING or SCHEDULED, and each of the three writes tests it before its own rule. -/
theorem lockedBanks : Obligations.LockedBanks := by
  intro s g b
  refine ⟨?_, ⟨_, lookup_bankState g b, ?_⟩, fun hlen => ?_, fun r hl hr hlock => ⟨fun i v hlo hhi => ?_,
    fun v hv hg hb => ?_, fun v hv hd hg hb => ?_⟩⟩
  · rw [bankLocked_iff, bankFading_iff, bankSched_iff, or_comm (a := ∃ e ∈ s.act.sched, _)]
  · refine (readEntry_read3 s _ (by decide) (by omega) (by omega)).trans ?_
    rw [read3_bankState]
    rfl
  · obtain ⟨hactive, hfading, hsched⟩ := bankState_testBit hlen
    rw [hactive, hfading, hsched, bankLocked]
  · exact exec_firCoefWrite_locked hr hl hlock i hlo hhi
  · rw [exec_firSeal]
    exact served_refuse hl ((firSealWrite_of_value hr hl hv).trans (if_pos (by rwa [hg, hb])))
  · rw [exec_firLoadFactory]
    exact served_refuse hl ((firLoadWrite_of_value hr hl hv hd).trans (if_pos (by rwa [hg, hb])))

/-- Settles O30: past the lock a seal is decided by the rule of R128 alone, and a load by nothing more. -/
theorem banksSealAndLoad : Obligations.BanksSealAndLoad := by
  intro s r v hl hr hfree
  have hunlocked : ¬bankLocked s (bits v.toNat 2 1) (bits v.toNat 0 0) = true := by simp [hfree]
  refine ⟨fun hv => ⟨fun hok => ?_, fun hbad => ?_⟩, fun hv hd => ?_⟩
  · rw [exec_firSeal]
    exact served_onBank hl ((firSealWrite_of_value hr hl hv).trans ((if_neg hunlocked).trans (if_neg (by simp [hok]))))
  · rw [exec_firSeal]
    exact served_refuse hl ((firSealWrite_of_value hr hl hv).trans ((if_neg hunlocked).trans (if_pos (by simp [hbad]))))
  · rw [exec_firLoadFactory]
    exact served_onBank hl ((firLoadWrite_of_value hr hl hv hd).trans (if_neg hunlocked))

/-! ### Cross-fades (R131 to R134) -/

/-- Group gr once output seg.start is the first of its fade x, with the blend seg of its outputs: they are marked, and the tick
word of the first is kept (R133, R134). -/
def Group.fadeBegun (x : Fade) (seg : FirSeg) (first : TW) (gr : Group) : Group :=
  { gr with
    fade := some { x with first := some seg.start }
    firLog := (seg :: gr.firLog).take 16
    cxf := ((seg.start, seg.start + seg.n - 1) :: gr.cxf).take 16
    fadeLast := first }

/-- Group gr once its fade x is over (R133). -/
def Group.fadeOver (x : Fade) (gr : Group) : Group := { gr with fade := none, active := x.target }

/-- The next state of an event that changes group g alone. -/
theorem ex_done_onGroup {P : State → Prop} {s : State} {g : Nat} (f : Group → Group) (hg : g < s.groups.length)
    (h : ∀ t, groupAt t g = f (groupAt s g) →
      t = { s with groups := t.groups, health := s.settledHealth t, store := s.settledStore t } → P t) :
    ∃ t, done (onGroup g f s) = .next t ∧ P t :=
  ex_done s _ rfl rfl fun t ht =>
    h t ((groupAt_congr (congrArg State.groups ht) g).trans (groupAt_onGroup_same g f s hg)) (by rw [ht]; rfl)

theorem exec_fadeFirstOutput {s : State} (g : Fin 4) (hl : live s = true) :
    exec (.fadeFirstOutput g) s = done (fadeFirst g.val s) := if_pos hl

theorem exec_fadeComplete {s : State} (g : Fin 4) (hl : live s = true) :
    exec (.fadeComplete g) s = done (fadeDone g.val s) := if_pos hl

section
variable {s : State} {g : Nat} {x : Fade} (hx : (groupAt s g).fade = some x)
include hx

theorem fadeFirst_of_waiting (hfirst : x.first = none) :
    let step := 2 * cicR s.conf.cfg g
    let j := ceilDiv x.edge step
    fadeFirst g s = onGroup g (Group.fadeBegun x
      ⟨j, x.n, ((groupAt s g).bank (groupAt s g).active).coefs, ((groupAt s g).bank x.target).coefs⟩
      (twAt s (edgePt s (j * step)))) s := by
  simp only [fadeFirst, hx, hfirst]
  exact if_neg nofun

theorem fadeDone_of_running (hfirst : x.first.isSome = true) :
    fadeDone g s = imageSave (completeNow (fadeRecord s x 5) (onGroup g (Group.fadeOver x) s)) := by
  have hnot : ¬x.first.isNone = true := by simpa [Option.isSome_iff_ne_none] using hfirst
  simp only [fadeDone, hx]
  exact if_neg hnot

end

/-- A completion record written outside a tick changes the records and the class queues alone. -/
theorem completeNow_only (k : Completion) (s : State) :
    completeNow k s = { s with act := (completeNow k s).act, buf := (completeNow k s).buf } := by
  have h := completeNow_frame k s
  generalize completeNow k s = t at h ⊢
  obtain ⟨_, _⟩ := s
  cases t
  simp_all

/-- The next state of an event that leaves y, with the health of s, and asks for a configuration image: it is under way. -/
theorem ex_done_imageSave {P : State → Prop} (s y : State) (hh : y.health = s.health) (hf : y.store.faulty.any id = false)
    (h : ∀ t, t.store.writing.isSome = true → t = { y with health := s.settledHealth t, store := t.store } → P t) :
    ∃ t, done (imageSave y) = .next t ∧ P t := by
  have hwriting : (settle (imageSave y)).store.writing = (imageSave y).store.writing :=
    congrArg (fun t => t.store.writing) (settle_settled _)
  obtain ⟨t, ht, hframe⟩ := ex_done_health (P := fun t => t = { y with health := s.settledHealth t, store := t.store })
    s (imageSave y) (by simp [hh]) fun t ht =>
      ht.trans (congrArg (fun u : State => { u with health := s.settledHealth t, store := t.store }) (imageSave_only y))
  refine ⟨t, ht, h t ?_ hframe⟩
  cases ht
  rw [hwriting]
  exact imageSave_writing hf

/-- Settles O31: the first output changes the group alone; the end changes the group, then leaves its record and asks for an
image. -/
theorem fadesRun : Obligations.FadesRun := by
  intro s g x hl hg hx
  refine ⟨fun hfirst => ?_, fun hfirst hf => ?_⟩
  · rw [exec_fadeFirstOutput g hl, fadeFirst_of_waiting hx hfirst]
    refine ex_done_onGroup _ hg fun t ht hframe => ?_
    rw [ht]
    exact ⟨rfl, rfl, rfl, hframe⟩
  · rw [exec_fadeComplete g hl, fadeDone_of_running hx hfirst]
    refine ex_done_imageSave s _ (by simp) (by simpa using hf) fun t hwriting ht => ?_
    have hgroup : groupAt t g = (groupAt s g).fadeOver x :=
      (groupAt_congr (by rw [ht, completeNow_only]) g).trans (groupAt_onGroup_same g.val (Group.fadeOver x) s hg)
    rw [hgroup]
    refine ⟨rfl, rfl, ?_, hwriting, by rw [ht, completeNow_only]; rfl⟩
    exact (congrArg (fun a => a.log.head?) (congrArg State.act ht)).trans (completeNow_log_head? ..)

end Sys2Proof.Machine

/-! SUPPORT AND PROOFS. Auxiliary path: conversions and their records (R162, R171, R173 to R175), the calibration of the converter
and the window comparators (R171, R172), launches and injections (R166, R167, R170, R174). -/

namespace Sys2Proof.Machine

/-! ### Steps that change the auxiliary path alone -/

/-- From s to t nothing has changed but the auxiliary path. -/
def AuxOnly (s t : State) : Prop := t = { s with aux := t.aux }

theorem AuxOnly.refl (s : State) : AuxOnly s s := rfl

theorem AuxOnly.trans {a b c : State} (h : AuxOnly a b) (k : AuxOnly b c) : AuxOnly a c := by
  unfold AuxOnly at *; rw [k, h]

theorem AuxOnly.ite {s a b : State} {c : Prop} [Decidable c] (ha : AuxOnly s a) (hb : AuxOnly s b) :
    AuxOnly s (if c then a else b) := by
  split
  · exact ha
  · exact hb

theorem auxOnly_aux (a : Aux) (s : State) : AuxOnly s { s with aux := a } := rfl

theorem AuxOnly.health_eq {s t : State} (h : AuxOnly s t) : t.health = s.health := (congrArg State.health h :)

theorem AuxOnly.store_eq {s t : State} (h : AuxOnly s t) : t.store = s.store := (congrArg State.store h :)

/-- The next state of an event that changes the auxiliary path alone. -/
theorem ex_done_aux {P : State → Prop} {s x : State} (hx : AuxOnly s x)
    (h : ∀ t, t.aux = x.aux →
      t = { s with aux := t.aux, health := s.settledHealth t, store := s.settledStore t } → P t) :
    ∃ t, done x = .next t ∧ P t :=
  ex_done s x hx.health_eq hx.store_eq fun t ht => by
    have haux : t.aux = x.aux := (congrArg State.aux ht :)
    refine h t haux ?_
    rw [haux]
    exact ht.trans (congrArg (fun u : State => { u with health := s.settledHealth t, store := s.settledStore t }) hx)

/-- The next state of an accepted write that changes the auxiliary path alone. -/
theorem ex_served_aux {P : State → Prop} {s x : State} {k : State → Ans} (hl : live s = true) (hk : k s = accept x)
    (hx : AuxOnly s x)
    (h : ∀ t, t.out = .answer 0 [] :: s.out → t.aux = x.aux →
      t = { s with aux := t.aux, out := t.out, health := s.settledHealth t, store := s.settledStore t } → P t) :
    ∃ t, served s k = .next t ∧ P t :=
  ex_served s k _ hl hk hx.health_eq hx.store_eq fun t ht => by
    have haux : t.aux = x.aux := (congrArg State.aux ht :)
    have hout : t.out = .answer 0 [] :: x.out := (congrArg State.out ht :)
    have hsame : x.out = s.out := (congrArg State.out hx :)
    refine h t (by rw [hout, hsame]) haux ?_
    rw [haux, hout]
    exact ht.trans (congrArg (fun u : State =>
      { u with out := .answer 0 [] :: x.out, health := s.settledHealth t, store := s.settledStore t }) hx)

/-! ### The choice of the next conversion (R169) -/

/-- What the choice of the next conversion leaves from a to b: all but what samples, and a latched launch that runs. -/
structure Aux.Chosen (a b : Aux) : Prop where
  conv : b.conv = a.conv
  lastHold : b.lastHold = a.lastHold
  queue : b.queue = a.queue
  calState : b.calState = a.calState
  calBefore : b.calBefore = a.calBefore
  calOwn : b.calOwn = a.calOwn
  calLast : b.calLast = a.calLast
  calOffset : b.calOffset = a.calOffset
  calGain : b.calGain = a.calGain
  calTemp : b.calTemp = a.calTemp
  staff : b.staff = a.staff
  missed : b.missed = a.missed
  spanEnd : b.spanEnd = a.spanEnd
  spanBefore : b.spanBefore = a.spanBefore
  measure : b.measure = a.measure
  ring : b.ring = a.ring
  codes : b.codes = a.codes
  values : b.values = a.values
  times : b.times = a.times
  wins : b.wins = a.wins
  healthPos : b.healthPos = a.healthPos
  other : b.other = a.other
  arrived : b.arrived = a.arrived

theorem auxKick_chooses (s : State) : AuxOnly s (auxKick s) ∧ s.aux.Chosen (auxKick s).aux := by
  unfold auxKick
  extract_lets s1 keep
  have h1 : AuxOnly s s1 ∧ s.aux.Chosen s1.aux := by
    unfold s1
    (repeat' split) <;> exact ⟨rfl, by constructor <;> rfl⟩
  obtain ⟨honly, hchosen⟩ := h1
  split
  · exact ⟨honly, hchosen⟩
  · split
    · exact ⟨honly, hchosen⟩
    · exact ⟨honly.trans (auxOnly_aux _ s1), { hchosen with }⟩

theorem auxOnly_auxKick (s : State) : AuxOnly s (auxKick s) := (auxKick_chooses s).1

theorem chosen_auxKick (s : State) : s.aux.Chosen (auxKick s).aux := (auxKick_chooses s).2

/-- Without a latched launch the choice is what samples. -/
theorem auxKick_of_unlatched {s : State} (h : s.aux.latched = none) :
    (auxKick s).aux.seq = s.aux.seq ∧ (auxKick s).aux.latched = s.aux.latched ∧
      (auxKick s).aux.lastLaunch = s.aux.lastLaunch := by
  unfold auxKick
  extract_lets s1 keep
  have h1 : s1 = s := by unfold s1; rw [h]
  clear_value keep s1
  subst h1
  split
  · exact ⟨rfl, rfl, rfl⟩
  · split <;> exact ⟨rfl, rfl, rfl⟩

/-- The next state of an event that leaves the auxiliary path a before the next choice. -/
theorem ex_done_auxKick {P : State → Prop} {s : State} (a : Aux)
    (h : ∀ t, a.Chosen t.aux →
      t = { s with aux := t.aux, health := s.settledHealth t, store := s.settledStore t } → P t) :
    ∃ t, done (auxKick { s with aux := a }) = .next t ∧ P t :=
  ex_done_aux ((auxOnly_aux a s).trans (auxOnly_auxKick _)) fun t haux =>
    h t (by rw [haux]; exact chosen_auxKick { s with aux := a })

/-- The next state of an accepted write that leaves the auxiliary path a before the next choice. -/
theorem ex_served_auxKick {P : State → Prop} {s : State} {k : State → Ans} {a : Aux} (hl : live s = true)
    (hk : k s = accept (auxKick { s with aux := a }))
    (h : ∀ t, t.out = .answer 0 [] :: s.out → a.Chosen t.aux →
      t = { s with aux := t.aux, out := t.out, health := s.settledHealth t, store := s.settledStore t } → P t) :
    ∃ t, served s k = .next t ∧ P t :=
  ex_served_aux hl hk ((auxOnly_aux a s).trans (auxOnly_auxKick _)) fun t hout haux =>
    h t hout (by rw [haux]; exact chosen_auxKick { s with aux := a })

/-! ### Launches (R166, R167) -/

section
variable {s : State} (t : TW) (hmode : s.power.mode ≠ .warm) (hlen : cfgAt s 0x3800 0 ≠ 0)
include hmode hlen

theorem launch_of_busy (h : seqActive s = true ∨ s.aux.latched.isSome = true) :
    launch t s = { s with aux.missed := satInc s.aux.missed } :=
  (if_neg (not_or.mpr ⟨hmode, hlen⟩)).trans (if_pos h)

theorem launch_of_calibrating (ha : seqActive s = false) (hn : s.aux.latched = none) (hc : auxCalBusy s = true) :
    launch t s = { s with aux.latched := some (seqItems s) } :=
  (if_neg (not_or.mpr ⟨hmode, hlen⟩)).trans ((if_neg (by simp [ha, hn])).trans (if_pos hc))

theorem launch_of_idle (ha : seqActive s = false) (hn : s.aux.latched = none) (hc : auxCalBusy s = false) :
    launch t s = auxKick (seqStart (seqItems s) t s) :=
  (if_neg (not_or.mpr ⟨hmode, hlen⟩)).trans ((if_neg (by simp [ha, hn])).trans (if_neg (by simp [hc])))

end

theorem auxOnly_launch (t : TW) (s : State) : AuxOnly s (launch t s) := by
  unfold launch
  exact .ite (.refl s) (.ite (auxOnly_aux _ s) (.ite (auxOnly_aux _ s)
    ((auxOnly_aux _ s).trans (auxOnly_auxKick (seqStart (seqItems s) t s)))))

theorem launch_wins (t : TW) (s : State) : (launch t s).aux.wins = s.aux.wins := by
  have hkick : (auxKick (seqStart (seqItems s) t s)).aux.wins = s.aux.wins := (chosen_auxKick _).wins
  unfold launch
  split
  · rfl
  · split
    · rfl
    · split
      · rfl
      · exact hkick

/-! ### What waits for the tick (R22, R26) -/

theorem atEdge_late {l : Late} {act : State → State} {s : State} (h : edgeLate s = true) :
    atEdge l act s = { s with time.late := s.time.late ++ [l] } := if_pos h

theorem atEdge_early {l : Late} {act : State → State} {s : State} (h : edgeLate s = false) : atEdge l act s = act s :=
  if_neg (by simp [h])

/-- The next state of what the edge of the system reference leaves for the tick. -/
theorem ex_done_late {s : State} {l : Late} {act : State → State} (h : edgeLate s = true) :
    ∃ t, done (atEdge l act s) = .next t ∧ t.time = { s.time with late := s.time.late ++ [l] } ∧
      t = { s with time := t.time, health := s.settledHealth t, store := s.settledStore t } := by
  rw [atEdge_late h]
  exact ex_done s _ rfl rfl fun t ht => ⟨congrArg State.time ht, by rw [ht]; rfl⟩

/-! ### The commands of the auxiliary path -/

theorem exec_auxHoldInstant {s : State} (hl : live s = true) :
    exec .auxHoldInstant s = done (atEdge .hold auxHold s) := if_pos hl

theorem exec_auxConversionDone {s : State} (raw : Int) (hl : live s = true) :
    exec (.auxConversionDone raw) s = done (auxDone raw s) := if_pos hl

theorem exec_auxCalBegin {s : State} (hl : live s = true) : exec .auxCalBegin s = done (auxCalBegin s) := if_pos hl

theorem exec_auxCalEnd {s : State} (offset gain : Int) (hl : live s = true) :
    exec (.auxCalEnd offset gain) s = done (auxCalEnd offset gain s) := if_pos hl

theorem exec_auxWindowEvent {s : State} (w : Fin 4) (hl : live s = true) :
    exec (.auxWindowEvent w) s = done (atEdge (.window w.val) (windowEvent w.val) s) := if_pos hl

theorem exec_auxWindowRearm {s : State} (w : Fin 4) (hl : live s = true) :
    exec (.auxWindowRearm w) s =
      done { s with aux.wins := updAt (fun q => { q with armed := true }) w.val s.aux.wins } := if_pos hl

theorem exec_auxCalStart (r : Role) (v : BitVec 8) (s : State) :
    exec (.auxCalStart r v) s = served s (auxCalStartWrite r v) := rfl

theorem exec_auxLaunch (r : Role) (v : BitVec 8) (s : State) :
    exec (.auxLaunch r v) s = served s (auxLaunchWrite r v) := rfl

theorem exec_auxInject (r : Role) (v : BitVec 32) (s : State) :
    exec (.auxInject r v) s = served s (auxInjectWrite r v) := rfl

/-! ### Hold instants and results (R162, R171, R173, R175) -/

/-- The auxiliary path as the conversion of item a begins at the edge of the system reference at hand, before the next
choice. -/
def auxHeld (s : State) (a : AuxItem) : Aux :=
  let t := edgeTw s
  let g := frameOf s t
  let queued := decide (a.kind = 1) || decide (a.kind = 2)
  { s.aux with
    conv := some ⟨a, stampIn s g t, g.epoch, g.tw, g.suspect, s.aux.calOffset, s.aux.calGain⟩
    lastHold := some (sysEdge s.time.pt)
    sampling := none
    queue := if queued then s.aux.queue.drop 1 else s.aux.queue
    calBefore := if queued then s.aux.calBefore - 1 else s.aux.calBefore
    spanBefore := if queued then s.aux.spanBefore - 1 else s.aux.spanBefore
    measure := if a.kind = 3 then s.aux.measure.drop 1 else s.aux.measure
    seq := if a.kind = 0 then s.aux.seq.drop 1 else s.aux.seq }

theorem auxHold_of_sampling {s : State} {a : AuxItem} (ha : s.aux.sampling = some a) (hc : s.aux.conv = none) :
    auxHold s = auxKick { s with aux := auxHeld s a } := by
  unfold auxHold; rw [ha, hc]; rfl

/-- The auxiliary path as conversion c ends with a code, before the next choice. -/
def auxTaken (s : State) (c : AuxConv) (raw : Int) : Aux :=
  let code := auxCorrect c raw
  let clip := decide (code = -32768) || decide (code = 32767)
  let src := c.item.source
  { s.aux with
    conv := none
    codes := s.aux.codes.set src code
    values := s.aux.values.set src (encF32 (auxValue src c.item.gain code))
    times := s.aux.times.set src c.hold
    ring :=
      if c.item.kind < 2 ∨ (c.item.kind = 2 ∧ cfgBool s 0x3820 5 = true) then
        ringWrite auxRingSize c.frame c.epoch c.hold (auxRecord c code clip) s.aux.ring
      else s.aux.ring
    staff := if c.item.kind = 2 ∧ src = 0x3C then some code else s.aux.staff
    arrived := if c.item.kind = 2 then s.aux.arrived ++ [(src, code, clip)] else s.aux.arrived }

theorem auxDone_of_conv {s : State} {c : AuxConv} (hc : s.aux.conv = some c) (raw : Int) :
    auxDone raw s = auxKick { s with aux := auxTaken s c raw } := by
  unfold auxDone; rw [hc]; rfl

/-- A corrected code has 16 bits (R171). -/
theorem auxCorrect_range (c : AuxConv) (raw : Int) : -32768 ≤ auxCorrect c raw ∧ auxCorrect c raw ≤ 32767 := by
  unfold auxCorrect auxClamp
  exact ⟨le_max_left .., max_le (by decide) (min_le_left ..)⟩

/-- A data record has its OFFSET in its low 32 bits (Table 7.4). -/
theorem auxRecord_dvd (c : AuxConv) (code : Int) (clip : Bool) : 2 ^ 32 ∣ auxRecord c code clip := by
  unfold auxRecord
  (repeat' split) <;> omega

/-- With room for a marker and a record, the record is the last of the ring, complete but for its OFFSET. -/
theorem ringWrite_getLast? {size word : Nat} (tick : TW) (epoch : BitVec 16) (at_ : TW) {r : Ring}
    (hroom : r.recs.length + 1 < size) (hword : 2 ^ 32 ∣ word) :
    ∃ x, (ringWrite size tick epoch at_ word r).recs.getLast? = some x ∧ x / 2 ^ 32 = word / 2 ^ 32 := by
  refine ⟨_, ringUnder_last _ _ _ _ hroom, ?_⟩
  unfold withOffset
  omega

theorem auxTaken_ring_unchanged {s : State} {c : AuxConv} (raw : Int)
    (h : c.item.kind = 3 ∨ (c.item.kind = 2 ∧ cfgBool s 0x3820 5 = false)) : (auxTaken s c raw).ring = s.aux.ring := by
  refine if_neg ?_
  rintro (hk | ⟨hk, hb⟩)
  · omega
  · rcases h with h3 | ⟨-, hnot⟩
    · omega
    · simp [hnot] at hb

/-- Settles O33: an edge at or after the tick waits for it; the hold and the end of a conversion set the fields named, which the
choice of the next conversion leaves as they are. -/
theorem auxiliaryConversions : Obligations.AuxiliaryConversions := by
  intro s hl
  refine ⟨fun hlate => ?_, fun a hedge ha hc => ?_, fun c raw hc => ?_⟩
  · rw [exec_auxHoldInstant hl]
    exact ex_done_late hlate
  · rw [exec_auxHoldInstant hl, atEdge_early hedge, auxHold_of_sampling ha hc]
    refine ex_done_auxKick (auxHeld s a) fun t hkept hframe => ?_
    have hqueue : t.aux.queue = (auxHeld s a).queue := hkept.queue
    refine ⟨hkept.conv, hkept.lastHold, ?_, hframe⟩
    rw [hqueue]
    simp [auxHeld]
  · rw [exec_auxConversionDone raw hl, auxDone_of_conv hc]
    refine ex_done_auxKick (auxTaken s c raw) fun t hkept hframe => ?_
    have hring : t.aux.ring = (auxTaken s c raw).ring := hkept.ring
    obtain ⟨hlo, hhi⟩ := auxCorrect_range c raw
    refine ⟨hkept.conv, hlo, hhi, hkept.codes, hkept.times, fun hno => ?_,
      fun hto hroom => ?_, fun hk => hkept.arrived.trans (if_pos hk), hframe⟩
    · rw [hring, auxTaken_ring_unchanged raw hno]
    · have hwritten : (auxTaken s c raw).ring = ringWrite auxRingSize .. := if_pos hto
      rw [hring, hwritten]
      exact ringWrite_getLast? _ _ _ hroom (auxRecord_dvd ..)

/-! ### Calibration of the converter (R171, R174) -/

theorem auxCalStartWrite_of_free {s : State} {r : Role} (hr : roleOk r .operator = true)
    (hm : auxModes.contains s.power.mode = true) (hfree : s.aux.calState = 0) :
    auxCalStartWrite r 1 s =
      accept (auxKick { s with aux := { s.aux with calState := 1, calBefore := s.aux.queue.length } }) := by
  have hrequest : auxCalRequest s = auxKick _ := if_neg (not_not.mpr hfree)
  rw [← hrequest]
  exact (gate_pass _ _ _ _ _ _ hr rfl hm).trans (if_neg (not_not.mpr hfree))

theorem auxCalBegin_of_turn {s : State} (hreq : s.aux.calState = 1) (hconv : s.aux.conv = none)
    (hbefore : s.aux.calBefore = 0) (hspan : auxSpan s = true → s.aux.calOwn = true) :
    auxCalBegin s = { s with aux := { s.aux with calState := 2, sampling := none } } :=
  if_pos ⟨hreq, by simp [hconv], hbefore, hspan⟩

theorem auxCalEnd_of_running {s : State} (h : s.aux.calState = 2) (offset gain : Int) :
    auxCalEnd offset gain s =
      auxKick { s with aux := { s.aux with
        calState := 0, calOwn := false, calLast := s.time.tw, calOffset := offset, calGain := gain
        calTemp := s.aux.staff } } := if_pos h

/-- The modes that take requests of the host serve the dictionary (R174, R322). -/
theorem live_of_auxModes {s : State} (h : auxModes.contains s.power.mode = true) : live s = true := by
  unfold live
  cases hm : s.power.mode <;> simp_all [auxModes, Mode.live]

/-! ### Window comparators (R172) -/

/-- A change of the element that stands at a position sets it there. -/
theorem updAt_eq_set {α : Type} (f : α → α) {k : Nat} {l : List α} {a : α} (h : l[k]? = some a) :
    updAt f k l = l.set k (f a) := by
  induction l generalizing k with
  | nil => simp at h
  | cons b l ih =>
    cases k with
    | zero => simp_all [updAt]
    | succ k => simpa [updAt] using ih (by simpa using h)

/-- An event of an armed comparator in use may launch the sequence, and is offered to the trigger units (R166, R185). -/
theorem windowEvent_acts {s : State} {w : Nat} {q : AuxWin} (hq : s.aux.wins[w]? = some q) (huse : cfgAt s 0x380B w ≠ 0)
    (harmed : q.armed = true) :
    ∃ x, AuxOnly s x ∧ UnitsActed x (windowEvent w s) ∧
      x.aux.wins = s.aux.wins.set w ⟨stampIn s (frameOf s (edgeTw s)) (edgeTw s), satInc q.count, false⟩ := by
  have hget : s.aux.wins.getD w ⟨0, 0, true⟩ = q := by simp [List.getD_eq_getElem?_getD, hq]
  unfold windowEvent
  rw [hget]
  extract_lets p g t aux s1 s2
  have hlaunch : AuxOnly s1 s2 := .ite (auxOnly_launch ..) (.refl s1)
  have hwins : s2.aux.wins = s1.aux.wins := by
    unfold s2
    split
    · exact launch_wins ..
    · rfl
  refine ⟨s2, (auxOnly_aux _ s).trans hlaunch, ?_, hwins⟩
  rw [if_neg (by simp [p, huse, harmed])]
  exact unitsActed_forNat 8 _ s2 fun u x => .ite (unitsActed_trgOffer ..) (.refl x)

/-- Settles O34: request, begin and end of a calibration each change the auxiliary path alone; an event of a comparator changes
what it launches and what the trigger units do besides. -/
theorem auxiliaryCalibrationAndWindows : Obligations.AuxiliaryCalibrationAndWindows := by
  refine ⟨fun s => ⟨fun r hr hm hfree => ?_, fun hl hreq hconv hbefore hspan => ?_, fun offset gain hl hrun => ?_⟩,
    fun s w q hl hq => ⟨fun hlate => ?_, fun hedge huse harmed => ?_, ?_⟩⟩
  · rw [exec_auxCalStart]
    exact ex_served_auxKick (live_of_auxModes hm) (auxCalStartWrite_of_free hr hm hfree) fun t hout hkept hframe =>
      ⟨hout, hkept.calState, hkept.calBefore, hkept.queue, hframe⟩
  · rw [exec_auxCalBegin hl, auxCalBegin_of_turn hreq hconv hbefore hspan]
    exact ex_done_aux (auxOnly_aux _ s) fun t haux hframe => ⟨haux, hframe⟩
  · rw [exec_auxCalEnd offset gain hl, auxCalEnd_of_running hrun]
    exact ex_done_auxKick _ fun t hkept hframe =>
      ⟨hkept.calState, hkept.calLast, hkept.calOffset,
        hkept.calGain, hframe⟩
  · rw [exec_auxWindowEvent w hl]
    exact ex_done_late hlate
  · rw [exec_auxWindowEvent w hl, atEdge_early hedge]
    obtain ⟨x, hx, hacts, hwins⟩ := windowEvent_acts hq huse harmed
    have hsettled := hacts.settled
    have haux : (settle (windowEvent w s)).aux = x.aux := (congrArg State.aux hsettled :)
    refine ⟨_, rfl, by rw [haux, hwins], ?_⟩
    rw [haux]
    refine hsettled.trans ?_
    unfold AuxOnly at hx
    unfold State.settledHealth State.settledStore
    rw [hx]
  · rw [exec_auxWindowRearm w hl, updAt_eq_set _ hq]
    exact ex_done_aux (auxOnly_aux _ s) fun t haux hframe => ⟨(congrArg Aux.wins haux :), hframe⟩

/-! ### Requests of the host (R166, R170, R174) -/

theorem auxModes_ne_warm {m : Mode} (h : auxModes.contains m = true) : m ≠ .warm := by
  rintro rfl; exact absurd h (by decide)

section
variable {s : State} {r : Role} (hr : roleOk r .operator = true)
include hr

theorem auxLaunchWrite_of_mode (hm : auxModes.contains s.power.mode = true) :
    auxLaunchWrite r 1 s =
      if cfgAt s 0x3802 0 ≠ 1 ∨ cfgAt s 0x3800 0 = 0 then refuse 0x0301 s else accept (launch (edgeAfter s) s) :=
  gate_pass _ _ _ _ _ _ hr rfl hm

theorem auxLaunchWrite_of_value {v : BitVec 8} (hv : v ≠ 1) : auxLaunchWrite r v s = refuse 0x0201 s := by
  rw [auxLaunchWrite, decide_eq_false hv]
  exact gate_refuse_value _ _ _ hr

theorem auxInjectWrite_of_value {v : BitVec 32} (hv : bits v.toNat 31 16 ≠ 0 ∨ 8 < bits v.toNat 11 8) :
    auxInjectWrite r v s = refuse 0x0201 s := by
  have hbad : (decide (bits v.toNat 31 16 = 0) && decide (bits v.toNat 11 8 ≤ 8)) = false := by
    rw [Bool.and_eq_false_iff, decide_eq_false_iff_not, decide_eq_false_iff_not, not_le]
    exact hv
  rw [auxInjectWrite, hbad]
  exact gate_refuse_value _ _ _ hr

theorem auxLaunchWrite_in_warm (hw : s.power.mode = .warm) : auxLaunchWrite r 1 s = refuse 0x0301 s :=
  gate_refuse_mode _ hr (by rw [hw]; rfl)

variable {v : BitVec 32} (hhi : bits v.toNat 31 16 = 0) (hts : bits v.toNat 11 8 ≤ 8)
include hhi hts

theorem auxInjectWrite_in_warm (hw : s.power.mode = .warm) : auxInjectWrite r v s = refuse 0x0301 s := by
  rw [auxInjectWrite, decide_eq_true hhi, decide_eq_true hts]
  exact gate_refuse_mode _ hr (by rw [hw]; rfl)

variable (hm : auxModes.contains s.power.mode = true)
include hm

/-- An injected conversion joins a queue that has room. -/
theorem auxInjectWrite_of_room (hroom : s.aux.queue.length < 4) :
    auxInjectWrite r v s =
      accept (auxKick { s with aux := { s.aux with
        queue := s.aux.queue ++
          [⟨1, bits v.toNat 5 0, bits v.toNat 7 6, bits v.toNat 11 8, bits v.toNat 15 12⟩] } }) := by
  rw [auxInjectWrite, decide_eq_true hhi, decide_eq_true hts, Bool.and_self, gate_pass _ _ _ _ _ _ hr rfl hm, auxEnqueue,
    if_pos hroom]

theorem auxInjectWrite_of_full (hfull : 4 ≤ s.aux.queue.length) : auxInjectWrite r v s = refuse 0x0301 s := by
  rw [auxInjectWrite, decide_eq_true hhi, decide_eq_true hts, Bool.and_self, gate_pass _ _ _ _ _ _ hr rfl hm, auxEnqueue,
    if_neg (by omega)]

end

/-- Settles O35: past the tests of the value, the mode and the settings a launch follows R166 and R167, and an injection the
room of the queue. -/
theorem auxiliaryRequests : Obligations.AuxiliaryRequests := by
  intro s r hl hr
  refine ⟨fun hm => ⟨fun hsrc hlen => ?_, fun hno => ?_, fun v hhi hts => ⟨fun hroom => ?_, fun hfull => ?_⟩⟩,
    fun hw => ⟨?_, fun v hhi hts => ?_⟩, fun v hv => ?_, fun v hv => ?_⟩
  · have hwarm := auxModes_ne_warm hm
    have hpass : auxLaunchWrite r 1 s = accept (launch (edgeAfter s) s) :=
      (auxLaunchWrite_of_mode hr hm).trans (if_neg (by simp [hsrc, hlen]))
    rw [exec_auxLaunch]
    refine ex_served_aux hl hpass (auxOnly_launch _ s) fun t hout haux hframe => ⟨hout, fun hbusy => ?_,
      fun ha hn hc => ?_, fun ha hn hc => ?_, hframe⟩
    · rw [haux, launch_of_busy _ hwarm hlen hbusy]
    · rw [haux, launch_of_calibrating _ hwarm hlen ha hn hc]
    · rw [haux, launch_of_idle _ hwarm hlen ha hn hc]
      have hkept := chosen_auxKick (seqStart (seqItems s) (edgeAfter s) s)
      obtain ⟨hseq, hlatched, hlast⟩ := auxKick_of_unlatched (s := seqStart (seqItems s) (edgeAfter s) s) rfl
      exact ⟨hseq, hlast, hlatched, hkept.queue, hkept.conv⟩
  · rw [exec_auxLaunch]
    exact served_refuse hl ((auxLaunchWrite_of_mode hr hm).trans (if_pos hno))
  · rw [exec_auxInject]
    exact ex_served_auxKick hl (auxInjectWrite_of_room hr hhi hts hm hroom) fun t hout hkept hframe =>
      ⟨hout, hkept.queue, hframe⟩
  · rw [exec_auxInject]
    exact served_refuse hl (auxInjectWrite_of_full hr hhi hts hm hfull)
  · rw [exec_auxLaunch]
    exact served_refuse hl (auxLaunchWrite_in_warm hr hw)
  · rw [exec_auxInject]
    exact served_refuse hl (auxInjectWrite_in_warm hr hhi hts hw)
  · rw [exec_auxLaunch]
    exact served_refuse hl (auxLaunchWrite_of_value hr hv)
  · rw [exec_auxInject]
    exact served_refuse hl (auxInjectWrite_of_value hr hv)

end Sys2Proof.Machine

/-! SUPPORT AND PROOFS. Trigger units: the instants of a unit of kind 5 and what it decides there (R188, R193, R202), the end of a
time hold-off (R192), the store that resumes (R195), received trigger messages (R193, R258), and the trigger outputs (R203). -/

namespace Sys2Proof.Machine

/-! ### One unit after a change of it -/

theorem unitAt_congr {s t : State} (h : t.units = s.units) (u : Nat) : unitAt t u = unitAt s u := by unfold unitAt; rw [h]

/-- Every other unit stays. -/
theorem unitAt_onUnit_other {u j : Nat} (f : Unit → Unit) (s : State) (h : j ≠ u) : unitAt (onUnit u f s) j = unitAt s j :=
  updAt_getD_other f u j s.units _ h

/-- A reading of the unit that f keeps is kept, also where the module has no such unit. -/
theorem unitAt_onUnit_keeps {β : Type} (r : Unit → β) (u : Nat) {f : Unit → Unit} (s : State) (h : ∀ x, r (f x) = r x) :
    r (unitAt (onUnit u f s) u) = r (unitAt s u) := by
  by_cases hu : u < s.units.length
  · rw [unitAt_onUnit_same u f s hu, h]
  · have hout : s.units.length ≤ u := Nat.le_of_not_lt hu
    unfold unitAt
    rw [List.getD_eq_default _ _ hout, List.getD_eq_default _ _ (by simpa using hout)]

/-- Changes that agree on the unit are one change of it. -/
theorem onUnit_congr {u : Nat} {f g : Unit → Unit} {s : State} (hu : u < s.units.length)
    (h : f (unitAt s u) = g (unitAt s u)) : onUnit u f s = onUnit u g s := by
  have hget : s.units[u]? = some (unitAt s u) := by simp [unitAt, List.getD_eq_getElem?_getD, hu]
  unfold onUnit
  rw [updAt_eq_set f hget, updAt_eq_set g hget, h]

/-- The next state of an event that changes unit u alone. -/
theorem ex_done_onUnit {P : State → Prop} {s : State} {u : Nat} (f : Unit → Unit)
    (h : ∀ t, t.units = updAt f u s.units →
      t = { s with units := t.units, health := s.settledHealth t, store := s.settledStore t } → P t) :
    ∃ t, done (onUnit u f s) = .next t ∧ P t :=
  ex_done s _ rfl rfl fun t ht => h t (congrArg State.units ht) (by rw [ht]; rfl)

/-! ### What a unit counts as it decides an event (R193, R194, R202) -/

/-- What a unit counts: the instants of R188, its accepted triggers, its missed events since the latest of them, and all of its
missed events. -/
structure Tally where
  nextM : Nat
  count : Nat
  missed : Nat
  missTotal : Nat

/-- What a unit has counted. -/
def Unit.tally (x : Unit) : Tally := ⟨x.nextM, x.count, x.missed, x.missTotal⟩

/-- The counts at the next instant. -/
def Tally.move (c : Tally) : Tally := { c with nextM := c.nextM + 1 }

/-- The counts with one trigger more. -/
def Tally.accept (c : Tally) : Tally := { c with count := wrapInc c.count, missed := 0 }

/-- The counts with one missed event more. -/
def Tally.miss (c : Tally) : Tally := { c with missed := satInc c.missed, missTotal := satInc c.missTotal }

theorem truncateOpen_tally (x : Unit) : x.truncateOpen.tally = x.tally := by unfold Unit.truncateOpen; split <;> rfl

theorem checkWait_tally (room size : Nat) (x : Unit) : (x.checkWait room size).tally = x.tally := by
  unfold Unit.checkWait
  split
  · exact truncateOpen_tally x
  · rfl

theorem endWaiting_tally (x : Unit) : x.endWaiting.tally = x.tally := by
  rw [Unit.endWaiting, apply_ite Unit.tally, truncateOpen_tally, ite_self]

theorem disarmUnit_tally (u : Nat) (s : State) : (unitAt (disarmUnit u s) u).tally = (unitAt s u).tally :=
  unitAt_onUnit_keeps Unit.tally u s fun x => by
    dsimp only
    split
    · exact truncateOpen_tally x
    · rfl

/-- Captures that close leave the counts as they are. -/
theorem trgClose_tally (u : Nat) (s : State) : (unitAt (trgClose u s) u).tally = (unitAt s u).tally := by
  unfold trgClose
  extract_lets x full s1
  have h1 : (unitAt s1 u).tally = (unitAt s u).tally := unitAt_onUnit_keeps Unit.tally u s fun _ => rfl
  split
  · split
    · rw [disarmUnit_tally, h1]
    · exact h1
  · rfl

section
variable {s : State} {u : Nat} (hu : u < s.units.length)
include hu

theorem trgMiss_tally (ev : TrgEvent) (reason : Nat) :
    (unitAt (trgMiss u ev reason s) u).tally = (unitAt s u).tally.miss :=
  congrArg Unit.tally (unitAt_onUnit_same u _ s hu)

theorem trgAccept_tally (ev : TrgEvent) : (unitAt (trgAccept u ev s) u).tally = (unitAt s u).tally.accept := by
  unfold trgAccept
  extract_lets cap trig p s1 s2
  have h1 : (unitAt s1 u).tally = (unitAt s u).tally.accept := congrArg Unit.tally (unitAt_onUnit_same u _ s hu)
  have h2 : s2.units = s1.units := by simp [s2]
  split
  · rw [unitAt_congr h2, h1]
  · rw [unitAt_congr (by simp : (trgSend _ ev s2).units = s2.units), unitAt_congr h2, h1]

/-- An armed unit decides an event: it accepts it as a trigger, or counts a miss. -/
theorem trgOffer_tally {ev : TrgEvent} (ha : (unitAt s u).armed = true) :
    (unitAt (trgOffer u ev s) u).tally =
      if trgTest s u ev = 0 then (unitAt s u).tally.accept else (unitAt s u).tally.miss := by
  unfold trgOffer
  simp only [ha, Bool.true_or, if_true]
  split
  · rw [unitAt_onUnit_keeps Unit.tally u _ fun x => (endWaiting_tally _).trans (checkWait_tally _ _ x), trgClose_tally,
      trgAccept_tally hu]
  · exact trgMiss_tally hu ..

end

/-! ### The instants of a unit of kind 5 (R188) -/

/-- The event of unit u at its present instant. -/
def State.instantEvent (s : State) (u : Nat) : TrgEvent :=
  ⟨unitInstant s u (unitAt s u).nextM, s.time.epoch, s.shift, none⟩

/-- Unit u has moved to its next instant. -/
def State.nextInstant (s : State) (u : Nat) : State := onUnit u (fun x => { x with nextM := x.nextM + 1 }) s

/-- An instant of unit u is due: it is armed, of kind 5, and fires again or has not fired. -/
structure State.InstantDue (s : State) (u : Nat) : Prop where
  unit : u < s.units.length
  armed : (unitAt s u).armed = true
  kind : cfgAt s 0x3C02 u = 5
  next : cfgAt s 0x3C0A u ≠ 0 ∨ (unitAt s u).nextM = 0

section
variable {s : State} {u : Nat} (h : s.InstantDue u)
include h

/-- The unit moves to the next instant before it decides the present one. -/
theorem fireInstant_of_due : fireInstant u s = trgOffer u (s.instantEvent u) (s.nextInstant u) := by
  have hmove : s.nextInstant u = onUnit u (fun x => { x with nextM := (unitAt s u).nextM + 1 }) s :=
    onUnit_congr h.unit rfl
  rw [hmove]
  exact if_pos ⟨h.armed, h.kind, h.next⟩

theorem unitsActed_fireInstant : UnitsActed s (fireInstant u s) := by
  rw [fireInstant_of_due h]
  exact (unitsActed_onUnit ..).trans (unitsActed_trgOffer ..)

theorem fireInstant_tally :
    (unitAt (fireInstant u s) u).tally =
      if trgTest (s.nextInstant u) u (s.instantEvent u) = 0 then (unitAt s u).tally.move.accept
      else (unitAt s u).tally.move.miss := by
  have hunit : unitAt (s.nextInstant u) u = { unitAt s u with nextM := (unitAt s u).nextM + 1 } :=
    unitAt_onUnit_same u _ s h.unit
  have hlen : u < (s.nextInstant u).units.length := (updAt_length ..).symm ▸ h.unit
  have harmed : (unitAt (s.nextInstant u) u).armed = true := by rw [hunit]; exact h.armed
  rw [fireInstant_of_due h, trgOffer_tally hlen harmed, hunit]
  rfl

end

/-! ### Instants, hold-offs and stores that resume -/

theorem exec_trgTimeInstant {s : State} (u : Fin 8) (hl : live s = true) :
    exec (.trgTimeInstant u) s = done (fireInstant u.val s) := if_pos hl

theorem exec_trgHoldoffExpiry {s : State} (u : Fin 8) (hl : live s = true) :
    exec (.trgHoldoffExpiry u) s = done (onUnit u.val (fun x => { x with holdTime := false }) s) := if_pos hl

theorem exec_captureStoreResume {s : State} (u : Fin 8) (hl : live s = true) :
    exec (.captureStoreResume u) s = done (resumeStore u.val s) := if_pos hl

/-- The store of a waiting unit whose write position is free resumes with an empty fill. -/
theorem resumeStore_of_free {s : State} {u : Nat} (hu : u < s.units.length) (hw : (unitAt s u).waiting = true)
    (hfree : (unitAt s u).blocked (storeRoom s u) (sampleSize s u) = false) :
    resumeStore u s = onUnit u (fun x => { x with waiting := false, filled := 0 }) s :=
  onUnit_congr hu (if_pos (by rw [hw, hfree]; rfl))

/-- Settles O36: a unit decides its instant by the tests of Table 8.4 and counts what it decides. -/
theorem triggerUnitsDecide : Obligations.TriggerUnitsDecide := by
  unfold Obligations.TriggerUnitsDecide
  refine fun s u hl => ⟨fun hu ha hkind hnext => ?_, ?_, fun hw hfree hu => ?_⟩
  · have hdue : s.InstantDue u.val := ⟨hu, ha, hkind, hnext⟩
    have hunit : unitAt (settle (fireInstant u.val s)) u.val = unitAt (fireInstant u.val s) u.val := unitAt_congr (by simp) _
    have htally := (congrArg Unit.tally hunit).trans (fireInstant_tally hdue)
    rw [exec_trgTimeInstant u hl]
    refine ⟨_, rfl, (congrArg Tally.nextM htally).trans ?_, ⟨fun htest => ?_, fun htest => ?_⟩,
      (unitsActed_fireInstant hdue).settled⟩
    · split <;> rfl
    · have hcounts := htally.trans (if_pos htest)
      exact ⟨congrArg Tally.count hcounts, congrArg Tally.missed hcounts⟩
    · have hcounts := htally.trans (if_neg htest)
      exact ⟨congrArg Tally.count hcounts, congrArg Tally.missTotal hcounts⟩
  · rw [exec_trgHoldoffExpiry u hl]
    exact ex_done_onUnit _ fun t ht hframe => ⟨ht, hframe⟩
  · rw [exec_captureStoreResume u hl, resumeStore_of_free hu hw hfree]
    refine ex_done_onUnit _ fun t ht hframe => ?_
    have hunit : unitAt t u.val = { unitAt s u.val with waiting := false, filled := 0 } :=
      (unitAt_congr ht u.val : unitAt t u.val = unitAt (onUnit u.val _ s) u.val).trans (unitAt_onUnit_same u.val _ s hu)
    rw [hunit]
    exact ⟨rfl, rfl, rfl, hframe⟩

/-! ### The trigger outputs (R203) -/

theorem pulseStart_of_due {q : TrgOut} {p : Nat × Nat} {l : List (Nat × Nat)} (h : q.starts = p :: l) :
    pulseStart q = { q with level := true, starts := l, endAt := if q.level then max q.endAt p.2 else p.2 } := by
  unfold pulseStart; rw [h]

/-- A pulse that has begun by the end of the one that stands extends it. -/
theorem pulseEnd_of_further {q : TrgOut} {p : Nat × Nat} {l : List (Nat × Nat)} (hlevel : q.level = true)
    (h : q.starts = p :: l) (hp : p.1 ≤ q.endAt) : pulseEnd q = { q with starts := l, endAt := max q.endAt p.2 } := by
  simp [pulseEnd, hlevel, h, hp]

theorem pulseEnd_of_last {q : TrgOut} (hlevel : q.level = true) (h : ∀ p l, q.starts = p :: l → q.endAt < p.1) :
    pulseEnd q = { q with level := false } := by
  unfold pulseEnd
  rw [if_pos hlevel]
  split
  next p l hstarts => exact if_neg (Nat.not_le.mpr (h p l hstarts))
  next => rfl

/-- The next state of an event that changes output o alone. -/
theorem ex_done_outs {P : State → Prop} {s : State} {o : Nat} {q : TrgOut} (f : TrgOut → TrgOut) (hq : s.outs[o]? = some q)
    (h : ∀ t, t.outs[o]? = some (f q) →
      t = { s with outs := t.outs, health := s.settledHealth t, store := s.settledStore t } → P t) :
    ∃ t, done { s with outs := updAt f o s.outs } = .next t ∧ P t :=
  ex_done s _ rfl rfl fun t ht =>
    h t (by rw [ht]; simp only [updAt_getElem?, if_true, hq, Option.map_some]) (by rw [ht]; rfl)

theorem outsMode_iff (s : State) : outsMode s = true ↔ s.power.mode = .ready ∨ s.power.mode = .run := by simp [outsMode]

theorem exec_trgoutPulseStart {s : State} (o : Fin 2) (h : s.power.mode = .ready ∨ s.power.mode = .run) :
    exec (.trgoutPulseStart o) s = done { s with outs := updAt pulseStart o.val s.outs } :=
  if_pos ((outsMode_iff s).mpr h)

theorem exec_trgoutPulseStart_elsewhere {s : State} (o : Fin 2) (h : ¬(s.power.mode = .ready ∨ s.power.mode = .run)) :
    exec (.trgoutPulseStart o) s = .next s := if_neg (mt (outsMode_iff s).mp h)

theorem exec_trgoutPulseEnd {s : State} (o : Fin 2) (hl : live s = true) :
    exec (.trgoutPulseEnd o) s = done { s with outs := updAt pulseEnd o.val s.outs } := if_pos hl

/-- Settles O37: each pulse is taken from the pulses to come, by its start. -/
theorem triggerPulses : Obligations.TriggerPulses := by
  unfold Obligations.TriggerPulses
  refine fun s o q hl hq => ⟨fun p l hmode hstarts => ?_, fun hready hrun => ?_, fun hlevel hlast => ?_,
    fun p l hlevel hstarts hp => ?_⟩
  · rw [exec_trgoutPulseStart o hmode]
    exact ex_done_outs _ hq fun t ht hframe => ⟨by rw [ht, pulseStart_of_due hstarts], hframe⟩
  · exact exec_trgoutPulseStart_elsewhere o (not_or.mpr ⟨hready, hrun⟩)
  · rw [exec_trgoutPulseEnd o hl]
    exact ex_done_outs _ hq fun t ht hframe => ⟨by rw [ht, pulseEnd_of_last hlevel hlast], hframe⟩
  · rw [exec_trgoutPulseEnd o hl]
    exact ex_done_outs _ hq fun t ht hframe => ⟨by rw [ht, pulseEnd_of_further hlevel hstarts hp], hframe⟩

/-! ### Received trigger messages (R193, R258) -/

theorem mem_insOffer (ev : TrgEvent) (l : List TrgEvent) : ev ∈ insOffer ev l := by
  induction l with
  | nil => exact List.mem_singleton_self ev
  | cons a l ih =>
    unfold insOffer
    split
    · exact List.mem_cons_of_mem a ih
    · exact List.mem_cons_self

/-- The unit x, which is unit u, watches the code of a message. -/
abbrev State.Watches (s : State) (m : TrgMessage) (u : Nat) (x : Unit) : Prop :=
  x.armed ∧ cfgAt s 0x3C02 u = 6 ∧ cfgAt s 0x3C03 u = m.code.toNat

/-- An accepted message is left to unit u, where that watches its code. -/
def leaveTo (m : TrgMessage) (u : Nat) (s : State) : State :=
  if s.Watches m u (unitAt s u) then trgAwait u ⟨m.instant, m.epoch, s.shift, none⟩ s else s

/-- What unit u, which stands as x, then is: the event of a message that it watches waits for the end of the engine cycle. -/
def State.withMessage (s : State) (m : TrgMessage) (u : Nat) (x : Unit) : Unit :=
  if s.Watches m u x then { x with offers := insOffer ⟨m.instant, m.epoch, s.shift, none⟩ x.offers } else x

theorem withMessage_offers_only (s : State) (m : TrgMessage) (u : Nat) (x : Unit) :
    s.withMessage m u x = { x with offers := (s.withMessage m u x).offers } := by
  unfold State.withMessage; split <;> rfl

theorem withMessage_of_watches {s : State} {m : TrgMessage} {u : Nat} {x : Unit} (h : s.Watches m u x) :
    ∃ e ∈ (s.withMessage m u x).offers, e.t = m.instant := by
  unfold State.withMessage
  rw [if_pos h]
  exact ⟨_, mem_insOffer .., rfl⟩

/-- From s to t nothing has changed but the trigger units. -/
def UnitsOnly (s t : State) : Prop := t = { s with units := t.units }

theorem unitsOnly_leaveTo (m : TrgMessage) (u : Nat) (s : State) : UnitsOnly s (leaveTo m u s) := by
  unfold leaveTo; split <;> rfl

theorem unitsOnly_forNat_leaveTo (m : TrgMessage) (n : Nat) (s : State) : UnitsOnly s (forNat n (leaveTo m) s) := by
  induction n with
  | zero => rfl
  | succ n ih =>
    have hlast := unitsOnly_leaveTo m n (forNat n (leaveTo m) s)
    unfold UnitsOnly at *
    rw [forNat_succ, hlast, ih]

theorem leaveTo_units_length (m : TrgMessage) (u : Nat) (s : State) : (leaveTo m u s).units.length = s.units.length := by
  unfold leaveTo
  split
  · exact updAt_length ..
  · rfl

theorem forNat_leaveTo_units_length (m : TrgMessage) (n : Nat) (s : State) :
    (forNat n (leaveTo m) s).units.length = s.units.length := by
  induction n with
  | zero => rfl
  | succ n ih => rw [forNat_succ, leaveTo_units_length, ih]

theorem UnitsOnly.withMessage_eq {s t : State} (h : UnitsOnly s t) (m : TrgMessage) (u : Nat) (x : Unit) :
    t.withMessage m u x = s.withMessage m u x := by
  rw [h]; rfl

theorem unitAt_leaveTo_same (m : TrgMessage) {u : Nat} {s : State} (hu : u < s.units.length) :
    unitAt (leaveTo m u s) u = s.withMessage m u (unitAt s u) := by
  unfold leaveTo State.withMessage
  split
  · exact unitAt_onUnit_same u _ s hu
  · rfl

theorem unitAt_leaveTo_other (m : TrgMessage) {u j : Nat} (s : State) (h : j ≠ u) :
    unitAt (leaveTo m u s) j = unitAt s j := by
  unfold leaveTo
  split
  · exact unitAt_onUnit_other _ s h
  · rfl

/-- Of the units, those below n have been left the message. -/
theorem unitAt_forNat_leaveTo (m : TrgMessage) (n : Nat) {u : Nat} {s : State} (hu : u < s.units.length) :
    unitAt (forNat n (leaveTo m) s) u = if u < n then s.withMessage m u (unitAt s u) else unitAt s u := by
  induction n with
  | zero => rfl
  | succ n ih =>
    rw [forNat_succ]
    by_cases hn : u = n
    · subst hn
      rw [unitAt_leaveTo_same m ((forNat_leaveTo_units_length m u s).symm ▸ hu),
        (unitsOnly_forNat_leaveTo m u s).withMessage_eq, ih, if_neg (Nat.lt_irrefl u), if_pos (Nat.lt_succ_self u)]
    · rw [unitAt_leaveTo_other m _ hn, ih]
      simp only [show u < n + 1 ↔ u < n by omega]

/-- An accepted message is counted and remembered. -/
def messageTaken (m : TrgMessage) (s : State) : State :=
  { s with ev.accepted := satInc s.ev.accepted, ev.recent := (m.sender, m.sequence, s.time.tw) :: msgRecent s }

theorem msgReceive_of_accepted {m : TrgMessage} {s : State} (h : msgTest s m = 0) :
    msgReceive m s = forNat 8 (leaveTo m) (messageTaken m s) := if_pos h

theorem msgReceive_of_discarded {m : TrgMessage} {s : State} (h : msgTest s m ≠ 0) :
    msgReceive m s = { s with ev.discards := updAt satInc (msgTest s m - 1) s.ev.discards } := if_neg h

theorem exec_triggerMessageReceive {s : State} (m : TrgMessage) (hl : live s = true) :
    exec (.triggerMessageReceive m) s = done (msgReceive m s) := if_pos hl

theorem messageLeft_only (m : TrgMessage) (s : State) :
    forNat 8 (leaveTo m) (messageTaken m s) = { s with
      ev := (messageTaken m s).ev, units := (forNat 8 (leaveTo m) (messageTaken m s)).units } :=
  unitsOnly_forNat_leaveTo m 8 (messageTaken m s)

/-- The next state of an event that changes the event inputs' part and the units. -/
theorem ex_done_ev_units {P : State → Prop} {s x : State} {e : Events} {l : List Unit} (hx : x = { s with ev := e, units := l })
    (h : ∀ t, t.ev = e → t.units = l →
      t = { s with ev := t.ev, units := t.units, health := s.settledHealth t, store := s.settledStore t } → P t) :
    ∃ t, done x = .next t ∧ P t := by
  subst hx
  exact ex_done s _ rfl rfl fun t ht => h t (congrArg State.ev ht) (congrArg State.units ht) (by rw [ht]; rfl)

/-- Settles O43: an accepted message reaches each unit that watches its code as an event still to be decided. -/
theorem triggerMessages : Obligations.TriggerMessages := by
  unfold Obligations.TriggerMessages
  refine fun s m hl => ⟨fun htest => ?_, fun htest => ?_⟩
  · rw [exec_triggerMessageReceive m hl, msgReceive_of_accepted htest]
    refine ex_done_ev_units (messageLeft_only m s) fun t hev hunits hframe =>
      ⟨by rw [hev]; rfl, by rw [hev]; rfl, by rw [hev]; rfl, fun u hu8 hu => ?_, hframe⟩
    have hunit : unitAt t u = s.withMessage m u (unitAt s u) :=
      (unitAt_congr hunits u).trans ((unitAt_forNat_leaveTo m 8 (s := messageTaken m s) hu).trans (if_pos hu8))
    rw [hunit]
    exact ⟨withMessage_offers_only .., fun ha hkind hcode => withMessage_of_watches ⟨ha, hkind, hcode⟩⟩
  · rw [exec_triggerMessageReceive m hl, msgReceive_of_discarded htest]
    exact ex_done s _ rfl rfl fun t ht => ⟨congrArg State.ev ht, by rw [ht]; rfl⟩

end Sys2Proof.Machine

/-! SUPPORT AND PROOFS. Time synchronisation: Sync and Follow_Up, the transparent clock and the offset of R222 (R210, R218,
R222, R230). -/

namespace Sys2Proof.Machine

/-! ### One port as PTP sees it, after a change -/

theorem ptpAt_congr {s t : State} (h : t.ptp.ports = s.ptp.ports) (j : Nat) : ptpAt t j = ptpAt s j := by
  unfold ptpAt; rw [h]

/-- Every other port stays. -/
theorem ptpAt_onPtp_other {p j : Nat} (f : PtpPort → PtpPort) (s : State) (h : j ≠ p) : ptpAt (onPtp p f s) j = ptpAt s j :=
  updAt_getD_other f p j s.ptp.ports _ h

/-! ### Events that raise pennants at most -/

/-- The next state of an event that has changed the health of s in its pennants alone, and not its stores. -/
theorem ex_done_pennants {P : State → Prop} {s x : State} (hh : PennantsOnly s x) (hs : x.store = s.store)
    (h : ∀ t, t = { x with health := s.settledHealth t, store := s.settledStore t } → P t) : ∃ t, done x = .next t ∧ P t := by
  refine ⟨settle x, rfl, h _ ?_⟩
  have k : settle x = { x with health := x.settledHealth (settle x), store := x.settledStore (settle x) } := settle_settled x
  rw [hh.settledHealth_congr] at k
  simpa only [State.settledStore, hs] using k

/-! ### What the servo and holdover change (R223 to R231) -/

/-- From s to t the servo has set its rate, or holdover has begun, gone on or ended: nothing has changed but the time engine,
the pennants, and what the servo and holdover keep of their own. -/
def Steered (s t : State) : Prop :=
  t = { s with
    time := t.time
    health := { s.health with pennants := t.health.pennants }
    ptp := { s.ptp with
      followed := t.ptp.followed
      clamped := t.ptp.clamped
      integ := t.ptp.integ
      integs := t.ptp.integs
      y := t.ptp.y
      cause := t.ptp.cause
      since := t.ptp.since
      holdStart := t.ptp.holdStart
      holdShift := t.ptp.holdShift
      b0 := t.ptp.b0
      yu := t.ptp.yu
      temp0 := t.ptp.temp0
      tempMax := t.ptp.tempMax
      pending := t.ptp.pending
      reroute := t.ptp.reroute
      resume := t.ptp.resume } }

theorem Steered.refl (s : State) : Steered s s := rfl

theorem Steered.trans {a b c : State} (h : Steered a b) (k : Steered b c) : Steered a c := by
  unfold Steered at *; rw [k, h]

theorem Steered.ite {s a b : State} {c : Prop} [Decidable c] (ha : Steered s a) (hb : Steered s b) :
    Steered s (if c then a else b) := by
  split
  · exact ha
  · exact hb

theorem Steered.pennantsOnly {s t : State} (h : Steered s t) : PennantsOnly s t := (congrArg State.health h :)

theorem steered_raisePn (n : Nat) (s : State) : Steered s (raisePn n s) := rfl

theorem steered_enterHoldover (manual : Bool) (s : State) : Steered s (enterHoldover manual s) := rfl

theorem steered_setCause (i : Nat) (s : State) : Steered s (setCause i s) := by
  unfold setCause
  extract_lets s1 ptp s2 ptp2 s3
  have h1 : Steered s s1 := .ite (.refl s) (steered_enterHoldover _ s)
  have h2 : Steered s1 s2 := rfl
  have h3 : Steered s2 s3 := .ite (by exact rfl) (.refl s2)
  exact .ite (.refl s) (h1.trans (h2.trans (h3.trans (.ite (steered_raisePn 5 s3) (.refl s3)))))

theorem steered_jumpTest (s : State) : Steered s (jumpTest s) := .ite (steered_setCause 4 s) (.refl s)

theorem steered_leaveHoldover (s : State) : Steered s (leaveHoldover s) := .ite (.refl s) rfl

theorem steered_clearCause (i : Nat) (s : State) : Steered s (clearCause i s) := by
  unfold clearCause
  extract_lets s1 ptp
  have h1 : Steered s s1 := .ite (.refl s) (steered_jumpTest s)
  have h2 : Steered s1 { s1 with ptp.cause := s1.ptp.cause - 2 ^ i } := rfl
  exact .ite (h1.trans (h2.trans (steered_leaveHoldover _))) (.refl s)

theorem steered_portChangeEnd (s : State) : Steered s (portChangeEnd s) := by
  unfold portChangeEnd
  extract_lets bit ptp s1 ptp1
  have hroute : Steered s { s with ptp := { ptp with reroute := s.ptp.reroute ||| bit } } := rfl
  have hcause : Steered s1 { s1 with ptp := { ptp1 with cause := s1.ptp.cause - 2 ^ 3 } } := rfl
  exact .ite (steered_clearCause 3 s) ((hroute.trans (steered_setCause 5 _)).trans hcause)

theorem steered_holdoverOffset (s : State) : Steered s (holdoverOffset s) := by
  unfold holdoverOffset
  extract_lets counted ptp s1 s2 s3 s4 s5 s6 s7
  have h1 : Steered s s1 := rfl
  have h2 : Steered s1 s2 := .ite (steered_clearCause 4 s1) (.refl s1)
  have h3 : Steered s2 s3 := .ite (steered_clearCause 0 s2) (.refl s2)
  have h4 : Steered s3 s4 := .ite (steered_clearCause 1 s3) (.refl s3)
  have h5 : Steered s4 s5 := .ite (steered_clearCause 2 s4) (.refl s4)
  have h6 : Steered s5 s6 := .ite (steered_portChangeEnd s5) (.refl s5)
  have h7 : Steered s6 s7 := .ite (steered_clearCause 6 s6) (.refl s6)
  have hresume : Steered (jumpTest s7) { jumpTest s7 with ptp.resume := false } := rfl
  have h8 : Steered s7 (leaveHoldover { jumpTest s7 with ptp.resume := false }) :=
    (steered_jumpTest s7).trans (hresume.trans (steered_leaveHoldover _))
  exact h1.trans (h2.trans (h3.trans (h4.trans (h5.trans (h6.trans (h7.trans (.ite h8 (.refl s7))))))))

theorem steered_servoUpdate (theta : Int) (s : State) : Steered s (servoUpdate theta s) := by
  unfold servoUpdate
  extract_lets tau w x i y lim cl i' s1 ptp s2 locked time s3
  have h3 : Steered s s3 := rfl
  exact h3.trans (.ite (.refl s3) (steered_jumpTest s3))

/-! ### A valid offset (R220, R222, R230) -/

/-- A valid offset has come: it is counted, and the sixteenth makes the port SLAVE (R220). -/
def offsetCounted (s : State) : State :=
  let slave := decide (s.ptp.state = 8) && decide (16 ≤ s.ptp.consec + 1)
  { s with ptp := { s.ptp with
      consec := s.ptp.consec + 1
      silent := false
      state := if slave then 9 else s.ptp.state
      setDue := s.ptp.setDue || (slave && decide (s.time.quality = 0)) } }

/-- The offset is taken among the sixteen latest. -/
def offsetTaken (theta : Int) (s : State) : State :=
  { offsetCounted s with ptp := { (offsetCounted s).ptp with gated := [], offsets := (theta :: s.ptp.offsets).take 16 } }

/-- The offset is gated: y holds I (R230). -/
def offsetGated (theta : Int) (s : State) : State :=
  setRate s.ptp.integ { offsetCounted s with ptp := { (offsetCounted s).ptp with gated := theta :: s.ptp.gated } }

/-- An offset that is not gated is taken, and steers the servo or ends holdover. -/
theorem takeOffset_of_taken {theta : Int} {s : State} (h : gatedBy s theta = false) :
    Steered (offsetTaken theta s) (takeOffset theta s) := by
  unfold takeOffset
  extract_lets n slave ptp s1 ptp1 s2 ptp2 s3
  have h3 : Steered (offsetTaken theta s) s3 := .ite (by exact rfl) (by exact rfl)
  rw [if_neg (by rw [show gatedBy s1 theta = gatedBy s theta from rfl, h]; simp)]
  refine h3.trans ?_
  split
  · exact .refl s3
  · exact steered_holdoverOffset s3
  · exact steered_servoUpdate theta s3

/-- Fewer than sixteen gated offsets in succession are kept aside. -/
theorem takeOffset_of_gated {theta : Int} {s : State} (h : gatedBy s theta = true) (hfew : s.ptp.gated.length + 1 < 16) :
    takeOffset theta s = offsetGated theta s := by
  unfold takeOffset
  exact (if_pos h).trans (if_pos hfew)

/-- The offset of R222 for a Sync of port p, with the corrections c. -/
def State.syncTheta (s : State) (p : Nat) (m : PtpEvent) (c : Int) : Int :=
  corrDiff ((timestampTw m.seconds m.nanos 0).toNat * 256) (instantIn s p m.ingress) - c - linkDelay s p - asymmetry s p

/-- What a Sync of the timing port brings besides its offset: its interval and the master's time (R14, R223). -/
def syncNoted (m : PtpEvent) (theta : Int) (s : State) : State :=
  takeMasterTime m theta { s with ptp.logSync := some m.logInt }

/-- A Sync whose port has a valid link delay and no pending re-route gives its offset. -/
theorem syncOffset_of_valid {p : Nat} {s : State} (hroute : s.ptp.reroute.testBit p = false) (hvalid : (ptpAt s p).valid = true)
    (m : PtpEvent) (c : Int) :
    syncOffset p m c s = takeOffset (s.syncTheta p m c) (syncNoted m (s.syncTheta p m c) s) := by
  unfold syncOffset
  rw [if_neg (by rw [hroute]; simp)]
  refine if_neg ?_
  rw [show (ptpAt { s with ptp.logSync := some m.logInt } p).valid = true from hvalid]
  simp

/-- From s to x an offset has come: nothing has changed but the time engine, the network time and pennants; the ports and the
interval of the latest Sync stay, and the offset is counted. -/
structure OffsetActed (s x : State) : Prop where
  only : x = { s with time := x.time, ptp := x.ptp, health := { s.health with pennants := x.health.pennants } }
  ports : x.ptp.ports = s.ptp.ports
  logSync : x.ptp.logSync = s.ptp.logSync
  consec : x.ptp.consec = s.ptp.consec + 1

theorem OffsetActed.of_steered {s y x : State} (hy : OffsetActed s y) (h : Steered y x) : OffsetActed s x := by
  unfold Steered at h
  rw [h]
  refine ⟨?_, hy.ports, hy.logSync, hy.consec⟩
  rw [hy.only]

theorem offsetActed_offsetTaken (theta : Int) (s : State) : OffsetActed s (offsetTaken theta s) := ⟨rfl, rfl, rfl, rfl⟩

theorem offsetActed_gateOffset (theta : Int) (s : State) : OffsetActed s (gateOffset theta (offsetCounted s)) := by
  unfold gateOffset
  extract_lets l ptp s1 ptp1 s2 time
  split
  · exact ⟨rfl, rfl, rfl, rfl⟩
  · have hkept : OffsetActed s { s1 with ptp := { s1.ptp with offsets := l.take 16, gated := [] } } := ⟨rfl, rfl, rfl, rfl⟩
    exact (hkept.of_steered (steered_jumpTest _)).of_steered (.ite rfl (.refl s2))

theorem takeOffset_acts (theta : Int) (s : State) : OffsetActed s (takeOffset theta s) := by
  cases h : gatedBy s theta with
  | false => exact (offsetActed_offsetTaken theta s).of_steered (takeOffset_of_taken h)
  | true =>
    have heq : takeOffset theta s = gateOffset theta (offsetCounted s) := if_pos h
    exact heq ▸ offsetActed_gateOffset theta s

/-! ### What the transparent clock sends on (R218) -/

/-- What leaves by the other active ring port, if there is one. -/
def ringOut (s : State) (p : Nat) (o : Nat → Output) : List Output :=
  match otherPort s p with
  | some q => [o q]
  | none => []

/-- The sums that port p holds after a Sync. -/
def heldSums (s : State) (p : Nat) (m : PtpEvent) : List (SyncId × Int) :=
  match otherPort s p with
  | some q =>
    if m.twoStep then (m.id, transitSum s p q m) :: (ptpAt s p).held.filter (fun h => h.1 ≠ m.id) else (ptpAt s p).held
  | none => (ptpAt s p).held

/-- The sum that port p holds for a Follow_Up; 0 without one. -/
def heldSum (s : State) (p : Nat) (m : PtpEvent) : Int :=
  match (ptpAt s p).held.find? (fun h => h.1 = m.id) with
  | some h => h.2
  | none => 0

/-- The sums that port p holds after a Follow_Up. -/
def heldRest (s : State) (p : Nat) (m : PtpEvent) : List (SyncId × Int) :=
  match otherPort s p with
  | some _ => (ptpAt s p).held.filter (fun h => h.1 ≠ m.id)
  | none => (ptpAt s p).held

/-- From s to y the transparent clock has sent these messages; port p holds these sums, and these Syncs wait at it. -/
structure Relayed (s : State) (p : Nat) (sent : List Output) (sums : List (SyncId × Int)) (syncs : List PtpEvent) (y : State) :
    Prop where
  only : y = { s with out := sent ++ s.out, ptp := { s.ptp with ports := y.ptp.ports } }
  length : y.ptp.ports.length = s.ptp.ports.length
  port : ptpAt y p = { ptpAt s p with held := sums, sync := syncs }

/-- A message that goes on leaves the held sums as they are. -/
theorem relayed_emit (s : State) (p : Nat) (o : Output) :
    Relayed s p [o] (ptpAt s p).held (ptpAt s p).sync (emit o s) := ⟨rfl, rfl, rfl⟩

/-- A message that goes on while the held sums change. -/
theorem relayed_onPtp {s : State} {p : Nat} (hp : p < s.ptp.ports.length) (o : Output)
    (f : List (SyncId × Int) → List (SyncId × Int)) :
    Relayed s p [o] (f (ptpAt s p).held) (ptpAt s p).sync (onPtp p (fun x => { x with held := f x.held }) (emit o s)) :=
  ⟨rfl, updAt_length .., ptpAt_onPtp_same p _ (emit o s) hp⟩

theorem relayed_forwardSync {s : State} {p : Nat} (hp : p < s.ptp.ports.length) (m : PtpEvent) :
    Relayed s p (ringOut s p fun q => .ptp q 0 m.seq (if m.twoStep then m.correction else m.correction + transitSum s p q m))
      (heldSums s p m) (ptpAt s p).sync (forwardSync p m s) := by
  unfold forwardSync ringOut heldSums
  cases otherPort s p with
  | none => exact ⟨rfl, rfl, rfl⟩
  | some q =>
    cases m.twoStep
    · exact relayed_emit ..
    · exact relayed_onPtp hp _ fun l => (m.id, transitSum s p q m) :: l.filter fun h => h.1 ≠ m.id

theorem relayed_forwardFollowUp {s : State} {p : Nat} (hp : p < s.ptp.ports.length) (m : PtpEvent) :
    Relayed s p (ringOut s p fun q => .ptp q 8 m.seq (m.correction + heldSum s p m)) (heldRest s p m) (ptpAt s p).sync
      (forwardFollowUp p m s) := by
  unfold forwardFollowUp ringOut heldRest heldSum
  cases otherPort s p with
  | none => exact ⟨rfl, rfl, rfl⟩
  | some q =>
    cases hfind : (ptpAt s p).held.find? (fun h => h.1 = m.id) with
    | some h => exact relayed_onPtp hp _ fun l => l.filter fun h => h.1 ≠ m.id
    | none =>
      have hrest : (ptpAt s p).held.filter (fun h => h.1 ≠ m.id) = (ptpAt s p).held := by
        rw [List.filter_eq_self]
        simpa using hfind
      dsimp only
      rw [hrest, Int.add_zero]
      exact relayed_emit ..

namespace Relayed

variable {s y : State} {p : Nat} {sent : List Output} {sums : List (SyncId × Int)} {syncs : List PtpEvent}
  (h : Relayed s p sent sums syncs y)
include h

theorem health_eq : y.health = s.health := (congrArg State.health h.only :)

theorem store_eq : y.store = s.store := (congrArg State.store h.only :)

theorem ownDomain_eq (a : PtpHead) : ownDomain y a = ownDomain s a := by rw [h.only]; rfl

theorem fromMaster_eq (m : PtpEvent) : fromMaster y p m = fromMaster s p m := by rw [h.only]; rfl

theorem gatedBy_eq (theta : Int) : gatedBy y theta = gatedBy s theta := by rw [h.only]; rfl

theorem syncTheta_eq (m : PtpEvent) (c : Int) : y.syncTheta p m c = s.syncTheta p m c := by
  unfold State.syncTheta linkDelay
  rw [h.port, h.only]
  rfl

/-- The Syncs that wait at the port change besides. -/
theorem onSync (hp : p < s.ptp.ports.length) (f : List PtpEvent → List PtpEvent) :
    Relayed s p sent sums (f syncs) (onPtp p (fun x => { x with sync := f x.sync }) y) where
  only := by rw [h.only]; rfl
  length := (updAt_length ..).trans h.length
  port := by rw [ptpAt_onPtp_same p _ y (h.length ▸ hp), h.port]

/-- A message that is sent on, and may wait for another. -/
theorem ex_done :
    ∃ t, done y = .next t ∧ t.out = sent ++ s.out ∧ ptpAt t p = { ptpAt s p with held := sums, sync := syncs } ∧
      t = { s with ptp := { s.ptp with ports := t.ptp.ports }, out := t.out, health := s.settledHealth t,
                   store := s.settledStore t } := by
  refine Machine.ex_done s y h.health_eq h.store_eq fun t ht => ⟨?_, ?_, ?_⟩
  · rw [ht, h.only]
  · rw [← h.port]
    exact ptpAt_congr (by rw [ht]) p
  · rw [ht, h.only]
    rfl

/-- A message that is sent on, counted and used no further (R210). -/
theorem ex_done_discard :
    ∃ t, done (ptpDiscard y) = .next t ∧ t.out = sent ++ s.out ∧ t.ptp.discards = satInc s.ptp.discards ∧
      ptpAt t p = { ptpAt s p with held := sums, sync := syncs } ∧
      t = { s with ptp := { s.ptp with discards := t.ptp.discards, ports := t.ptp.ports }, out := t.out,
                   health := s.settledHealth t, store := s.settledStore t } := by
  refine Machine.ex_done s (ptpDiscard y) h.health_eq h.store_eq fun t ht => ⟨?_, ?_, ?_, ?_⟩
  · rw [ht, h.only]
    rfl
  · rw [ht, h.only]
    rfl
  · rw [← h.port]
    exact ptpAt_congr (by rw [ht]; rfl) p
  · rw [ht, h.only]
    rfl

/-- A message that is sent on and gives an offset, which is taken or gated (R222, R230). -/
theorem ex_done_offset (hroute : s.ptp.reroute.testBit p = false) (hvalid : (ptpAt s p).valid = true) (m : PtpEvent) (c : Int) :
    ∃ t, done (syncOffset p m c y) = .next t ∧ t.out = sent ++ s.out ∧
      ptpAt t p = { ptpAt s p with held := sums, sync := syncs } ∧ t.ptp.consec = s.ptp.consec + 1 ∧
      t.ptp.logSync = some m.logInt ∧
      (gatedBy s (s.syncTheta p m c) = false →
        t.ptp.offsets = (s.syncTheta p m c :: s.ptp.offsets).take 16 ∧ t.ptp.gated = []) ∧
      (gatedBy s (s.syncTheta p m c) = true → s.ptp.gated.length + 1 < 16 →
        t.ptp.offsets = s.ptp.offsets ∧ t.ptp.gated = s.syncTheta p m c :: s.ptp.gated) ∧
      t = { s with time := t.time, ptp := t.ptp, out := t.out, health := s.settledHealth t, store := s.settledStore t } := by
  have hyroute : y.ptp.reroute.testBit p = false := by rw [h.only]; exact hroute
  have hyvalid : (ptpAt y p).valid = true := by rw [h.port]; exact hvalid
  rw [syncOffset_of_valid hyroute hyvalid, h.syncTheta_eq]
  generalize s.syncTheta p m c = θ
  have hx := takeOffset_acts θ (syncNoted m θ y)
  have hs : takeOffset θ (syncNoted m θ y) = { s with
      time := (takeOffset θ (syncNoted m θ y)).time
      ptp := (takeOffset θ (syncNoted m θ y)).ptp
      out := sent ++ s.out
      health := { s.health with pennants := (takeOffset θ (syncNoted m θ y)).health.pennants } } := by
    refine hx.only.trans ?_
    rw [h.only]
    rfl
  refine ex_done_pennants (s := s) (congrArg State.health hs :) (congrArg State.store hs :) fun t ht => ?_
  have hptp : t.ptp = (takeOffset θ (syncNoted m θ y)).ptp := (congrArg State.ptp ht :)
  refine ⟨?_, ?_, ?_, ?_, fun hgate => ?_, fun hgate hfew => ?_, ?_⟩
  · rw [ht, hs]
  · rw [← h.port]
    exact ptpAt_congr ((congrArg Ptp.ports hptp).trans hx.ports) p
  · rw [hptp, hx.consec, h.only]
    rfl
  · rw [hptp, hx.logSync]
    rfl
  · have hsteer := takeOffset_of_taken (s := syncNoted m θ y) ((h.gatedBy_eq θ).trans hgate)
    unfold Steered at hsteer
    rw [hptp, hsteer, h.only]
    exact ⟨rfl, rfl⟩
  · have hkept : (syncNoted m θ y).ptp.gated.length + 1 < 16 := by rw [h.only]; exact hfew
    rw [hptp, takeOffset_of_gated (s := syncNoted m θ y) ((h.gatedBy_eq θ).trans hgate) hkept, h.only]
    exact ⟨rfl, rfl⟩
  · rw [ht, hs]
    rfl

end Relayed

/-! ### Sync and Follow_Up (R210, R218, R222) -/

theorem exec_syncReceive {s : State} (p : Fin 4) (m : PtpEvent) (hl : live s = true) :
    exec (.syncReceive p m) s = done (syncReceive p.val m s) := if_pos hl

theorem exec_followUpReceive {s : State} (p : Fin 4) (m : PtpEvent) (hl : live s = true) :
    exec (.followUpReceive p m) s = done (followUpReceive p.val m s) := if_pos hl

section
variable {s : State} {p : Nat} {m : PtpEvent} (ha : activePort s p = true) (hp : p < s.ptp.ports.length)
include ha hp

theorem syncReceive_of_active :
    syncReceive p m s =
      if ownDomain s m.head = false then forwardSync p m s
      else if ptpBad m.head = true ∨ m.logInt < -7 ∨ 0 < m.logInt then ptpDiscard (forwardSync p m s)
      else if fromMaster s p m = false then forwardSync p m s
      else if m.twoStep = true then
        onPtp p (fun x => { x with sync := m :: x.sync.filter fun y => y.id ≠ m.id }) (forwardSync p m s)
      else syncOffset p m m.correction (forwardSync p m s) := by
  unfold syncReceive
  rw [if_neg (by rw [ha]; simp)]
  dsimp only
  rw [(relayed_forwardSync hp m).ownDomain_eq, (relayed_forwardSync hp m).fromMaster_eq]
  simp only [Bool.not_eq_true']

theorem followUpReceive_of_foreign (hd : ownDomain s m.head = false) : followUpReceive p m s = forwardFollowUp p m s := by
  unfold followUpReceive
  rw [if_neg (by rw [ha]; simp)]
  exact if_pos (by rw [(relayed_forwardFollowUp hp m).ownDomain_eq, hd]; rfl)

theorem followUpReceive_of_bad (hd : ownDomain s m.head = true) (hbad : ptpBad m.head = true) :
    followUpReceive p m s = ptpDiscard (forwardFollowUp p m s) := by
  unfold followUpReceive
  rw [if_neg (by rw [ha]; simp)]
  exact (if_neg (by rw [(relayed_forwardFollowUp hp m).ownDomain_eq, hd]; simp)).trans (if_pos hbad)

end

section
variable {s : State} {p : Nat} {m : PtpEvent} (ha : activePort s p = true) (hp : p < s.ptp.ports.length)
  (hd : ownDomain s m.head = true) (hgood : ptpBad m.head = false)
include ha hp hd hgood

/-- A Sync of the best master that R210 does not discard. -/
theorem syncReceive_of_master (hlo : -7 ≤ m.logInt) (hhi : m.logInt ≤ 0) (hm : fromMaster s p m = true) :
    syncReceive p m s =
      if m.twoStep = true then
        onPtp p (fun x => { x with sync := m :: x.sync.filter fun y => y.id ≠ m.id }) (forwardSync p m s)
      else syncOffset p m m.correction (forwardSync p m s) := by
  have hint : ¬(m.logInt < -7 ∨ 0 < m.logInt) := by omega
  rw [syncReceive_of_active ha hp, if_neg (by rw [hd]; simp), if_neg (by rw [hgood]; simpa using hint),
    if_neg (by rw [hm]; simp)]

/-- The Follow_Up of a Sync of the best master that waits for it. -/
theorem followUpReceive_of_waiting {y : PtpEvent} (hy : (ptpAt s p).sync.find? (fun y => y.id = m.id) = some y)
    (hm : fromMaster s p y = true) :
    followUpReceive p m s =
      syncOffset p { y with seconds := m.seconds, nanos := m.nanos } (y.correction + m.correction)
        (onPtp p (fun x => { x with sync := x.sync.filter fun y => y.id ≠ m.id }) (forwardFollowUp p m s)) := by
  have h := relayed_forwardFollowUp hp m
  unfold followUpReceive
  rw [if_neg (by rw [ha]; simp)]
  refine (if_neg (by rw [h.ownDomain_eq, hd]; simp)).trans ((if_neg (by rw [hgood]; simp)).trans ?_)
  simp only [h.port, hy]
  exact if_pos (by rw [h.fromMaster_eq, hm])

end

/-- A change of the ports, stated as a change of the network time. -/
theorem frame_of_ports {s t : State} {health : Health} {store : Storage}
    (h : t = { s with ptp := { s.ptp with ports := t.ptp.ports }, out := t.out, health := health, store := store }) :
    t = { s with ptp := t.ptp, out := t.out, health := health, store := store } := by rw [h]

/-- Settles O38: a message is sent on first, then discarded, kept for its Follow_Up, or taken as an offset. -/
theorem syncMessages : Obligations.SyncMessages := by
  unfold Obligations.SyncMessages
  intro s p m hl ha hp sent sums sum followed rest
  have hs := relayed_forwardSync hp m
  have hf := relayed_forwardFollowUp hp m
  rw [exec_syncReceive p m hl, exec_followUpReceive p m hl]
  refine ⟨fun hd => ⟨?_, ?_⟩, fun hd => ⟨fun hbad => ?_, fun hbad => ?_, fun hgood hlo hhi hm htwo => ?_,
    fun hgood hlo hhi hm hone hroute hvalid => ?_, fun y hgood hy hm hroute hvalid hgate => ?_⟩⟩
  · rw [syncReceive_of_active ha hp, if_pos hd]
    obtain ⟨t, hnext, hout, hport, hframe⟩ := hs.ex_done
    exact ⟨t, hnext, hout, hport, frame_of_ports hframe⟩
  · rw [followUpReceive_of_foreign ha hp hd]
    obtain ⟨t, hnext, hout, hport, hframe⟩ := hf.ex_done
    exact ⟨t, hnext, hout, hport, frame_of_ports hframe⟩
  · rw [syncReceive_of_active ha hp, if_neg (by rw [hd]; simp), if_pos hbad]
    exact hs.ex_done_discard
  · rw [followUpReceive_of_bad ha hp hd hbad]
    exact hf.ex_done_discard
  · rw [syncReceive_of_master ha hp hd hgood hlo hhi hm, if_pos htwo]
    exact (hs.onSync hp fun l => m :: l.filter fun y => y.id ≠ m.id).ex_done
  · rw [syncReceive_of_master ha hp hd hgood hlo hhi hm, if_neg (by rw [hone]; simp)]
    obtain ⟨t, hnext, hout, -, hrest⟩ := hs.ex_done_offset hroute hvalid m m.correction
    exact ⟨t, hnext, hout, hrest⟩
  · rw [followUpReceive_of_waiting ha hp hd hgood hy hm]
    obtain ⟨t, hnext, hout, hport, hconsec, -, htaken, -, hframe⟩ :=
      (hf.onSync hp fun l => l.filter fun y => y.id ≠ m.id).ex_done_offset hroute hvalid
        { y with seconds := m.seconds, nanos := m.nanos } (y.correction + m.correction)
    exact ⟨t, hnext, hout, (htaken hgate).1, hconsec, by rw [hport]; rfl, by rw [hport], hframe⟩

end Sys2Proof.Machine

/-! SUPPORT AND PROOFS. Time synchronisation: the choice of the best master and the timing port, and what a link source makes of
it (R219, R220, R228, R376). -/

namespace Sys2Proof.Machine

/-! ### What a new choice of the master changes -/

/-- From s to t the best master, the timing port or the source of the system reference may have changed: nothing has but the
network time, the time engine, the clock sources, the entry into SAFE that a lost source asks for, and the pennants. At each
port the Syncs that wait may be gone; the port keeps all else. -/
structure Rechosen (s t : State) : Prop where
  only : t = { s with
    power := t.power
    time := t.time
    cal := { s.cal with fromWarm := t.cal.fromWarm }
    ptp := t.ptp
    clocks := t.clocks
    health := { s.health with pennants := t.health.pennants } }
  ports : ∀ j, ptpAt t j = { ptpAt s j with sync := (ptpAt t j).sync }

theorem Rechosen.refl (s : State) : Rechosen s s := ⟨rfl, fun _ => rfl⟩

theorem Rechosen.trans {a b c : State} (h : Rechosen a b) (k : Rechosen b c) : Rechosen a c where
  only := by
    have hb := h.only
    have hc := k.only
    rw [hc, hb]
  ports j := by rw [k.ports j, h.ports j]

theorem Rechosen.ite {s a b : State} {c : Prop} [Decidable c] (ha : Rechosen s a) (hb : Rechosen s b) :
    Rechosen s (if c then a else b) := by
  split
  · exact ha
  · exact hb

theorem Rechosen.pennantsOnly {s t : State} (h : Rechosen s t) : PennantsOnly s t := (congrArg State.health h.only :)

theorem Rechosen.store_eq {s t : State} (h : Rechosen s t) : t.store = s.store := (congrArg State.store h.only :)

theorem Rechosen.link_eq {s t : State} (h : Rechosen s t) : t.link = s.link := (congrArg State.link h.only :)

theorem Steered.rechosen {s t : State} (h : Steered s t) : Rechosen s t := by
  unfold Steered at h
  rw [h]
  exact ⟨rfl, fun _ => rfl⟩

/-- The next state of an event that ends in a new choice of the master, from z. -/
theorem ex_done_rechosen {P : State → Prop} {z x : State} (hx : Rechosen z x)
    (h : ∀ t, t.ptp = x.ptp → (∀ j, ptpAt t j = { ptpAt z j with sync := (ptpAt t j).sync }) →
      t = { z with power := t.power, time := t.time, cal := { z.cal with fromWarm := t.cal.fromWarm }, ptp := t.ptp,
                   clocks := t.clocks, health := z.settledHealth t, store := z.settledStore t } → P t) :
    ∃ t, done x = .next t ∧ P t :=
  ex_done_pennants hx.pennantsOnly hx.store_eq fun t ht => by
    have hptp : t.ptp = x.ptp := (congrArg State.ptp ht :)
    refine h t hptp (fun j => ?_) ?_
    · rw [ptpAt_congr (congrArg Ptp.ports hptp) j]
      exact hx.ports j
    · have hs := hx.only
      rw [ht, hs]
      rfl

/-! ### The choice of the best master and the timing port (R219, R220, R228) -/

theorem rechosen_setCause (i : Nat) (s : State) : Rechosen s (setCause i s) := (steered_setCause i s).rechosen

theorem rechosen_clearOffsets (s : State) : Rechosen s (clearOffsets s) := by
  refine ⟨rfl, fun j => ?_⟩
  unfold ptpAt clearOffsets
  simp only [List.getD_eq_getElem?_getD, List.getElem?_map]
  cases s.ptp.ports[j]? <;> rfl

/-- A change of the network time that leaves the ports as they are. -/
theorem rechosen_ptp {s t : State} (h : t = { s with ptp := t.ptp }) (hp : t.ptp.ports = s.ptp.ports) : Rechosen s t := by
  refine ⟨?_, fun j => ?_⟩
  · rw [h]
  · rw [ptpAt_congr hp j]

theorem rechosen_masterLost (s : State) : Rechosen s (masterLost s) := by
  unfold masterLost
  extract_lets ptp s1 ptp1
  have hsince : Rechosen s { s with ptp := { ptp with since := (s.ptp.since.set 0 0).set 6 0 } } := rechosen_ptp rfl rfl
  have h1 : Rechosen s s1 := .ite (hsince.trans (rechosen_clearOffsets _)) (.refl s)
  have h2 : Rechosen s1 { s1 with ptp := { ptp1 with best := none, timingPort := none, state := 4, setDue := false } } :=
    rechosen_ptp rfl rfl
  exact (h1.trans h2).trans (rechosen_setCause 0 _)

/-- The master b in place of another, with no offset of it yet (R220). -/
def masterTaken (b : Announce) (s : State) : State :=
  clearOffsets { s with ptp := { s.ptp with best := some b, state := 8, setDue := false } }

theorem newMaster_steers (b : Announce) (s : State) : Steered (masterTaken b s) (newMaster b s) := by
  unfold newMaster
  extract_lets ptp s1 ptp1
  split
  · have hsince : Steered s1 { s1 with ptp := { ptp1 with since := s1.ptp.since.set 2 0 } } := rfl
    exact .ite (.refl s1) (hsince.trans (steered_setCause 2 _))
  · exact .refl s1

theorem rechosen_newMaster (b : Announce) (s : State) : Rechosen s (newMaster b s) := by
  have hptp : Rechosen s { s with ptp := { s.ptp with best := some b, state := 8, setDue := false } } := rechosen_ptp rfl rfl
  exact (hptp.trans (rechosen_clearOffsets _)).trans (newMaster_steers b s).rechosen

/-- The timing port that R219 gives for the master b. -/
def timingTaken (b : Announce) (s : State) : State := { s with ptp := { s.ptp with timingPort := chooseTiming s b } }

/-- A timing port that stays keeps its offsets; another begins without any. -/
theorem newTiming_steers (same : Bool) (b : Announce) (s : State) :
    Steered (timingTaken b s) (newTiming same b s) ∨ Steered (clearOffsets (timingTaken b s)) (newTiming same b s) := by
  unfold newTiming
  dsimp only
  split
  · exact .inl (.ite (steered_setCause 1 _) (.refl _))
  · refine .inr ?_
    split
    · have hsince : Steered (clearOffsets (timingTaken b s))
          { clearOffsets (timingTaken b s) with
            ptp := { (clearOffsets (timingTaken b s)).ptp with
              since := (clearOffsets (timingTaken b s)).ptp.since.set 3 0 } } := rfl
      exact .ite (hsince.trans (steered_setCause 3 _)) (.refl _)
    · exact steered_setCause 1 _
    · exact .refl _

theorem rechosen_newTiming (same : Bool) (b : Announce) (s : State) : Rechosen s (newTiming same b s) := by
  have h1 : Rechosen s (timingTaken b s) := rechosen_ptp rfl rfl
  rcases newTiming_steers same b s with h | h
  · exact h1.trans h.rechosen
  · exact (h1.trans (rechosen_clearOffsets _)).trans h.rechosen

theorem rechosen_masterChoice (s : State) : Rechosen s (masterChoice s) := by
  unfold masterChoice
  split
  · exact rechosen_masterLost s
  next b _ =>
    extract_lets same ptp s1
    have h1 : Rechosen s s1 := .ite (rechosen_ptp rfl rfl) (rechosen_newMaster b s)
    exact h1.trans (rechosen_newTiming same b s1)

theorem Steered.best_eq {s t : State} (h : Steered s t) : t.ptp.best = s.ptp.best := by
  unfold Steered at h
  rw [h]

theorem newTiming_best (same : Bool) (b : Announce) (s : State) : (newTiming same b s).ptp.best = s.ptp.best := by
  rcases newTiming_steers same b s with h | h <;> exact h.best_eq

theorem masterChoice_best (s : State) : (masterChoice s).ptp.best = bestMaster s := by
  unfold masterChoice
  split
  next h => exact (steered_setCause 0 _).best_eq.trans h.symm
  next b h =>
    extract_lets same ptp s1
    rw [newTiming_best, h]
    unfold s1
    by_cases hsame : same = true
    · rw [if_pos hsame]
    · rw [if_neg hsame]
      exact (newMaster_steers b s).best_eq

/-! ### What a link source makes of it (R376, R378, R389) -/

/-- A change of the clock sources. -/
theorem rechosen_clocks {s t : State} (h : t = { s with clocks := t.clocks }) : Rechosen s t := by
  rw [h]
  exact ⟨rfl, fun _ => rfl⟩

theorem rechosen_ocxoLost (s : State) : Rechosen s (ocxoLost s) := by
  unfold ocxoLost
  split <;> exact ⟨rfl, fun _ => rfl⟩

theorem rechosen_refEval (s : State) : Rechosen s (refEval s) := by
  unfold refEval
  extract_lets clocks s1 d
  have h1 : Rechosen s s1 := .ite (rechosen_clocks rfl) (.refl s)
  exact h1.trans (.ite (.refl s1) (.ite (rechosen_ocxoLost s1) (rechosen_clocks rfl)))

theorem rechosen_linkFollow (s : State) : Rechosen s (linkFollow s) := by
  unfold linkFollow
  split
  · exact .ite (.refl s) (rechosen_refEval s)
  · exact .refl s

theorem rechosen_masterUpdate (s : State) : Rechosen s (masterUpdate s) :=
  .ite (rechosen_masterChoice s) ((rechosen_masterChoice s).trans (rechosen_linkFollow _))

/-- The best master is the one that the comparison gives (R219). -/
theorem masterUpdate_best (s : State) : (masterUpdate s).ptp.best = bestMaster s := by
  unfold masterUpdate
  dsimp only
  split
  · exact masterChoice_best s
  · simp [masterChoice_best]

end Sys2Proof.Machine

/-! SUPPORT AND PROOFS. Time synchronisation: Announce, the time-outs, and the messages that are only sent on or discarded
(R210, R218, R219, R228, R256). -/

namespace Sys2Proof.Machine

/-! ### A message that leaves by the other ring port (R218) -/

/-- The state after a message that o gives has left by the other active ring port, if there is one. -/
def sentOn (s : State) (p : Nat) (o : Nat → Output) : State := { s with out := ringOut s p o ++ s.out }

/-- Changes that agree on the port are one change of it. -/
theorem onPtp_congr {p : Nat} {f g : PtpPort → PtpPort} {s : State} (hp : p < s.ptp.ports.length)
    (h : f (ptpAt s p) = g (ptpAt s p)) : onPtp p f s = onPtp p g s := by
  have hget : s.ptp.ports[p]? = some (ptpAt s p) := by simp [ptpAt, List.getD_eq_getElem?_getD, hp]
  unfold onPtp
  rw [updAt_eq_set f hget, updAt_eq_set g hget, h]

/-- The next state of a message that is counted and discarded (R210). -/
theorem ex_done_discarded (s : State) :
    ∃ t, done (ptpDiscard s) = .next t ∧ t.ptp = { s.ptp with discards := satInc s.ptp.discards } ∧
      t = { s with ptp := t.ptp, health := s.settledHealth t, store := s.settledStore t } :=
  ex_done s _ rfl rfl fun t ht => ⟨congrArg State.ptp ht, by rw [ht]; rfl⟩

/-! ### The commands -/

section
variable {s : State} (hl : live s = true)
include hl

theorem exec_followUpTimeout (p : Fin 4) (i : SyncId) :
    exec (.followUpTimeout ⟨p, i⟩) s = done (onPtp p.val (·.dropSync i) s) := if_pos hl

theorem exec_announceReceive (p : Fin 4) (a : Announce) : exec (.announceReceive p a) s = done (announceReceive p.val a s) :=
  if_pos hl

theorem exec_announceReceiptTimeout (p : Fin 4) : exec (.announceReceiptTimeout p) s = done (announceTimeout p.val s) :=
  if_pos hl

theorem exec_noOffsetTimeout : exec .noOffsetTimeout s = done (noOffset s) := if_pos hl

theorem exec_ptpMessageForward (p : Fin 4) (m : PtpOther) :
    exec (.ptpMessageForward p m) s = done (ptpForward p.val m.head m.octets s) := if_pos hl

theorem exec_delayReqReceive (p : Fin 4) (ha : activePort s p.val = true) :
    exec (.delayReqReceive p) s = done (ptpDiscard s) := if_pos ⟨hl, ha⟩

end

/-! ### Announce (R218, R219) -/

/-- The message has been sent on, and the Announce a is among the masters of port p. -/
def announceHeard (p : Nat) (a : Announce) (s : State) : State :=
  onPtp p (fun x => { x with masters := hearMaster a s.time.cyc x.masters })
    (sentOn s p fun q => .ptp q 0xB a.seq a.correction)

theorem announceReceive_of_active {s : State} {p : Nat} (ha : activePort s p = true) (a : Announce) :
    announceReceive p a s =
      if ownDomain s a.head = false then sentOn s p fun q => .ptp q 0xB a.seq a.correction
      else if ptpBad a.head = true then ptpDiscard (sentOn s p fun q => .ptp q 0xB a.seq a.correction)
      else masterUpdate (announceHeard p a s) := by
  unfold announceReceive
  rw [if_neg (by rw [ha]; simp)]
  extract_lets s1
  have h1 : s1 = sentOn s p fun q => .ptp q 0xB a.seq a.correction := by
    unfold s1 sentOn ringOut
    cases otherPort s p <;> rfl
  clear_value s1
  rw [h1, show ownDomain (sentOn s p _) a.head = ownDomain s a.head from rfl]
  simp only [Bool.not_eq_true']
  rfl

/-- The messages sent do not enter the comparison of the masters. -/
theorem bestMaster_announceHeard (p : Nat) (a : Announce) (s : State) :
    bestMaster (announceHeard p a s) =
      bestMaster (onPtp p (fun x => { x with masters := hearMaster a s.time.cyc x.masters }) s) := rfl

/-! ### The receipt time-out of Announces (R219, R256) -/

/-- The records that a receipt time-out leaves of those of a port. -/
def mastersLeft (s : State) (l : List Foreign) : List Foreign :=
  if l.any (ofBest s) then l.filter (fun m => !ofBest s m) else l.filter (heardNow s)

theorem announceTimeout_of_heard {s : State} {p : Nat} (h : announcedNow s p = true) : announceTimeout p s = s := if_pos h

theorem announceTimeout_of_silent {s : State} {p : Nat} (h : announcedNow s p = false) :
    announceTimeout p s = masterUpdate (onPtp p (fun x => { x with masters := mastersLeft s x.masters }) s) :=
  if_neg (by rw [h]; simp)

/-- No record of the best master is left. -/
theorem not_ofBest_of_mem_mastersLeft {s : State} {l : List Foreign} {m : Foreign} (hm : m ∈ mastersLeft s l) :
    ofBest s m = false := by
  unfold mastersLeft at hm
  split at hm
  next => simpa using (List.mem_filter.mp hm).2
  next hnone =>
    have hmem := (List.mem_filter.mp hm).1
    simpa using fun hbest => hnone (List.any_eq_true.mpr ⟨m, hmem, hbest⟩)

/-- A record heard in the engine cycle in progress is left, where none of the best master is among them (R256). -/
theorem mem_mastersLeft_of_heard {s : State} {p : Nat} {m : Foreign} (hsilent : announcedNow s p = false)
    (hm : m ∈ (ptpAt s p).masters) (hheard : heardNow s m = true) : m ∈ mastersLeft s (ptpAt s p).masters := by
  have hother : ofBest s m = false := by
    unfold announcedNow at hsilent
    have hnot := List.any_eq_false.mp hsilent m hm
    rw [hheard] at hnot
    simpa using hnot
  unfold mastersLeft
  split
  · exact List.mem_filter.mpr ⟨hm, by rw [hother]; rfl⟩
  · exact List.mem_filter.mpr ⟨hm, hheard⟩

theorem ofBest_of_best {s : State} {b : Announce} (h : s.ptp.best = some b) (m : Foreign) :
    ofBest s m = decide (m.data.parent = b.parent) := by
  unfold ofBest
  rw [h]

/-! ### The absence of offsets (R228) -/

theorem testBit_add_two_pow {n i : Nat} (h : n.testBit i = false) : (n + 2 ^ i).testBit i = true := by
  rw [Nat.add_comm, Nat.testBit_two_pow_add_eq, h]
  rfl

/-- A cause that is set stands, from UNSET on. -/
theorem setCause_sets {i : Nat} {s : State} (hq : s.time.quality ≠ 0) : (setCause i s).ptp.cause.testBit i = true := by
  unfold setCause
  split
  next h => exact h.resolve_left hq
  next h =>
    have hnot : s.ptp.cause.testBit i = false := by simpa using (not_or.mp h).2
    have hkept : (if held s then s else enterHoldover (decide (i = 6)) s).ptp.cause = s.ptp.cause := by split <;> rfl
    extract_lets s1 ptp s2 ptp2 s3
    have h3 : s3.ptp.cause.testBit i = true := by
      have hsum : s3.ptp.cause = s1.ptp.cause + 2 ^ i := by unfold s3; split <;> rfl
      rw [hsum, show s1.ptp.cause = s.ptp.cause from hkept]
      exact testBit_add_two_pow hnot
    split <;> exact h3

/-- The first cause begins holdover (R227, R229). -/
theorem setCause_enters {i : Nat} {s : State} (hq : s.time.quality ≠ 0) (hfree : held s = false) (h4 : i ≠ 4) (h5 : i ≠ 5) :
    (setCause i s).time.quality = 3 ∧ (setCause i s).ptp.holdStart = s.time.cycTw := by
  have hcause : s.ptp.cause = 0 := by
    unfold held at hfree
    simpa using (Bool.or_eq_false_iff.mp hfree).1
  unfold setCause
  rw [if_neg (by rw [hcause]; simpa using hq)]
  simp only [hfree, h4, h5]
  exact ⟨rfl, rfl⟩

/-- No offset has come for 4·τ. -/
def offsetsSilent (s : State) : State := { missOffset s with ptp := { (missOffset s).ptp with silent := true } }

theorem noOffset_of_best {s : State} {b : Announce} (h : s.ptp.best = some b) : noOffset s = setCause 1 (offsetsSilent s) :=
  if_pos (by rw [h]; rfl)

/-! ### Signaling and Management (R210, R218) -/

theorem ptpForward_of_active {s : State} {p : Nat} (ha : activePort s p = true) (h : PtpHead) (octets : List Nat) :
    ptpForward p h octets s =
      if ownDomain s h = true ∧ ptpBad h = true then ptpDiscard (sentOn s p fun q => .forward q octets)
      else sentOn s p fun q => .forward q octets := by
  unfold ptpForward
  rw [if_pos ha]
  extract_lets s1
  have h1 : s1 = sentOn s p fun q => .forward q octets := by
    unfold s1 sentOn ringOut
    cases otherPort s p <;> rfl
  clear_value s1
  rw [h1, show ownDomain (sentOn s p _) h = ownDomain s h from rfl]

/-- Settles O39: each command changes the masters, the causes or what leaves; the choice of the best master comes last. -/
theorem mastersAndTimeouts : Obligations.MastersAndTimeouts := by
  unfold Obligations.MastersAndTimeouts
  refine fun s p hl hp => ⟨fun i => ?_, fun a ha => ?_, fun hheard => ?_, fun hsilent => ?_, fun b hb hq => ?_,
    fun h octets ha => ?_, fun ha => ?_⟩
  · rw [exec_followUpTimeout hl]
    refine ex_done s _ rfl rfl fun t ht => ?_
    have hports : t.ptp.ports = (onPtp p.val (·.dropSync i) s).ptp.ports := by rw [ht]
    refine ⟨(ptpAt_congr hports _).trans (ptpAt_onPtp_same _ _ s hp), fun j hj => ?_, by rw [ht]; rfl⟩
    exact (ptpAt_congr hports j).trans (ptpAt_onPtp_other _ s hj)
  · rw [exec_announceReceive hl, announceReceive_of_active ha]
    split
    next hd =>
      refine ex_done s _ rfl rfl fun t ht => ⟨?_, by simp [hd], by simp [hd], by rw [ht]; rfl⟩
      rw [ht]; rfl
    next hd =>
      split
      next hbad =>
        refine ex_done s _ rfl rfl fun t ht => ⟨?_, fun _ _ => ?_, by simp [hbad], by rw [ht]; rfl⟩
        · rw [ht]; rfl
        · rw [ht]; rfl
      next hgood =>
        refine ex_done_rechosen (rechosen_masterUpdate (announceHeard p.val a s)) fun t hptp hports hframe =>
          ⟨?_, fun _ hbad => absurd hbad hgood, fun _ _ => ⟨?_, ?_⟩, ?_⟩
        · rw [hframe]; rfl
        · rw [hports p.val]
          exact congrArg PtpPort.masters (ptpAt_onPtp_same p.val _ (sentOn s p.val _) hp)
        · rw [hptp, masterUpdate_best, bestMaster_announceHeard]
        · rw [hframe]; rfl
  · rw [exec_announceReceiptTimeout hl, announceTimeout_of_heard hheard]
    exact ex_done s s rfl rfl fun t ht => ht
  · rw [exec_announceReceiptTimeout hl, announceTimeout_of_silent hsilent]
    refine ex_done_rechosen (rechosen_masterUpdate _) fun t hptp hports hframe => ?_
    have hleft : (ptpAt t p.val).masters = mastersLeft s (ptpAt s p.val).masters := by
      rw [hports p.val]
      exact congrArg PtpPort.masters (ptpAt_onPtp_same p.val _ s hp)
    refine ⟨?_, fun b hb m hm => ?_, fun m hm hheard => ?_, hframe⟩
    · rw [hptp, masterUpdate_best, hleft]
      exact congrArg bestMaster (onPtp_congr hp rfl)
    · have hother := not_ofBest_of_mem_mastersLeft (hleft ▸ hm)
      rw [ofBest_of_best hb] at hother
      simpa using hother
    · rw [hleft]
      exact mem_mastersLeft_of_heard hsilent hm hheard
  · rw [exec_noOffsetTimeout hl, noOffset_of_best hb]
    have hsteer : Steered (offsetsSilent s) (setCause 1 (offsetsSilent s)) := steered_setCause 1 _
    have hset := setCause_sets (i := 1) (s := offsetsSilent s) hq
    have henter := setCause_enters (i := 1) (s := offsetsSilent s) hq
    generalize setCause 1 (offsetsSilent s) = x at hsteer hset henter ⊢
    unfold Steered at hsteer
    refine ex_done_pennants (s := s) (congrArg State.health hsteer :) (congrArg State.store hsteer :) fun t ht =>
      ⟨?_, ?_, ?_, fun hfree => ?_, ?_⟩
    · rw [ht]; exact hset
    · rw [ht, hsteer]; rfl
    · rw [ht, hsteer]; rfl
    · rw [ht]; exact henter hfree (by decide) (by decide)
    · rw [ht, hsteer]; rfl
  · rw [exec_ptpMessageForward hl]
    rw [ptpForward_of_active ha]
    split
    · exact ex_done s _ rfl rfl fun t ht => ⟨by rw [ht]; rfl, by rw [ht]; rfl, by rw [ht]; rfl⟩
    · exact ex_done s _ rfl rfl fun t ht => ⟨by rw [ht]; rfl, by rw [ht]; rfl, by rw [ht]; rfl⟩
  · rw [exec_delayReqReceive hl p ha]
    exact ex_done_discarded s

end Sys2Proof.Machine

/-! SUPPORT AND PROOFS. Time synchronisation: the exchanges of peer delay (R210, R212, R215 to R217, R256). -/

namespace Sys2Proof.Machine

/-! ### The commands -/

section
variable {s : State} (hl : live s = true)
include hl

theorem exec_pdelayReqSend (p : Fin 4) (egress : Int) : exec (.pdelayReqSend p egress) s = done (pdelaySend p.val egress s) :=
  if_pos hl

theorem exec_pdelayReqReceive (p : Fin 4) (h : PeerHead) (ingress egress : Int) :
    exec (.pdelayReqReceive p h ingress egress) s = done (pdelayAnswer p.val h.head h.seq ingress egress s) := if_pos hl

theorem exec_pdelayRespReceive (p : Fin 4) (m : PdelayResp) :
    exec (.pdelayRespReceive p m) s = done (pdelayResp p.val m s) := if_pos hl

theorem exec_pdelayRespFollowUpReceive (p : Fin 4) (h : PeerHead) (origin correction : Int) :
    exec (.pdelayRespFollowUpReceive p h origin correction) s = done (pdelayFollowUp p.val h.head h.seq origin correction s) :=
  if_pos hl

theorem exec_pdelayRespTimeout (p : Fin 4) : exec (.pdelayRespTimeout p) s = done (pdelayTimeout p.val s) := if_pos hl

end

/-! ### Messages of peer delay (R210) -/

section
variable {s : State} {p : Nat} {h : PtpHead} (ha : activePort s p = true) (hd : ownDomain s h = true) (f : State → State)
include ha hd

theorem peerMessage_of_bad (hbad : ptpBad h = true) : peerMessage p h f s = ptpDiscard s := by
  unfold peerMessage
  rw [if_neg (by rw [ha, hd]; simp), if_pos hbad]

theorem peerMessage_of_good (hgood : ptpBad h = false) : peerMessage p h f s = f s := by
  unfold peerMessage
  rw [if_neg (by rw [ha, hd]; simp), if_neg (by rw [hgood]; simp)]

end

/-! ### Completed and failed exchanges (R215, R216) -/

/-- A completed exchange, before its delay is judged. -/
def PtpPort.completed (x : PtpPort) : PtpPort := { x with pend := none, resp := none, fails := 0 }

/-- A port after the delay d, one of its sixteen latest. -/
def PtpPort.withDelay (d : Int) (x : PtpPort) : PtpPort :=
  { x with
    delays := (d :: x.delays).take 16
    admitted := min (x.admitted + 1) 16
    rejected := []
    valid := x.valid || decide (16 ≤ x.admitted + 1)
    untested := x.untested - 1 }

/-- A port whose exchange has failed. -/
def PtpPort.fail (x : PtpPort) : PtpPort := { x with pend := none, resp := none, fails := min (x.fails + 1) 3 }

/-- A port whose link delay has become invalid. -/
def PtpPort.invalidate (x : PtpPort) : PtpPort :=
  { x with valid := false, admitted := 0, faults := satInc x.faults, kept := some (roundRat (meanOf x.delays)) }

/-- Two changes of one port are one. -/
theorem onPtp_onPtp (p : Nat) (f g : PtpPort → PtpPort) (s : State) :
    onPtp p g (onPtp p f s) = onPtp p (fun x => g (f x)) s := by
  have hlist (k : Nat) (l : List PtpPort) : updAt g k (updAt f k l) = updAt (fun x => g (f x)) k l := by
    induction l generalizing k with
    | nil => simp [updAt]
    | cons a l ih =>
      cases k with
      | zero => rfl
      | succ k => exact congrArg (List.cons a) (ih k)
  unfold onPtp
  exact congrArg (fun l => { s with ptp := { s.ptp with ports := l } }) (hlist p s.ptp.ports)

/-- From s to x port p has become f of itself, and a new choice of the master may have followed. -/
def PortActed (s : State) (p : Nat) (f : PtpPort → PtpPort) (x : State) : Prop := Rechosen (onPtp p f s) x

/-- The next state of an event that changes port p, and may make a new choice of the master. -/
theorem PortActed.ex_done {P : State → Prop} {s x : State} {p : Nat} {f : PtpPort → PtpPort} (h : PortActed s p f x)
    (hp : p < s.ptp.ports.length)
    (k : ∀ t, ptpAt t p = { f (ptpAt s p) with sync := (ptpAt t p).sync } →
      t = { s with power := t.power, time := t.time, cal := { s.cal with fromWarm := t.cal.fromWarm }, ptp := t.ptp,
                   clocks := t.clocks, health := s.settledHealth t, store := s.settledStore t } → P t) :
    ∃ t, done x = .next t ∧ P t :=
  ex_done_rechosen h fun t _ hports hframe => k t ((hports p).trans (by rw [ptpAt_onPtp_same p f s hp])) hframe

/-- An exchange that completes while the first sixteen are admitted adds its delay (R215). -/
theorem pdelayComplete_of_untested {s : State} {p : Nat} (hp : p < s.ptp.ports.length) (hfirst : 0 < (ptpAt s p).untested)
    (d : Int) : PortActed s p (fun x => x.completed.withDelay d) (pdelayComplete p d s) := by
  have hport : ptpAt (onPtp p PtpPort.completed s) p = (ptpAt s p).completed := ptpAt_onPtp_same p _ s hp
  have hadmit : pdelayComplete p d s = pdelayAdmit p d (onPtp p PtpPort.completed s) := by
    refine if_pos (.inl ?_)
    exact (congrArg PtpPort.untested hport).symm ▸ hfirst
  have hnew : onPtp p (fun x => { x with
      delays := (d :: x.delays).take 16
      admitted := min ((ptpAt (onPtp p PtpPort.completed s) p).admitted + 1) 16
      rejected := []
      valid := x.valid || decide (16 ≤ (ptpAt (onPtp p PtpPort.completed s) p).admitted + 1)
      untested := x.untested - 1 }) (onPtp p PtpPort.completed s) = onPtp p (fun x => x.completed.withDelay d) s := by
    rw [onPtp_onPtp]
    refine onPtp_congr hp ?_
    rw [hport]
    rfl
  unfold PortActed
  rw [hadmit, ← hnew]
  exact .ite (rechosen_masterUpdate _) (.refl _)

/-- A failed exchange counts, and the third in succession makes a valid link delay invalid (R216). -/
theorem pdelayFail_acts {s : State} {p : Nat} (hp : p < s.ptp.ports.length) :
    PortActed s p (fun x => if 2 ≤ x.fails ∧ x.valid = true then x.fail.invalidate else x.fail) (pdelayFail p s) := by
  have hthird : (min ((ptpAt s p).fails + 1) 3 = 3) = (2 ≤ (ptpAt s p).fails) := propext (by omega)
  have hfail : onPtp p (fun x => { x with pend := none, resp := none, fails := min ((ptpAt s p).fails + 1) 3 }) s
      = onPtp p PtpPort.fail s := onPtp_congr hp rfl
  unfold PortActed pdelayFail
  dsimp only
  simp only [hfail, hthird]
  by_cases hlost : 2 ≤ (ptpAt s p).fails ∧ (ptpAt s p).valid = true
  · rw [if_pos hlost]
    have hboth : onPtp p (fun x => if 2 ≤ x.fails ∧ x.valid = true then x.fail.invalidate else x.fail) s
        = onPtp p PtpPort.invalidate (onPtp p PtpPort.fail s) := by
      rw [onPtp_onPtp]
      exact onPtp_congr hp (if_pos hlost)
    rw [hboth]
    exact rechosen_masterUpdate _
  · rw [if_neg hlost, onPtp_congr hp (if_neg hlost)]
    exact .refl _

/-! ### Requests and responses (R215, R217) -/

section
variable {s : State} {p : Nat}

theorem pdelaySend_of_active (ha : activePort s p = true) (egress : Int) :
    pdelaySend p egress s = sendPeer p 2 (ptpAt s p).nextSeq 0
      (onPtp p (fun x => { x with
        pend := some ((ptpAt s p).nextSeq, instantOut s p egress), resp := none, nextSeq := (ptpAt s p).nextSeq + 1 }) s) :=
  if_pos ha

variable {m : PdelayResp} (ha : activePort s p = true) (hd : ownDomain s m.head = true) (hgood : ptpBad m.head = false)
  {t1 : Int} (hpend : (ptpAt s p).pend = some (m.seq, t1))
include ha hd hgood hpend

/-- The response of the exchange that is open. -/
theorem pdelayResp_of_open :
    pdelayResp p m s =
      if m.twoStep = true then
        onPtp p (fun x => { x with
          pend := none, resp := some (m.seq, t1, instantIn s p m.ingress, m.correction, m.receipt) }) s
      else pdelayComplete p (exchangeDelay t1 (instantIn s p m.ingress) m.correction) s := by
  refine (peerMessage_of_good ha hd _ hgood).trans ?_
  simp only [hpend]
  exact if_neg (fun h => h rfl)

end

/-- The follow-up of the response that waits for it. -/
theorem pdelayFollowUp_of_waiting {s : State} {p : Nat} {h : PtpHead} (ha : activePort s p = true) (hd : ownDomain s h = true)
    (hgood : ptpBad h = false) {seq : BitVec 16} {t1 t4 c t2 : Int} (hresp : (ptpAt s p).resp = some (seq, t1, t4, c, t2))
    (origin correction : Int) :
    pdelayFollowUp p h seq origin correction s =
      pdelayComplete p (exchangeDelay t1 t4 (corrDiff t2 origin + c + correction)) s := by
  refine (peerMessage_of_good ha hd _ hgood).trans ?_
  simp only [hresp, if_true]

/-- Settles O40: a message reaches its handler where R210 lets it, and an exchange completes or fails at its port alone. -/
theorem linkDelays : Obligations.LinkDelays := by
  unfold Obligations.LinkDelays
  refine fun s p hl ha hp => ⟨fun egress => ?_, fun h seq ingress egress hd => ⟨fun hgood => ?_, fun hbad => ?_⟩,
    fun m hd => ⟨fun hbad => ?_, fun t1 hgood hpend => ⟨fun htwo => ?_, fun hone hfirst => ?_⟩⟩,
    fun h seq t1 t4 c t2 origin correction hd => ⟨fun hbad => ?_, fun hgood hresp hfirst => ?_⟩, fun hopen => ?_,
    fun hnone => ?_⟩
  · rw [exec_pdelayReqSend hl, pdelaySend_of_active ha]
    refine ex_done s _ rfl rfl fun t ht => ⟨by rw [ht]; rfl, ?_, fun j hj => ?_, by rw [ht]; rfl⟩
    · exact (ptpAt_congr (congrArg (fun u : State => u.ptp.ports) ht) _).trans (ptpAt_onPtp_same p.val _ s hp)
    · exact (ptpAt_congr (congrArg (fun u : State => u.ptp.ports) ht) j).trans (ptpAt_onPtp_other _ s hj)
  · rw [exec_pdelayReqReceive hl, pdelayAnswer, peerMessage_of_good ha hd _ hgood]
    exact ex_done s _ rfl rfl fun t ht => ⟨by rw [ht]; rfl, by rw [ht]; rfl⟩
  · rw [exec_pdelayReqReceive hl, pdelayAnswer, peerMessage_of_bad ha hd _ hbad]
    exact ex_done_discarded s
  · rw [exec_pdelayRespReceive hl, pdelayResp, peerMessage_of_bad ha hd _ hbad]
    exact ex_done_discarded s
  · rw [exec_pdelayRespReceive hl, pdelayResp_of_open ha hd hgood hpend, if_pos htwo]
    refine ex_done s _ rfl rfl fun t ht => ⟨?_, by rw [ht]; rfl⟩
    exact (ptpAt_congr (congrArg (fun u : State => u.ptp.ports) ht) _).trans (ptpAt_onPtp_same p.val _ s hp)
  · rw [exec_pdelayRespReceive hl, pdelayResp_of_open ha hd hgood hpend, if_neg (by rw [hone]; simp)]
    exact (pdelayComplete_of_untested hp hfirst _).ex_done hp fun t hport hframe =>
      ⟨by rw [hport]; rfl, by rw [hport]; rfl, by rw [hport]; rfl, hframe⟩
  · rw [exec_pdelayRespFollowUpReceive hl, pdelayFollowUp, peerMessage_of_bad ha hd _ hbad]
    exact ex_done_discarded s
  · rw [exec_pdelayRespFollowUpReceive hl, pdelayFollowUp_of_waiting ha hd hgood hresp]
    exact (pdelayComplete_of_untested hp hfirst _).ex_done hp fun t hport hframe =>
      ⟨by rw [hport]; rfl, by rw [hport]; rfl, by rw [hport]; rfl, hframe⟩
  · rw [exec_pdelayRespTimeout hl, show pdelayTimeout p.val s = pdelayFail p.val s from if_pos hopen]
    refine (pdelayFail_acts hp).ex_done hp fun t hport hframe => ?_
    by_cases hlost : 2 ≤ (ptpAt s p.val).fails ∧ (ptpAt s p.val).valid = true
    · rw [if_pos hlost] at hport
      refine ⟨by rw [hport]; rfl, by rw [hport]; rfl, by rw [hport]; rfl, ?_, hframe⟩
      rw [hport, decide_eq_false (Nat.not_lt.mpr hlost.1), Bool.and_false]
      rfl
    · rw [if_neg hlost] at hport
      refine ⟨by rw [hport]; rfl, by rw [hport]; rfl, by rw [hport]; rfl, ?_, hframe⟩
      have hvalid : (ptpAt t p.val).valid = (ptpAt s p.val).valid := by rw [hport]; rfl
      rw [hvalid]
      cases hv : (ptpAt s p.val).valid with
      | false => rfl
      | true => exact (decide_eq_true (Nat.lt_of_not_le fun hmany => hlost ⟨hmany, hv⟩)).symm
  · rw [exec_pdelayRespTimeout hl, show pdelayTimeout p.val s = s from if_neg (by rw [hnone]; simp)]
    exact ex_done s s rfl rfl fun t ht => ht

end Sys2Proof.Machine

/-! SUPPORT AND PROOFS. Time synchronisation: the ring ports, their roles and what a change of them does to the network time
(R215, R280 to R284, Table 16.7). -/

namespace Sys2Proof.Machine

/-! ### What a change of the ring ports changes -/

/-- From s to t ring ports have changed: nothing has but the links, the buffers' rewind, the self-tests of the ports, and what a
new choice of the master or a stopped recovered clock changes. -/
def RingMoved (s t : State) : Prop :=
  t = { s with
    power := t.power
    time := t.time
    cal := { s.cal with fromWarm := t.cal.fromWarm }
    clocks := t.clocks
    link := t.link
    buf := t.buf
    ptp := t.ptp
    health := { s.health with pennants := t.health.pennants, selfTest := t.health.selfTest } }

theorem RingMoved.refl (s : State) : RingMoved s s := rfl

theorem RingMoved.trans {a b c : State} (h : RingMoved a b) (k : RingMoved b c) : RingMoved a c := by
  unfold RingMoved at *; rw [k, h]

theorem RingMoved.ite {s a b : State} {c : Prop} [Decidable c] (ha : RingMoved s a) (hb : RingMoved s b) :
    RingMoved s (if c then a else b) := by
  split
  · exact ha
  · exact hb

theorem Rechosen.ringMoved {s t : State} (h : Rechosen s t) : RingMoved s t := by
  have hs := h.only
  unfold RingMoved
  rw [hs]

/-- The next state of an event that changes ring ports. -/
theorem ex_done_ring {P : State → Prop} {s x : State} (hx : RingMoved s x)
    (h : ∀ t, t.link = x.link →
      t = { s with power := t.power, time := t.time, cal := { s.cal with fromWarm := t.cal.fromWarm }, clocks := t.clocks,
                   link := t.link, buf := t.buf, ptp := t.ptp,
                   health := { s.settledHealth t with selfTest := t.health.selfTest }, store := s.settledStore t } → P t) :
    ∃ t, done x = .next t ∧ P t := by
  have ht : settle x = { x with health := x.settledHealth (settle x), store := x.settledStore (settle x) } := settle_settled x
  generalize hst : settle x = t at ht
  refine ⟨t, congrArg Host.Outcome.next hst, h t (congrArg State.link ht :) ?_⟩
  unfold RingMoved at hx
  rw [ht, hx]
  rfl

/-! ### One ring port after a change -/

theorem portAt_congr {s t : State} (h : t.link.ports = s.link.ports) (j : Nat) : portAt t j = portAt s j := by
  unfold portAt; rw [h]

/-- A reading of the ports that f keeps is kept at every port. -/
theorem portAt_onPort_keeps {β : Type} (r : Port → β) (p j : Nat) {f : Port → Port} (s : State) (h : ∀ x, r (f x) = r x) :
    r (portAt (onPort p f s) j) = r (portAt s j) := by
  have hlist := congrArg (fun l => l.getD j (r .init)) (updAt_map_of_keeps r f p s.link.ports h)
  simp only [List.getD_map] at hlist
  exact hlist

/-- A port with a role is one of the module's. -/
theorem lt_of_role_ne_zero {s : State} {p : Nat} (h : (portAt s p).role ≠ 0) : p < s.link.ports.length := by
  by_contra hout
  refine h ?_
  unfold portAt
  rw [List.getD_eq_default _ _ (Nat.le_of_not_lt hout)]
  rfl

theorem withRole_role (x : Port) (role : Nat) : (x.withRole role).role = role := by
  unfold Port.withRole
  extract_lets y z
  have hz : z.role = role := by unfold z; split <;> rfl
  split <;> exact hz

/-- A role keeps the link of the port up; without one its PCS is gated (R280). -/
theorem withRole_status (x : Port) {role : Nat} (h : role ≠ 0) : (x.withRole role).status = x.status := by
  unfold Port.withRole
  extract_lets y z
  have hz : z.status = x.status := by unfold z; rw [if_neg h]
  split <;> exact hz

/-! ### Break notices (R282) -/

/-- A port without its break notices. -/
def Port.unnoticed (x : Port) : Port := { x with broke := none, breaks := [] }

/-- From s to t break notices have been queued, and nothing else has changed. -/
structure NoticesQueued (s t : State) : Prop where
  only : t = { s with link := t.link }
  port : ∀ j, (portAt t j).unnoticed = (portAt s j).unnoticed

theorem NoticesQueued.refl (s : State) : NoticesQueued s s := ⟨rfl, fun _ => rfl⟩

theorem NoticesQueued.trans {a b c : State} (h : NoticesQueued a b) (k : NoticesQueued b c) : NoticesQueued a c where
  only := by
    have hb := h.only
    have hc := k.only
    rw [hc, hb]
  port j := (k.port j).trans (h.port j)

theorem NoticesQueued.ringMoved {s t : State} (h : NoticesQueued s t) : RingMoved s t := by
  have hs := h.only
  unfold RingMoved
  rw [hs]

theorem NoticesQueued.role_eq {s t : State} (h : NoticesQueued s t) (j : Nat) : (portAt t j).role = (portAt s j).role :=
  (congrArg Port.role (h.port j) :)

theorem noticesQueued_onPort (p : Nat) {f : Port → Port} (s : State) (h : ∀ x, (f x).unnoticed = x.unnoticed) :
    NoticesQueued s (onPort p f s) := ⟨rfl, fun j => portAt_onPort_keeps Port.unnoticed p j s h⟩

theorem noticesQueued_sendBreak (q : Nat) (clear : Bool) (s : State) : NoticesQueued s (sendBreak q clear s) := by
  have hseq : NoticesQueued s { s with link.noticeSeq := s.link.noticeSeq + 1 } := ⟨rfl, fun _ => rfl⟩
  exact hseq.trans (noticesQueued_onPort q _ fun _ => rfl)

theorem noticesQueued_breakSend (p : Nat) (s : State) : NoticesQueued s (breakSend p s) := by
  unfold breakSend
  split
  · exact (noticesQueued_sendBreak ..).trans (noticesQueued_onPort p _ fun _ => rfl)
  · exact .refl s

theorem noticesQueued_breakClear (p : Nat) (s : State) : NoticesQueued s (breakClear p s) := by
  unfold breakClear
  split
  · exact .refl s
  · have hp : NoticesQueued s (onPort p (fun x => { x with broke := none }) s) := noticesQueued_onPort p s fun _ => rfl
    dsimp only
    split
    · exact hp.trans (noticesQueued_sendBreak ..)
    · split
      · exact hp.trans (noticesQueued_sendBreak ..)
      · exact hp

/-! ### The exchange of the roles and the failover (R283) -/

/-- A port after the exchange of the roles of the up port and the alternate port. -/
def Port.exchanged (x : Port) : Port := { x with role := if x.role = 1 then 2 else if x.role = 2 then 1 else x.role }

theorem portAt_exchangeRoles (s : State) (j : Nat) : portAt (exchangeRoles s) j = (portAt s j).exchanged :=
  List.getD_map (f := Port.exchanged) (d := Port.init) ..

theorem rewind_only (s : State) :
    rewind s = { s with
      link := { s.link with creditUsed := (rewind s).link.creditUsed }
      buf := { s.buf with retx := (oldestUnacked s).map Entered.ssn } } := by
  unfold rewind
  cases oldestUnacked s <;> rfl

theorem ringMoved_rewind (s : State) : RingMoved s (rewind s) := by
  have h := rewind_only s
  unfold RingMoved
  rw [h]

theorem rewind_ports (s : State) : (rewind s).link.ports = s.link.ports :=
  (congrArg (fun t : State => t.link.ports) (rewind_only s) :)

/-- Some port holds the alternate role. -/
def State.hasAlternate (s : State) : Bool := (List.range 4).any fun p => decide ((portAt s p).role = 2)

theorem hasAlternate_iff (s : State) : s.hasAlternate = true ↔ ∃ q < 4, (portAt s q).role = 2 := by
  simp [State.hasAlternate]

theorem hasAlternate_eq_false {s : State} (h : ∀ q < 4, (portAt s q).role ≠ 2) : s.hasAlternate = false :=
  Bool.eq_false_iff.mpr fun hsome =>
    have ⟨q, hq, hrole⟩ := (hasAlternate_iff s).mp hsome
    h q hq hrole

theorem hasAlternate_congr {s t : State} (h : ∀ j, (portAt t j).role = (portAt s j).role) :
    t.hasAlternate = s.hasAlternate := by
  simp only [State.hasAlternate, h]

theorem failover_of_alternate {s : State} (h : s.hasAlternate = true) : failover s = rewind (exchangeRoles s) := if_pos h

theorem failover_of_none {s : State} (h : s.hasAlternate = false) : failover s = s :=
  if_neg (by rw [← Bool.not_eq_true] at h; exact h)

theorem ringMoved_failover (s : State) : RingMoved s (failover s) := by
  have hexchange : RingMoved s (exchangeRoles s) := rfl
  exact .ite (hexchange.trans (ringMoved_rewind _)) (.refl s)

theorem failover_length (s : State) : (failover s).link.ports.length = s.link.ports.length := by
  cases h : s.hasAlternate with
  | false => rw [failover_of_none h]
  | true =>
    rw [failover_of_alternate h, rewind_ports]
    exact List.length_map _

theorem portAt_failover (s : State) (j : Nat) :
    portAt (failover s) j = if s.hasAlternate = true then (portAt s j).exchanged else portAt s j := by
  cases h : s.hasAlternate with
  | false =>
    rw [failover_of_none h]
    rfl
  | true => rw [failover_of_alternate h, portAt_congr (rewind_ports _), portAt_exchangeRoles, if_pos rfl]

/-! ### A stopped source (R374, R378, R379, R389) -/

theorem rechosen_onSrc (src : Source) (f : SrcState → SrcState) (s : State) : Rechosen s (onSrc src f s) := by
  cases src <;> exact rechosen_clocks rfl

theorem rechosen_ocxoStopped (s : State) : Rechosen s (ocxoStopped s) := ⟨rfl, fun _ => rfl⟩

theorem rechosen_refRestart (s : State) : Rechosen s (refRestart s) := by
  have hstill : Rechosen s { s with clocks.switching := none } := rechosen_clocks rfl
  exact .ite (hstill.trans (rechosen_ocxoLost _)) (.ite hstill (rechosen_clocks rfl))

theorem rechosen_sourceStop (src : Source) (s : State) : Rechosen s (sourceStop src s) := by
  unfold sourceStop
  extract_lets stopped clocks s1 s2 s3
  have hcount : Rechosen stopped s1 := ⟨rfl, fun _ => rfl⟩
  have h1 : Rechosen s s1 := (rechosen_onSrc src _ s).trans hcount
  have h2 : Rechosen s1 s2 := .ite (rechosen_ocxoStopped s1) (.refl s1)
  have h3 : Rechosen s s3 := (h1.trans h2).trans (.ite (rechosen_ocxoLost s2) (.refl s2))
  refine .ite (.refl s) ?_
  split
  · exact h3.trans (.ite (rechosen_refRestart s3) (.ite (rechosen_clocks rfl) (.refl s3)))
  · exact h3.trans (.ite (rechosen_refRestart s3) (.refl s3))

/-! ### The commands -/

section
variable {s : State} (hl : live s = true)
include hl

theorem exec_breakNoticeReceive (p : Fin 4) (detector : BitVec 20) (clear : Bool) (seq : BitVec 32) :
    exec (.breakNoticeReceive p detector clear seq) s = done (breakReceive p.val clear s) := if_pos hl

theorem exec_portLocalFault (p : Fin 4) : exec (.portLocalFault p) s = done (localFault p.val s) := if_pos hl

theorem exec_portLinkReturn (p : Fin 4) : exec (.portLinkReturn p) s = done (linkReturn p.val s) := if_pos hl

theorem exec_portPromote (p : Fin 4) : exec (.portPromote p) s = done (promote p.val s) := if_pos hl

theorem exec_portRevert : exec .portRevert s = done (revert s) := if_pos hl

end

/-! ### Break notices (R283) -/

/-- A break at the up port is a failover where there is an alternate port; no other notice changes anything. -/
theorem breakReceive_cases (s : State) (p : Nat) (clear : Bool) :
    (((portAt s p).role = 1 ∧ clear = false ∧ s.hasAlternate = true) ∧ breakReceive p clear s = rewind (exchangeRoles s)) ∨
    (¬((portAt s p).role = 1 ∧ clear = false ∧ s.hasAlternate = true) ∧ breakReceive p clear s = s) := by
  unfold breakReceive
  by_cases hbreak : (portAt s p).role = 1 ∧ clear = false
  · rw [if_pos (by rw [hbreak.2]; exact ⟨hbreak.1, rfl⟩)]
    cases halt : s.hasAlternate with
    | true => exact .inl ⟨⟨hbreak.1, hbreak.2, rfl⟩, failover_of_alternate halt⟩
    | false => exact .inr ⟨fun h => absurd h.2.2 (by decide), failover_of_none halt⟩
  · exact .inr ⟨fun h => hbreak ⟨h.1, h.2.1⟩, if_neg (by simpa using hbreak)⟩

/-! ### Local faults (R281 to R283) -/

/-- A port whose link has just failed, at local time pt. -/
def Port.fallen (pt : Nat) (x : Port) : Port :=
  { x with status := false, faults := satInc x.faults, downFrom := some pt, upFrom := none }

/-- The link of port p is down, and its self-test is due anew (R400). -/
def portFallen (p : Nat) (s : State) : State :=
  let t := onPort p (Port.fallen s.time.pt) s
  { t with health.selfTest := updAt (fun x => { x with tested := false }) p s.health.selfTest }

/-- What the ring makes of the fault of a port of role `role`: the notice, and the failover of the up port. -/
def ringFault (p role : Nat) (s : State) : State := if role = 1 then failover (breakSend p s) else breakSend p s

theorem localFault_of_up {s : State} {p : Fin 4} (hup : (portAt s p.val).status = true) :
    localFault p.val s =
      if (portAt s p.val).role = 1 ∨ (portAt s p.val).role = 2 then
        masterUpdate (onPtp p.val (fun x => { x with sync := [] })
          (ringFault p.val (portAt s p.val).role (sourceStop (.recovered p) (portFallen p.val s))))
      else sourceStop (.recovered p) (portFallen p.val s) := by
  unfold localFault
  rw [if_neg (by rw [hup]; simp)]
  simp only [dif_pos p.isLt]
  rfl

theorem ringMoved_portFallen (p : Nat) (s : State) : RingMoved s (portFallen p s) := rfl

theorem ringMoved_ringFault (p role : Nat) (s : State) : RingMoved s (ringFault p role s) :=
  have hsend := (noticesQueued_breakSend p s).ringMoved
  .ite (hsend.trans (ringMoved_failover _)) hsend

theorem ringMoved_localFault {s : State} {p : Fin 4} (hup : (portAt s p.val).status = true) :
    RingMoved s (localFault p.val s) := by
  have hstop : RingMoved s (sourceStop (.recovered p) (portFallen p.val s)) :=
    (ringMoved_portFallen p.val s).trans (rechosen_sourceStop ..).ringMoved
  have hsync (x : State) : RingMoved x (onPtp p.val (fun x => { x with sync := [] }) x) := rfl
  rw [localFault_of_up hup]
  exact .ite (((hstop.trans (ringMoved_ringFault ..)).trans (hsync _)).trans (rechosen_masterUpdate _).ringMoved) hstop

/-- The port after its fault, but for its break notices: the up port gives its role to the alternate port, if there is one. -/
theorem localFault_port {s : State} {p : Fin 4} (hp : p.val < s.link.ports.length) (hup : (portAt s p.val).status = true) :
    (portAt (localFault p.val s) p.val).unnoticed =
      (if (portAt s p.val).role = 1 ∧ s.hasAlternate = true then ((portAt s p.val).fallen s.time.pt).exchanged
       else (portAt s p.val).fallen s.time.pt).unnoticed := by
  have hfallen : portAt (sourceStop (.recovered p) (portFallen p.val s)) p.val = (portAt s p.val).fallen s.time.pt := by
    refine (portAt_congr (congrArg Link.ports (rechosen_sourceStop ..).link_eq) _).trans ?_
    exact portAt_onPort_same p.val _ s hp
  have hrole (j : Nat) : (portAt (sourceStop (.recovered p) (portFallen p.val s)) j).role = (portAt s j).role := by
    rw [portAt_congr (congrArg Link.ports (rechosen_sourceStop ..).link_eq) j]
    exact portAt_onPort_keeps Port.role p.val j s fun _ => rfl
  rw [localFault_of_up hup]
  generalize sourceStop (.recovered p) (portFallen p.val s) = y at hfallen hrole ⊢
  have hsend := noticesQueued_breakSend p.val y
  have halt : (breakSend p.val y).hasAlternate = s.hasAlternate :=
    hasAlternate_congr fun j => (hsend.role_eq j).trans (hrole j)
  have hring : (portAt (ringFault p.val (portAt s p.val).role y) p.val).unnoticed =
      (if (portAt s p.val).role = 1 ∧ s.hasAlternate = true then ((portAt s p.val).fallen s.time.pt).exchanged
       else (portAt s p.val).fallen s.time.pt).unnoticed := by
    unfold ringFault
    rw [← hfallen]
    by_cases h1 : (portAt s p.val).role = 1
    · simp only [h1, if_true, true_and, portAt_failover, halt]
      split
      · exact congrArg Port.exchanged (hsend.port p.val)
      · exact hsend.port p.val
    · simp only [h1, if_false, false_and]
      exact hsend.port p.val
  by_cases hmember : (portAt s p.val).role = 1 ∨ (portAt s p.val).role = 2
  · rw [if_pos hmember, portAt_congr (congrArg Link.ports (rechosen_masterUpdate _).link_eq) p.val]
    exact hring
  · rw [if_neg hmember, if_neg fun h => hmember (.inl h.1), hfallen]

/-- What the statements read of the port after its fault. -/
theorem localFault_reads {s : State} {p : Fin 4} (hp : p.val < s.link.ports.length) (hup : (portAt s p.val).status = true) :
    let x := portAt (localFault p.val s) p.val
    x.status = false ∧ x.faults = satInc (portAt s p.val).faults ∧ x.downFrom = some s.time.pt ∧
    x.role = if (portAt s p.val).role = 1 ∧ s.hasAlternate = true then 2 else (portAt s p.val).role := by
  intro x
  have hport : x.unnoticed = _ := localFault_port hp hup
  split at hport
  next h =>
    refine ⟨(congrArg Port.status hport :), (congrArg Port.faults hport :), (congrArg Port.downFrom hport :), ?_⟩
    exact (congrArg Port.role hport).trans ((if_pos h.1).trans (if_pos h).symm)
  next h =>
    refine ⟨(congrArg Port.status hport :), (congrArg Port.faults hport :), (congrArg Port.downFrom hport :), ?_⟩
    exact (congrArg Port.role hport).trans (if_neg h).symm

/-! ### A link that returns (R215, R282) -/

/-- A port whose link has just returned, at local time pt. -/
def Port.risen (pt : Nat) (x : Port) : Port := { x with status := true, downFrom := none, upFrom := some pt }

/-- The link of port p is up, its PTP begins anew, and the notice that ends its break is queued. -/
def portRisen (p : Nat) (s : State) : State := breakClear p (ptpFresh p (onPort p (Port.risen s.time.pt) s))

theorem linkReturn_acts {s : State} {p : Nat} (hdown : (portAt s p).status = false) (hrole : (portAt s p).role ≠ 0) :
    Rechosen (portRisen p s) (linkReturn p s) := by
  unfold linkReturn
  rw [if_neg (by rw [hdown]; simpa using hrole)]
  exact .ite (.refl _) (rechosen_masterUpdate _)

theorem portRisen_only (p : Nat) (s : State) :
    portRisen p s = { s with link := (portRisen p s).link, ptp := (ptpFresh p s).ptp } :=
  (noticesQueued_breakClear p (ptpFresh p (onPort p (Port.risen s.time.pt) s))).only

theorem portRisen_port {p : Nat} {s : State} (hp : p < s.link.ports.length) :
    (portAt (portRisen p s) p).unnoticed = ((portAt s p).risen s.time.pt).unnoticed := by
  refine ((noticesQueued_breakClear p _).port p).trans (congrArg Port.unnoticed ?_)
  exact portAt_onPort_same p (Port.risen s.time.pt) s hp

/-! ### Promotion of the standby port (R284) -/

/-- The standby port is up and has the standby role. -/
theorem standby_spec {s : State} {n : Nat} (h : standby s = some n) : (portAt s n).role = 3 ∧ (portAt s n).status = true := by
  have hn := List.find?_some h
  simp only [Bool.and_eq_true, decide_eq_true_eq] at hn
  exact ⟨hn.1.2, hn.2⟩

/-- Port n takes the role `up` of port p, which becomes standby. -/
def rolesMoved (p n up : Nat) (s : State) : State := onPort n (·.withRole up) (onPort p (·.withRole 3) s)

/-- Port n, in the place of port p, ends its self-test (R400) and begins PTP anew. -/
def portTaken (p n up : Nat) (s : State) : State :=
  let y := if up = 1 then rewind (rolesMoved p n up s) else rolesMoved p n up s
  let stop (t : SelfTest) : SelfTest :=
    if t.running ∨ t.retry then { t with running := false, retry := false, last := some y.time.tw } else t
  ptpFresh n { y with health.selfTest := updAt stop n y.health.selfTest }

/-- The roles once the up port, if port p is it, has given its role away. -/
def rolesGiven (p : Nat) (s : State) : State := if (portAt s p).role = 1 then failover s else s

theorem promote_of_down {s : State} {p n : Nat} (hn : standby s = some n) (hdown : (portAt s p).status = false)
    (hring : (portAt s p).role = 1 ∨ (portAt s p).role = 2) :
    promote p s = masterUpdate (portTaken p n (portAt (rolesGiven p s) p).role (rolesGiven p s)) := by
  unfold promote
  simp only [hn]
  refine if_neg fun h => ?_
  rcases h with hup | ⟨hno1, hno2⟩
  · rw [hdown] at hup
    exact absurd hup (by decide)
  · exact hring.elim hno1 hno2

theorem ringMoved_portTaken (p n up : Nat) (s : State) : RingMoved s (portTaken p n up s) := by
  unfold portTaken
  extract_lets y stop health
  have hroles : RingMoved s (rolesMoved p n up s) := rfl
  have hy : RingMoved s y := .ite (hroles.trans (ringMoved_rewind _)) hroles
  exact hy.trans rfl

theorem ringMoved_promote {s : State} {p n : Nat} (hn : standby s = some n) (hdown : (portAt s p).status = false)
    (hring : (portAt s p).role = 1 ∨ (portAt s p).role = 2) : RingMoved s (promote p s) := by
  have hgiven : RingMoved s (rolesGiven p s) := .ite (ringMoved_failover s) (.refl s)
  rw [promote_of_down hn hdown hring]
  exact (hgiven.trans (ringMoved_portTaken ..)).trans (rechosen_masterUpdate _).ringMoved

theorem portTaken_ports (p n up : Nat) (s : State) : (portTaken p n up s).link.ports = (rolesMoved p n up s).link.ports := by
  unfold portTaken
  extract_lets y stop health
  have hy : y.link.ports = (rolesMoved p n up s).link.ports := by
    unfold y
    split
    · exact rewind_ports _
    · rfl
  exact hy

/-- A promotion leaves the replaced port standby and gives its role to the promoted port, whose link stays up. -/
theorem promote_ports {s : State} {p n : Nat} (hp : p < s.link.ports.length) (hn : standby s = some n)
    (hdown : (portAt s p).status = false) (hring : (portAt s p).role = 1 ∨ (portAt s p).role = 2) :
    (portAt (promote p s) p).role = 3 ∧ (portAt (promote p s) n).status = true ∧
    (portAt (promote p s) n).role = if (portAt s p).role = 1 ∧ s.hasAlternate = false then 1 else 2 := by
  obtain ⟨hrole, hup⟩ := standby_spec hn
  have hpn : p ≠ n := fun h => by rw [h] at hring; omega
  have hlen : (rolesGiven p s).link.ports.length = s.link.ports.length := by
    unfold rolesGiven
    split
    · exact failover_length s
    · rfl
  have hup' : (portAt (rolesGiven p s) n).status = true := by
    unfold rolesGiven
    split
    · rw [portAt_failover]
      split <;> exact hup
    · exact hup
  have hgiven : (portAt (rolesGiven p s) p).role = if (portAt s p).role = 1 ∧ s.hasAlternate = false then 1 else 2 := by
    unfold rolesGiven
    rcases hring with h1 | h2
    · rw [if_pos h1, portAt_failover]
      cases s.hasAlternate <;> simp [h1, Port.exchanged]
    · simp [h2]
  rw [promote_of_down hn hdown hring]
  generalize hr : (portAt (rolesGiven p s) p).role = r at hgiven
  have hr0 : r ≠ 0 := by rw [hgiven]; split <;> decide
  have hports (j : Nat) :
      portAt (masterUpdate (portTaken p n r (rolesGiven p s))) j = portAt (rolesMoved p n r (rolesGiven p s)) j :=
    portAt_congr ((congrArg Link.ports (rechosen_masterUpdate _).link_eq).trans (portTaken_ports ..)) j
  have hn' : portAt (rolesMoved p n r (rolesGiven p s)) n = (portAt (rolesGiven p s) n).withRole r := by
    refine (portAt_onPort_same n _ _ ?_).trans (congrArg (·.withRole r) (portAt_onPort_other p n _ _ hpn.symm))
    rw [onPort_link, updAt_length, hlen]
    exact lt_of_role_ne_zero (by rw [hrole]; decide)
  have hp' : portAt (rolesMoved p n r (rolesGiven p s)) p = (portAt (rolesGiven p s) p).withRole 3 :=
    (portAt_onPort_other n p _ _ hpn).trans (portAt_onPort_same p _ _ (hlen ▸ hp))
  rw [hports, hports, hn', hp', withRole_role, withRole_role, withRole_status _ hr0]
  exact ⟨rfl, hup', hgiven⟩

/-! ### Reversion to the port of rank 1 (R284) -/

/-- The first wired port of rank 1. -/
def rankOne (s : State) : Option Nat := (List.range 4).find? fun p => wired s p && decide (cfgAt s 0x4901 p = 1)

theorem rankOne_eq {s : State} (p : Fin 4) (hw : wired s p.val = true) (hrank : cfgAt s 0x4901 p.val = 1)
    (hfirst : ∀ j < p.val, wired s j = false ∨ cfgAt s 0x4901 j ≠ 1) : rankOne s = some p.val := by
  unfold rankOne
  rw [List.find?_range_eq_some]
  refine ⟨by simp [hw, hrank], List.mem_range.mpr p.isLt, fun j hj => ?_⟩
  rcases hfirst j hj with h | h <;> simp [h]

/-- Own traffic may return to port p: reversion is on, and its link is up. -/
def State.Reverts (s : State) (p : Nat) : Prop := cfgBool s 0x4909 0 = true ∧ (portAt s p).status = true

/-- Port p of rank 1 takes the up role of port u, which becomes standby, and begins PTP anew. -/
def portReturned (p u : Nat) (s : State) : State := ptpFresh p (onPort p (·.withRole 1) (onPort u (·.withRole 3) s))

/-- What a reversion to port p does: an alternate port exchanges its role with the up port, a replaced one takes it, and
elsewhere nothing changes. -/
theorem revert_cases {s : State} {p : Nat} (hfind : rankOne s = some p) :
    (s.Reverts p ∧ (portAt s p).role = 2 ∧ revert s = exchangeRoles s) ∨
    (∃ u, s.Reverts p ∧ (portAt s p).role = 3 ∧ upPort s = some u ∧ revert s = masterUpdate (portReturned p u s)) ∨
    ((s.Reverts p → (portAt s p).role ≠ 2 ∧ ((portAt s p).role = 3 → upPort s = none)) ∧ revert s = s) := by
  unfold revert
  rw [show (List.range 4).find? _ = some p from hfind]
  by_cases hback : s.Reverts p
  · have hgo : ¬((!cfgBool s 0x4909 0) = true ∨ (!(portAt s p).status) = true) := by simp [hback.1, hback.2]
    by_cases h2 : (portAt s p).role = 2
    · exact .inl ⟨hback, h2, (if_neg hgo).trans (if_pos h2)⟩
    · by_cases h3 : (portAt s p).role = 3
      · cases hu : upPort s with
        | some u => exact .inr (.inl ⟨u, hback, h3, rfl, (if_neg hgo).trans ((if_neg h2).trans (if_pos h3))⟩)
        | none => exact .inr (.inr ⟨fun _ => ⟨h2, fun _ => rfl⟩, (if_neg hgo).trans ((if_neg h2).trans (if_pos h3))⟩)
      · exact .inr (.inr ⟨fun _ => ⟨h2, fun h => absurd h h3⟩, (if_neg hgo).trans ((if_neg h2).trans (if_neg h3))⟩)
  · refine .inr (.inr ⟨fun h => absurd h hback, if_pos ?_⟩)
    by_contra hno
    simp only [not_or, Bool.not_eq_true', Bool.not_eq_false] at hno
    exact hback hno

theorem upPort_role {s : State} {u : Nat} (h : upPort s = some u) : (portAt s u).role = 1 := by
  simpa using List.find?_some h

/-- The port of rank 1 and the up port after the reversion. -/
theorem portReturned_roles {s : State} {p u : Nat} (h3 : (portAt s p).role = 3) (hu : upPort s = some u)
    (hp : p < s.link.ports.length) :
    (portAt (portReturned p u s) p).role = 1 ∧ (portAt (portReturned p u s) u).role = 3 := by
  have hports (j : Nat) : portAt (portReturned p u s) j = portAt (onPort p (·.withRole 1) (onPort u (·.withRole 3) s)) j := rfl
  have h1 := upPort_role hu
  have hpu : u ≠ p := fun h => by rw [h, h3] at h1; exact absurd h1 (by decide)
  constructor
  · rw [hports, portAt_onPort_same p _ _ (by simpa using hp), withRole_role]
  · have hlt : u < s.link.ports.length := lt_of_role_ne_zero (by rw [h1]; decide)
    rw [hports, portAt_onPort_other p u _ _ hpu, portAt_onPort_same u _ _ hlt, withRole_role]

/-- Settles O49: each command gives the ports their roles, and then the network time its choice of the master. -/
theorem ringPortsChange : Obligations.RingPortsChange := by
  unfold Obligations.RingPortsChange
  refine fun s p hl hp => ⟨fun detector seq clear => ?_, fun hup => ?_, fun hdown hrole => ?_, fun n hn hdown hring => ?_,
    fun hw hrank hfirst => ?_⟩
  · rw [exec_breakNoticeReceive hl]
    rcases breakReceive_cases s p.val clear with ⟨⟨hup, hclear, halt⟩, hx⟩ | ⟨hnone, hx⟩
    · have hr := rewind_only (exchangeRoles s)
      rw [hx]
      refine ex_done s _ (congrArg State.health hr :) (congrArg State.store hr :) fun t ht =>
        ⟨fun _ _ _ => ⟨by rw [ht, hr], by rw [ht, hr]; rfl⟩, fun hno => ?_, by rw [ht, hr]; rfl⟩
      rcases hno with h | h | h
      · exact absurd hup h
      · exact absurd (h.symm.trans hclear) (by decide)
      · exact absurd ((hasAlternate_eq_false h).symm.trans halt) (by decide)
    · rw [hx]
      exact ex_done s s rfl rfl fun t ht =>
        ⟨fun hup hclear halt => absurd ⟨hup, hclear, (hasAlternate_iff s).mpr halt⟩ hnone,
          fun _ => ⟨by rw [ht], by rw [ht]⟩, by rw [ht]; rfl⟩
  · rw [exec_portLocalFault hl]
    refine ex_done_ring (ringMoved_localFault hup) fun t hlink hframe => ?_
    obtain ⟨hstatus, hfaults, hdown, hrole⟩ := localFault_reads hp hup
    rw [← portAt_congr (congrArg Link.ports hlink) p.val] at hstatus hfaults hdown hrole
    refine ⟨hstatus, hfaults, hdown, fun halt => ?_, fun halt => ?_, hframe⟩
    · rw [hrole, (hasAlternate_iff s).mpr halt]
      simp only [and_true]
    · rw [hrole, hasAlternate_eq_false halt]
      simp
  · rw [exec_portLinkReturn hl]
    refine ex_done_rechosen (linkReturn_acts hdown hrole) fun t _ hports hframe => ?_
    have honly := portRisen_only p.val s
    have hlink : t.link = (portRisen p.val s).link := (congrArg State.link hframe :)
    have hport := portRisen_port (s := s) hp
    rw [← portAt_congr (congrArg Link.ports hlink) p.val] at hport
    refine ⟨(congrArg Port.status hport :), (congrArg Port.downFrom hport :), (congrArg Port.upFrom hport :),
      (congrArg Port.role hport :), fun hq => ?_, ?_⟩
    · have hfresh : ptpAt (portRisen p.val s) p.val = _ :=
        (ptpAt_congr (congrArg (fun x : State => x.ptp.ports) honly) _).trans (ptpAt_onPtp_same p.val _ s hq)
      rw [hports, hfresh]
      exact ⟨rfl, rfl⟩
    · rw [hframe, honly]
      rfl
  · rw [exec_portPromote hl]
    refine ex_done_ring (ringMoved_promote hn hdown hring) fun t hlink hframe => ?_
    obtain ⟨hstandby, hup, htaken⟩ := promote_ports hp hn hdown hring
    simp only [← portAt_congr (congrArg Link.ports hlink)] at hstandby hup htaken
    refine ⟨hstandby, hup, fun halt => ?_, fun h1 halt => ?_, hframe⟩
    · rw [htaken, if_neg]
      rintro ⟨h1, hnone⟩
      rcases halt with h2 | hsome
      · rw [h1] at h2
        exact absurd h2 (by decide)
      · rw [(hasAlternate_iff s).mpr hsome] at hnone
        exact absurd hnone (by decide)
    · rw [htaken, if_pos ⟨h1, hasAlternate_eq_false halt⟩]
  · rw [exec_portRevert hl]
    rcases revert_cases (rankOne_eq p hw hrank hfirst) with ⟨hback, h2, hrev⟩ | ⟨u, hback, h3, hu, hrev⟩ | ⟨hstay, hrev⟩
    · rw [hrev]
      refine ex_done s _ rfl rfl fun t ht => ⟨fun hno => ?_, fun _ _ _ => ⟨by rw [ht], by rw [ht]; rfl⟩, fun u _ _ h3 => ?_,
        by rw [ht]; rfl⟩
      · rw [hback.1, hback.2] at hno
        exact absurd h2 (hno.resolve_left (by decide)).1
      · rw [h2] at h3
        exact absurd h3 (by decide)
    · rw [hrev]
      refine ex_done_rechosen (rechosen_masterUpdate _) fun t _ _ hframe =>
        ⟨fun hno => ?_, fun _ _ h2 => ?_, fun u' _ _ _ hu' => ?_, ?_⟩
      · rw [hback.1, hback.2] at hno
        exact absurd h3 (hno.resolve_left (by decide)).2
      · rw [h3] at h2
        exact absurd h2 (by decide)
      · have hsame : u = u' := Option.some.inj (hu.symm.trans hu')
        have hlink : t.link = (portReturned p.val u s).link := (congrArg State.link hframe :)
        rw [← hsame, portAt_congr (congrArg Link.ports hlink), portAt_congr (congrArg Link.ports hlink)]
        exact portReturned_roles h3 hu hp
      · rw [hframe]
        rfl
    · rw [hrev]
      refine ex_done s s rfl rfl fun t ht =>
        ⟨fun _ => ⟨by rw [ht], by rw [ht]⟩, fun hset hup h2 => ?_, fun u hset hup h3 hu => ?_, by rw [ht]; rfl⟩
      · exact absurd h2 (hstay ⟨hset, hup⟩).1
      · rw [(hstay ⟨hset, hup⟩).2 h3] at hu
        cases hu

end Sys2Proof.Machine

/-! SUPPORT AND PROOFS. Timed actions: their submission (R245 to R249) and their cancellation (R254). -/

namespace Sys2Proof.Machine

/-! ### The slots of the action table (R249) -/

/-- No waiting operation holds slot k. -/
def State.slotFree (s : State) (k : Nat) : Prop := ∀ e ∈ s.act.sched, e.slot ≠ some k

theorem freeSlot_lt {s : State} {k : Nat} (h : freeSlot s = some k) : k < 256 :=
  List.mem_range.mp (List.mem_of_find?_eq_some h)

/-- The slot that the next action takes lies at or below every free one. -/
theorem freeSlot_le_of_slotFree {s : State} {k : Nat} (hk : k < 256) (hfree : s.slotFree k) :
    ∃ j, freeSlot s = some j ∧ j ≤ k := by
  have hall : (s.act.sched.all fun e => decide (e.slot ≠ some k)) = true := by
    simpa [State.slotFree] using hfree
  have hsome : (freeSlot s).isSome = true := List.find?_isSome.mpr ⟨k, List.mem_range.mpr hk, hall⟩
  obtain ⟨j, hj⟩ := Option.isSome_iff_exists.mp hsome
  refine ⟨j, hj, Nat.le_of_not_lt fun hlt => ?_⟩
  have hbefore := (List.find?_range_eq_some.mp hj).2.2 k hlt
  rw [hall] at hbefore
  exact absurd hbefore (by decide)

/-- The next handle of a slot: its sequence number follows the slot's last one, 255 by 1. -/
def actionHandle (s : State) (slot : Nat) : Nat :=
  (if s.act.lastQ.getD slot 0 = 255 then 1 else s.act.lastQ.getD slot 0 + 1) * 256 + slot

/-! ### What the acceptance of an action does at once -/

/-- The channels once an operation is accepted: a check clears the results of those that it includes. -/
def acceptedChans (op : Op) (s : State) : List Chan :=
  match op with
  | .owc v => (owcClear v s).chans
  | _ => s.chans

/-- An action has taken a slot and its next handle; a hoist has taken the shadow. -/
def actionTaken (slot : Nat) (r : Role) (op : Op) (F : TW) (d : BitVec 256) (s : State) : State :=
  { s with
    conf := if op = Op.hoist then (hoistTake (BitVec.ofNat 128 (descArg d)) r s).conf else s.conf
    act := { s.act with
      sched := s.act.sched ++ [⟨some slot, actionHandle s slot, d, r, op, F, 0, 0, s.time.tw⟩]
      lastQ := s.act.lastQ.set slot (actionHandle s slot / 256) }
    chans := acceptedChans op s }

/-- An accepted action answers its handle and its fire tick. -/
theorem takeSlot_eq {slot : Nat} (hslot : slot < 256) (r : Role) (op : Op) (F : TW) (d : BitVec 256) (s : State) :
    takeSlot slot r op F d s =
      ⟨0, octetsOf 2 (actionHandle s slot) ++ octetsOf 8 F.toNat, actionTaken slot r op F d s⟩ := by
  have hseq : actionHandle s slot / 256 = if s.act.lastQ.getD slot 0 = 255 then 1 else s.act.lastQ.getD slot 0 + 1 := by
    unfold actionHandle
    omega
  unfold actionTaken
  rw [hseq]
  cases op <;> rfl

/-! ### The tests of a submission (Table 10.4) -/

theorem descDecode_hoist {d : BitVec 256} {op : Op} (h : descDecode d = some op) (h4 : descOp d = 4) : op = .hoist := by
  unfold descDecode at h
  rw [h4] at h
  dsimp only at h
  split at h
  · cases h
  · exact (Option.some.inj h).symm

theorem live_of_readyFor {s : State} {F : TW} (h : readyFor s F = true) : live s = true := by
  unfold readyFor at h
  unfold live
  split at h
  case h_1 hm => rw [hm]; rfl
  case h_2 hm => rw [hm]; rfl
  case h_3 hm => rw [hm]; rfl
  case h_4 => cases h

/-- With tests 1 to 4 of Table 10.4 passed, the distance of the fire tick decides. -/
theorem taSubmit_of_inWindow {s : State} {r : Role} {d : BitVec 256} {op : Op} (hop : descDecode d = some op)
    (hr : roleOk r (descRole d) = true) (hhoist : op = .hoist → roleOk r (hoistRole s) = true) (hq : s.time.quality ≠ 0)
    (hready : readyFor s (fireTick s (descInstant d)) = true) (hbars : calBars s (fireTick s (descInstant d)) = false)
    (hw : TW.inWindow s.time.cycTw (descInstant d) = true) :
    taSubmit r d s =
      if TW.diff s.time.cycTw (fireTick s (descInstant d)) < 2 * tf s then
        refuse 0x0501 { s with act.refusedLate := satInc s.act.refusedLate }
      else taSchedule r op (fireTick s (descInstant d)) d s := by
  have hrole : ¬(descOp d = 4 ∧ (!roleOk r (hoistRole s)) = true) := by
    rintro ⟨h4, hno⟩
    rw [hhoist (descDecode_hoist hop h4)] at hno
    cases hno
  unfold taSubmit
  rw [if_neg (by simp [hr]), if_neg hrole, hop]
  dsimp only
  rw [if_neg (by simp [hready, hbars, hq]), if_neg (by simp [hw])]

theorem hoistJudge_accepted {k : BitVec 128} {F w : TW} {s : State} (hnone : s.conf.hoist = none)
    (htests : (hoistTests s s.conf.shadow k w (aroundTick s F)).2 = 0) : hoistJudge k F w s = (0, s) := by
  simp [hoistJudge, hnone, htests]

/-- Test 9 of Table 10.4: a hoist is judged by tests 2 to 7 of R342, any other operation by its own condition. -/
def actionJudge (op : Op) (d : BitVec 256) (F : TW) (s : State) : Nat × State :=
  if op = .hoist then hoistJudge (BitVec.ofNat 128 (descArg d)) F (namedCourse s F) s else (actionCond s op F, s)

theorem actionJudge_accepted {op : Op} {d : BitVec 256} {F : TW} {s : State}
    (hhoist : op = .hoist → s.conf.hoist = none ∧
      (hoistTests s s.conf.shadow (BitVec.ofNat 128 (descArg d)) (namedCourse s F) (aroundTick s F)).2 = 0)
    (hother : op ≠ .hoist → actionCond s op F = 0) : actionJudge op d F s = (0, s) := by
  unfold actionJudge
  split
  next h => exact hoistJudge_accepted (hhoist h).1 (hhoist h).2
  next h => rw [hother h]

/-- An action that passes tests 6 to 9 of Table 10.4 takes its slot. -/
theorem taSchedule_accepted {s : State} {op : Op} {F : TW} {slot : Nat} (r : Role) (d : BitVec 256)
    (hslot : freeSlot s = some slot) (hstep : opCode op = 6 → stepDue s F = false) (hfits : actionFits s op F = true)
    (hjudge : actionJudge op d F s = (0, s)) :
    taSchedule r op F d s = takeSlot slot r op F d s := by
  have hdue : ¬(opCode op = 6 ∧ stepDue s F = true) := by
    rintro ⟨h6, hdue⟩
    rw [hstep h6] at hdue
    cases hdue
  unfold taSchedule
  rw [hslot]
  dsimp only
  rw [if_neg hdue, if_neg (by simp [hfits])]
  change (if (actionJudge op d F s).1 ≠ 0 then refuse (actionJudge op d F s).1 (actionJudge op d F s).2
    else takeSlot slot r op F d (actionJudge op d F s).2) = _
  rw [hjudge]
  rfl

/-- Settles O44: once the tests of Table 10.4 are passed, the action takes its slot, and its acceptance acts at once on the
shadow or the channels alone. -/
theorem timedActions : Obligations.TimedActions := by
  intro s r d op c slot hc _ hop hr hq hready hbars hw
  have hl := live_of_readyFor hready
  have hexec : exec c s = served s (taSubmit r d) := by
    rcases hc with rfl | rfl | rfl | rfl | rfl | rfl | rfl <;> rfl
  rw [hexec]
  refine ⟨fun hfar hslot hfits hh hcond hstep => ?_, fun hnear hh => ?_⟩
  · have hjudge : actionJudge op d (fireTick s (descInstant d)) s = (0, s) :=
      actionJudge_accepted (fun h => (hh h).2) hcond
    have hsubmit := (taSubmit_of_inWindow hop hr (fun h => (hh h).1) hq hready hbars hw).trans
      ((if_neg (Int.not_lt.mpr hfar)).trans ((taSchedule_accepted r d hslot hstep hfits hjudge).trans
        (takeSlot_eq (freeSlot_lt hslot) ..)))
    obtain ⟨t, ht, hstate⟩ := ex_served s _ _ hl hsubmit rfl rfl fun _ => id
    refine ⟨t, actionHandle s slot, ht, rfl, congrArg State.out hstate, congrArg State.act hstate,
      congrArg State.conf hstate, (congrArg State.chans hstate).trans ?_, by rw [hstate]; rfl⟩
    cases op <;> rfl
  · exact ex_served s _ _ hl ((taSubmit_of_inWindow hop hr hh hq hready hbars hw).trans (if_pos hnear)) rfl rfl fun t ht =>
      ⟨congrArg State.out ht, congrArg State.act ht, by rw [ht]; rfl⟩

/-! ### The cancellation of an action (R254) -/

theorem live_of_actionModes {s : State} (h : s.power.mode = .calibrate ∨ s.power.mode = .ready ∨ s.power.mode = .run) :
    live s = true := by
  unfold live; rcases h with h | h | h <;> rw [h] <;> rfl

/-- The action with this handle. -/
def State.actionOf (s : State) (h : BitVec 16) : Option Sched :=
  s.act.sched.find? fun e => e.slot.isSome && decide (e.handle = h.toNat)

theorem actionOf_eq_none {s : State} {h : BitVec 16} (hno : ∀ e ∈ s.act.sched, e.slot = none ∨ e.handle ≠ h.toNat) :
    s.actionOf h = none := by
  refine List.find?_eq_none.mpr fun e he => ?_
  rcases hno e he with hslot | hhandle
  · simp [hslot]
  · simp [hhandle]

/-- An action is out of the table; the content of a hoist is back in the shadow (R344). -/
def unscheduled (e : Sched) (s : State) : State :=
  let x := { s with act.sched := s.act.sched.filter fun x => decide (x.slot ≠ e.slot) }
  if e.op = .hoist then hoistReturn x else x

theorem unscheduled_only (e : Sched) (s : State) :
    unscheduled e s = { s with
      conf := (unscheduled e s).conf
      act := { s.act with sched := s.act.sched.filter fun x => decide (x.slot ≠ e.slot) } } := by
  unfold unscheduled
  dsimp only
  split <;> rfl

/-- The slot of an action that has been removed is free. -/
theorem slotFree_of_removed {s t : State} {e : Sched} {slot : Nat} (he : e.slot = some slot)
    (ht : t.act.sched = s.act.sched.filter fun x => decide (x.slot ≠ e.slot)) : t.slotFree slot := by
  intro x hx
  rw [ht, he] at hx
  simpa using (List.mem_filter.mp hx).2

section
variable {s : State} {r : Role} {h : BitVec 16}

theorem taCancel_without_action (hno : s.actionOf h = none) (hr : roleOk r .operator = true) :
    taCancel r h s = refuse 0x0301 s := by
  unfold State.actionOf at hno
  simp only [taCancel, hno, hr, Bool.not_true, Bool.false_eq_true, if_false, ite_self]

variable {e : Sched} (he : s.actionOf h = some e)
include he

theorem taCancel_other_role (hr : roleOk r (opRole e.op) = false) : taCancel r h s = refuse 0x0105 s := by
  unfold State.actionOf at he
  simp only [taCancel, he, hr, Bool.not_false, if_true]

variable (hm : s.power.mode = .calibrate ∨ s.power.mode = .ready ∨ s.power.mode = .run)
  (hr : roleOk r (opRole e.op) = true)
include hm hr

theorem taCancel_of_action :
    taCancel r h s = if TW.diff s.time.cycTw e.fire < tf s then refuse 0x0501 s
      else accept (completeNow (cancelRecord (unscheduled e s) e 3) (unscheduled e s)) := by
  have hmode : [Mode.calibrate, .ready, .run].contains s.power.mode = true := by rcases hm with h | h | h <;> rw [h] <;> rfl
  unfold State.actionOf at he
  simp only [taCancel, he, hr, hmode, Bool.not_true, Bool.false_eq_true, if_false]
  rfl

end

theorem completeNow_sched (k : Completion) (s : State) : (completeNow k s).act.sched = s.act.sched := by
  simp [completeNow, logCompletion]

/-- A cancellation changes the hoists, the actions and the class queues alone. -/
theorem cancelled_only (k : Completion) (e : Sched) (s : State) :
    completeNow k (unscheduled e s) = { s with
      conf := (unscheduled e s).conf
      act := (completeNow k (unscheduled e s)).act
      buf := (completeNow k (unscheduled e s)).buf } := by
  have hy := completeNow_only k (unscheduled e s)
  have hx := unscheduled_only e s
  generalize completeNow k (unscheduled e s) = y at hy
  generalize unscheduled e s = x at hy hx
  rw [hy, hx]

theorem cancelled_sched (k : Completion) (e : Sched) (s : State) :
    (completeNow k (unscheduled e s)).act.sched = s.act.sched.filter fun x => decide (x.slot ≠ e.slot) := by
  rw [completeNow_sched, unscheduled_only]

/-- Settles O45: the action leaves the table, a hoist's content returns to the shadow, and its record is the latest. -/
theorem actionsCancelled : Obligations.ActionsCancelled := by
  intro s r h hm
  have hl := live_of_actionModes hm
  refine ⟨fun hno hr => served_refuse hl (taCancel_without_action (actionOf_eq_none hno) hr), fun e he => ⟨fun hr => ?_,
    fun hr hnear => ?_, fun hr hfar => ?_⟩⟩
  · exact served_refuse hl (taCancel_other_role he hr)
  · exact served_refuse hl ((taCancel_of_action he hm hr).trans (if_pos hnear))
  · have hcancel := (taCancel_of_action he hm hr).trans (if_neg (Int.not_lt.mpr hfar))
    have hsched := cancelled_sched (cancelRecord (unscheduled e s) e 3) e s
    have hlog := completeNow_log_head? (cancelRecord (unscheduled e s) e 3) (unscheduled e s)
    rw [cancelled_only, accept] at hcancel
    obtain ⟨t, ht, hstate⟩ := ex_served s _ _ hl hcancel rfl rfl fun _ => id
    have hact : t.act = (completeNow (cancelRecord (unscheduled e s) e 3) (unscheduled e s)).act :=
      (congrArg State.act hstate :)
    rw [← hact] at hsched hlog
    refine ⟨t, _, ht, congrArg State.out hstate, hsched, ?_, fun slot hslot h256 => ?_, hlog, rfl, rfl, rfl,
      by rw [hstate]; rfl⟩
    · rw [hsched]
      simp
    · exact freeSlot_le_of_slotFree h256 (slotFree_of_removed hslot hsched)

end Sys2Proof.Machine

/-! SUPPORT AND PROOFS. Credit and acknowledgement (R256, R276, R278). -/

namespace Sys2Proof.Machine

/-! ### An acknowledgement (R276) -/

/-- An entered frame after an ACK_NEXT. -/
def Entered.ackedTo (a : BitVec 32) (e : Entered) : Entered :=
  if e.sent && !e.acked && serialLt e.ssn a then { e with acked := true } else e

/-- Every sent frame before an ACK_NEXT is acknowledged by it. -/
theorem Entered.ackedTo_acked {a : BitVec 32} {e : Entered} (hs : (e.ackedTo a).sent = true)
    (hlt : serialLt (e.ackedTo a).ssn a = true) : (e.ackedTo a).acked = true := by
  by_cases hhit : (e.sent && !e.acked && serialLt e.ssn a) = true
  · rw [Entered.ackedTo, if_pos hhit]
  · rw [Entered.ackedTo, if_neg hhit] at *
    rw [hs, hlt] at hhit
    simpa using hhit

/-- The release of acknowledged captures changes the trigger units alone. -/
theorem forList_capRelease_only (l : List (Nat × Nat)) (s : State) :
    forList l (fun f => capRelease f.1 f.2) s = { s with units := (forList l (fun f => capRelease f.1 f.2) s).units } := by
  unfold forList
  induction l generalizing s with
  | nil => rfl
  | cons f l ih => exact ih (capRelease f.1 f.2 s)

/-- An accepted ACK_NEXT acknowledges the frames before it, and changes the credit, the rewind and the units besides. -/
theorem ackTo_only (a : BitVec 32) (s : State) :
    ∃ credit used at_ retx units, ackTo a s = { s with
      link := { s.link with ackNext := a, ackCredit := credit, creditUsed := used, ackAt := at_ }
      buf := { s.buf with sbuf := s.buf.sbuf.map (Entered.ackedTo a), retx := retx }
      units := units } := by
  unfold ackTo
  dsimp only
  (repeat' split) <;> (rw [forList_capRelease_only]; exact ⟨_, _, _, _, _, rfl⟩)

/-! ### The parts of CREDIT_ACK_RECEIVE -/

/-- ACK_NEXT a lies between the present one and the next SSN. -/
def ackCounts (a : BitVec 32) (s : State) : Bool := serialLe s.link.ackNext a && serialLe a s.link.ssnNext

/-- An ACK_NEXT is received. -/
def ackHeard (a : BitVec 32) (s : State) : State := if ackCounts a s then ackTo a s else s

/-- A credit limit is received. -/
def limitHeard (lim : BitVec 32) (s : State) : State :=
  if serialLe s.link.creditLimit lim then { s with link.creditLimit := lim } else s

/-- A NAK is received, or none. -/
def nakHeard (nak : Bool) (s : State) : State := if nak then rewind s else s

theorem creditAck_eq (a lim : BitVec 32) (nak : Bool) (s : State) :
    creditAck a lim nak s = nakHeard nak (limitHeard lim (ackHeard a s)) := rfl

theorem ackHeard_only (a : BitVec 32) (s : State) :
    ∃ credit used at_ retx units, ackHeard a s = { s with
      link := { s.link with
        ackNext := if ackCounts a s then a else s.link.ackNext, ackCredit := credit, creditUsed := used, ackAt := at_ }
      buf := { s.buf with
        sbuf := if ackCounts a s then s.buf.sbuf.map (Entered.ackedTo a) else s.buf.sbuf, retx := retx }
      units := units } := by
  unfold ackHeard
  split
  · exact ackTo_only a s
  · exact ⟨_, _, _, _, _, rfl⟩

theorem limitHeard_only (lim : BitVec 32) (s : State) :
    limitHeard lim s = { s with
      link := { s.link with creditLimit := if serialLe s.link.creditLimit lim then lim else s.link.creditLimit } } := by
  unfold limitHeard
  split <;> rfl

theorem nakHeard_only (nak : Bool) (s : State) :
    ∃ used retx, nakHeard nak s = { s with
      link := { s.link with creditUsed := used }, buf := { s.buf with retx := retx } } := by
  cases nak with
  | false => exact ⟨_, _, rfl⟩
  | true => exact ⟨_, _, rewind_only s⟩

/-- The three parts together. -/
theorem creditAck_only (a lim : BitVec 32) (nak : Bool) (s : State) :
    ∃ credit used at_ retx units, creditAck a lim nak s = { s with
      link := { s.link with
        ackNext := if ackCounts a s then a else s.link.ackNext
        creditLimit := if serialLe s.link.creditLimit lim then lim else s.link.creditLimit
        ackCredit := credit, creditUsed := used, ackAt := at_ }
      buf := { s.buf with
        sbuf := if ackCounts a s then s.buf.sbuf.map (Entered.ackedTo a) else s.buf.sbuf, retx := retx }
      units := units } := by
  obtain ⟨used, retx, hnak⟩ := nakHeard_only nak (limitHeard lim (ackHeard a s))
  obtain ⟨_, _, _, _, _, hack⟩ := ackHeard_only a s
  rw [creditAck_eq, hnak, limitHeard_only, hack]
  exact ⟨_, _, _, _, _, rfl⟩

/-! ### The rewind (R278) -/

theorem oldestUnacked_congr {s t : State} (h : t.buf = s.buf) : oldestUnacked t = oldestUnacked s := by
  unfold oldestUnacked; rw [h]

theorem rewind_retx (s : State) : (rewind s).buf.retx = (oldestUnacked (rewind s)).map Entered.ssn := by
  have hsbuf : (rewind s).buf.sbuf = s.buf.sbuf := (congrArg (fun t : State => t.buf.sbuf) (rewind_only s) :)
  unfold oldestUnacked
  rw [hsbuf]
  exact (congrArg (fun t : State => t.buf.retx) (rewind_only s) :)

theorem creditAck_nak_retx (a lim : BitVec 32) (s : State) :
    (creditAck a lim true s).buf.retx = (oldestUnacked (creditAck a lim true s)).map Entered.ssn := rewind_retx _

theorem rewind_creditUsed (s : State) :
    (rewind s).link.creditUsed = if (oldestUnacked s).isSome then s.link.ackCredit else s.link.creditUsed := by
  unfold rewind
  cases oldestUnacked s <;> rfl

/-! ### The commands -/

section
variable {s : State} (hl : live s = true)
include hl

theorem exec_creditAckReceive (a lim : BitVec 32) (nak : Bool) :
    exec (.creditAckReceive a lim nak) s = done (creditAck a lim nak s) := if_pos hl

theorem exec_retxTimeout : exec .retxTimeout s = done (retxTimeout s) := if_pos hl

end

/-- Settles O48: an ACK_NEXT, a limit and a NAK act one after the other, each on its own part; the time-out is the rewind
alone. -/
theorem creditAndAcks : Obligations.CreditAndAcks := by
  intro s hl
  refine ⟨fun ack limit nak => ?_, fun hack => ?_, fun hack => ?_⟩
  · have hnak : nak = true →
        (creditAck ack limit nak s).buf.retx = (oldestUnacked (creditAck ack limit nak s)).map Entered.ssn :=
      fun h => h ▸ creditAck_nak_retx ack limit s
    obtain ⟨credit, used, at_, retx, units, hx⟩ := creditAck_only ack limit nak s
    rw [exec_creditAckReceive hl]
    refine ex_done s _ (congrArg State.health hx :) (congrArg State.store hx :) fun t ht => ?_
    have hbuf : t.buf = (creditAck ack limit nak s).buf := (congrArg State.buf ht :)
    rw [← oldestUnacked_congr hbuf, ← hbuf] at hnak
    rw [hx] at ht
    have hsbuf : t.buf.sbuf = if ackCounts ack s then s.buf.sbuf.map (Entered.ackedTo ack) else s.buf.sbuf :=
      (congrArg (fun t : State => t.buf.sbuf) ht :)
    refine ⟨(congrArg (fun t : State => t.link.ackNext) ht :), (congrArg (fun t : State => t.link.creditLimit) ht :),
      fun hfrom hto e he hsent hlt => ?_, fun hno => hsbuf.trans (if_neg (by simp [ackCounts, hno])), hnak,
      (congrArg (fun t : State => t.link.ssnNext) ht :), by rw [ht]; rfl⟩
    rw [hsbuf, if_pos (by simp [ackCounts, hfrom, hto])] at he
    obtain ⟨e, -, rfl⟩ := List.mem_map.mp he
    exact Entered.ackedTo_acked hsent hlt
  · rw [exec_retxTimeout hl, retxTimeout, if_pos hack]
    exact ex_done s s rfl rfl fun t ht => ht
  · rw [exec_retxTimeout hl, retxTimeout, if_neg hack, rewind_only]
    exact ex_done s _ rfl rfl fun t ht => ⟨(congrArg (fun t : State => t.buf.retx) ht :),
      (congrArg (fun t : State => t.link.creditUsed) ht).trans (rewind_creditUsed s), by rw [ht]; rfl⟩

end Sys2Proof.Machine

/-! SUPPORT AND PROOFS. Where a received frame goes (R263 to R265). -/

namespace Sys2Proof.Machine

theorem exec_axindFrameReceive {s : State} (hl : live s = true) (p : Fin 4) (f : RxFrame) :
    exec (.axindFrameReceive p f) s = done (axindReceive p.val f s) := if_pos hl

/-- A frame that is taken or discarded changes the count of discards at most (R264). -/
theorem takeFrame_only (l : List Nat) (s : State) :
    takeFrame l s = { s with
      link := if takenTypes.contains (hdrType l) = true ∧ ¬(hdrType l = 0x20 ∧ hdrSource l ≠ 0)
        then s.link else { s.link with discards := satInc s.link.discards } } := by
  unfold takeFrame
  split <;> rfl

/-- Neither the roles of the ports nor their links change as a frame is taken, so the other ring port stays. -/
theorem otherPort_takeFrame (l : List Nat) (p : Nat) (s : State) : otherPort (takeFrame l s) p = otherPort s p := by
  unfold takeFrame
  split <;> rfl

theorem takeFrame_ports (l : List Nat) (s : State) : (takeFrame l s).link.ports = s.link.ports := by
  unfold takeFrame
  split <;> rfl

/-- A frame goes on behind those that wait at the other active ring port (R265). -/
theorem forwardOut_of_otherPort {s : State} {p q : Nat} (hq : otherPort s p = some q) (l : List Nat) :
    forwardOut p l s = onPort q (fun x => { x with fwd := x.fwd ++ [l] }) s := by
  simp only [forwardOut, hq]

/-- A broadcast that still has hops is taken or discarded, and goes on with one hop fewer. -/
theorem forwardOut_takeFrame {s : State} {p q : Nat} (hq : otherPort s p = some q) (l k : List Nat) :
    forwardOut p k (takeFrame l s) = onPort q (fun x => { x with fwd := x.fwd ++ [k] }) (takeFrame l s) :=
  forwardOut_of_otherPort ((otherPort_takeFrame l p s).trans hq) k

/-! ### The frames that the module looks at (R263) -/

theorem axindReceive_of_ignored {s : State} {p : Nat} {f : RxFrame}
    (h : f.fcsOk = false ∨ activePort s p = false ∨ f.octets.length < 24 ∨ octetAt f.octets 0 / 16 ≠ 1 ∨ f.srcMac = moduleMac) :
    axindReceive p f s = s := if_pos (by simpa using h)

section
variable {s : State} {p : Nat} {f : RxFrame} (hfcs : f.fcsOk = true) (hactive : activePort s p = true)
  (hlong : 24 ≤ f.octets.length) (hformat : octetAt f.octets 0 / 16 = 1) (hsrc : f.srcMac ≠ moduleMac)
include hfcs hactive hlong hformat hsrc

/-- DEST decides where a good frame goes. -/
theorem axindReceive_of_good :
    axindReceive p f s =
      if hdrDest f.octets = cfgAt s 0x1001 0 ∧ cfgAt s 0x1001 0 ≠ 0 then takeFrame f.octets s
      else if hdrDest f.octets = 0xFFFFF then
        if 1 < hdrHops f.octets then forwardOut p (f.octets.set 7 (hdrHops f.octets - 1)) (takeFrame f.octets s)
        else takeFrame f.octets s
      else forwardOut p f.octets s :=
  if_neg (by simp [hfcs, hactive, hformat, hsrc, Nat.not_lt.mpr hlong])

theorem axindReceive_own (hdest : hdrDest f.octets = cfgAt s 0x1001 0) (hme : cfgAt s 0x1001 0 ≠ 0) :
    axindReceive p f s = takeFrame f.octets s :=
  (axindReceive_of_good hfcs hactive hlong hformat hsrc).trans (if_pos ⟨hdest, hme⟩)

theorem axindReceive_broadcast {q : Nat} (hdest : hdrDest f.octets = 0xFFFFF) (hme : cfgAt s 0x1001 0 ≠ 0xFFFFF)
    (hhops : 1 < hdrHops f.octets) (hq : otherPort s p = some q) :
    axindReceive p f s =
      onPort q (fun x => { x with fwd := x.fwd ++ [f.octets.set 7 (hdrHops f.octets - 1)] }) (takeFrame f.octets s) := by
  have hnot : ¬(hdrDest f.octets = cfgAt s 0x1001 0 ∧ cfgAt s 0x1001 0 ≠ 0) := fun h => hme (h.1.symm.trans hdest)
  rw [axindReceive_of_good hfcs hactive hlong hformat hsrc, if_neg hnot, if_pos hdest, if_pos hhops, forwardOut_takeFrame hq]

theorem axindReceive_other {q : Nat} (hall : hdrDest f.octets ≠ 0xFFFFF) (hdest : hdrDest f.octets ≠ cfgAt s 0x1001 0)
    (hq : otherPort s p = some q) :
    axindReceive p f s = onPort q (fun x => { x with fwd := x.fwd ++ [f.octets] }) s := by
  rw [axindReceive_of_good hfcs hactive hlong hformat hsrc, if_neg fun h => hdest h.1, if_neg hall,
    forwardOut_of_otherPort hq]

end

/-- Settles O47: DEST decides whether a good frame is taken, taken and sent on, or sent on. -/
theorem framesRouted : Obligations.FramesRouted := by
  intro s p f hl
  rw [exec_axindFrameReceive hl]
  refine ⟨fun hbad => ?_, fun hfcs hactive hlong hformat hsrc => ⟨fun hdest hme => ?_, fun q hdest hme hhops hq => ?_,
    fun q hall hdest hq => ?_⟩⟩
  · rw [axindReceive_of_ignored hbad]
    exact ex_done s s rfl rfl fun t ht => ht
  · rw [axindReceive_own hfcs hactive hlong hformat hsrc hdest hme, takeFrame_only]
    exact ex_done s _ rfl rfl fun t ht => ⟨(congrArg State.link ht :), by rw [ht]; rfl⟩
  · rw [axindReceive_broadcast hfcs hactive hlong hformat hsrc hdest hme hhops hq]
    have honly := takeFrame_only f.octets s
    have hports := takeFrame_ports f.octets s
    generalize takeFrame f.octets s = x at honly hports
    refine ex_done s _ (congrArg State.health honly :) (congrArg State.store honly :) fun t ht => ⟨?_, ?_⟩
    · rw [ht, ← hports]
      rfl
    · rw [ht, honly]
      rfl
  · rw [axindReceive_other hfcs hactive hlong hformat hsrc hall hdest hq]
    exact ex_done s _ rfl rfl fun t ht => ⟨(congrArg State.link ht :), by rw [ht]; rfl⟩

end Sys2Proof.Machine

/-! SUPPORT AND PROOFS. What a port sends next (R262, R266, R277, R278, R300). -/

namespace Sys2Proof.Machine

theorem exec_frameTransmit {s : State} (hl : live s = true) (p : Fin 4) (obs : ReadObs) :
    exec (.frameTransmit p obs) s = done (frameTransmit p.val obs s) := if_pos hl

/-! ### Which frame goes next (R266) -/

section
variable {s : State} {p : Nat} {o : ReadObs} (hup : (portAt s p).status = true)
  (hring : (portAt s p).role = 1 ∨ (portAt s p).role = 2)
include hup hring

/-- On a ring port whose link is up the break notices go first, then the forwarded frames. -/
theorem frameTransmit_of_ring :
    frameTransmit p o s = match (portAt s p).breaks, (portAt s p).fwd with
      | b :: l, _ => emit (.tx p (etherFrame s (broadcast s 0x21 b))) (onPort p (fun x => { x with breaks := l }) s)
      | [], f :: l => emit (.forward p f) (onPort p (fun x => { x with fwd := l }) s)
      | [], [] => if (portAt s p).role = 1 then ownTransmit p o s else altTransmit p s :=
  if_neg (by simpa [hup] using or_iff_not_imp_left.mp hring)

theorem frameTransmit_of_break {b : List Nat} {l : List (List Nat)} (hb : (portAt s p).breaks = b :: l) :
    frameTransmit p o s =
      emit (.tx p (etherFrame s (broadcast s 0x21 b))) (onPort p (fun x => { x with breaks := l }) s) := by
  rw [frameTransmit_of_ring hup hring, hb]

variable (hb : (portAt s p).breaks = [])
include hb

theorem frameTransmit_of_forward {f : List Nat} {l : List (List Nat)} (hf : (portAt s p).fwd = f :: l) :
    frameTransmit p o s = emit (.forward p f) (onPort p (fun x => { x with fwd := l }) s) := by
  rw [frameTransmit_of_ring hup hring, hb, hf]

/-- A port that has neither takes the module's own frames. -/
theorem frameTransmit_of_neither (hf : (portAt s p).fwd = []) :
    frameTransmit p o s = if (portAt s p).role = 1 then ownTransmit p o s else altTransmit p s := by
  rw [frameTransmit_of_ring hup hring, hb, hf]

end

section
variable {s : State} {p : Nat} {o : ReadObs}

theorem altTransmit_of_message {m : List Nat} {l : List (List Nat)} (hm : (portAt s p).msgs = m :: l)
    (hmay : mayControl s p m.length = true) : altTransmit p s = sendMsg p m l s := by
  simp only [altTransmit, hm, hmay, if_true]

/-- The waiting frame goes first in class 4 or 5, and in class 6 once no message and no answer waits. -/
theorem ownTransmit_of_mayStart {e : Entered} (hw : waiting s = some e) (hmay : mayStart s p e = true)
    (hcls : e.frame.cls = 4 ∨ e.frame.cls = 5 ∨ (e.frame.cls = 6 ∧ (portAt s p).msgs = [] ∧ s.link.own = [])) :
    ownTransmit p o s = sendWaiting p o e s := by
  unfold ownTransmit
  rcases hcls with h4 | h5 | ⟨h6, hm, ho⟩
  · simp [hw, hmay, h4]
  · simp [hw, hmay, h5]
  · simp [hw, hmay, h6, hm, ho]

section
variable (hw : waiting s = none)
include hw

theorem ownTransmit_of_message {m : List Nat} {l : List (List Nat)} (hm : (portAt s p).msgs = m :: l)
    (hmay : mayControl s p m.length = true) : ownTransmit p o s = sendMsg p m l s := by
  simp [ownTransmit, hw, hm, hmay]

theorem ownTransmit_of_answer {a : Answer} {l : List Answer} (hm : (portAt s p).msgs = []) (ho : s.link.own = a :: l)
    (hmay : mayControl s p a.len = true) : ownTransmit p o s = sendAnswer p a l s := by
  simp [ownTransmit, hw, hm, ho, hmay]

end

/-- Where nothing of the classes 4 to 6 may go, the retransmission does, if there is one. -/
theorem ownTransmit_of_none_startable (hw : ∀ e, waiting s = some e → mayStart s p e = false)
    (hm : (portAt s p).msgs = []) (ho : s.link.own = []) : ownTransmit p o s = retransmit p o s := by
  unfold ownTransmit
  cases hwait : waiting s with
  | none => simp [hm, ho]
  | some e => simp [hm, ho, hw e hwait]

/-- A message leaves by either ring port, on the up port where no entered frame waits. -/
theorem frameTransmit_of_message {m : List Nat} {l : List (List Nat)} (hup : (portAt s p).status = true)
    (hring : (portAt s p).role = 1 ∨ (portAt s p).role = 2) (hb : (portAt s p).breaks = []) (hf : (portAt s p).fwd = [])
    (hm : (portAt s p).msgs = m :: l) (hmay : mayControl s p m.length = true)
    (hturn : (portAt s p).role = 2 ∨ waiting s = none) : frameTransmit p o s = sendMsg p m l s := by
  rw [frameTransmit_of_neither hup hring hb hf]
  split
  next h1 => exact ownTransmit_of_message (hturn.resolve_left (by omega)) hm hmay
  next => exact altTransmit_of_message hm hmay

end

/-! ### What a message and an answer change (R288) -/

theorem charge_msgs (p n : Nat) (s : State) : (portAt (charge p n s) p).msgs = (portAt s p).msgs :=
  portAt_onPort_keeps Port.msgs p p (f := fun q => { q with shareLeft := q.shareLeft - wireLen s n }) _ fun _ => rfl

/-- A message that leaves is charged, and its port has the others left. -/
theorem sendMsg_only (p : Nat) (m : List Nat) (l : List (List Nat)) (s : State) :
    sendMsg p m l s = { s with
      link := { s.link with
        ports := (sendMsg p m l s).link.ports, ctlLeft := s.link.ctlLeft - wireLen s m.length }
      out := .tx p (etherFrame s (broadcast s 0x13 m)) :: s.out } := rfl

theorem sendMsg_msgs {p : Nat} {s : State} (hp : p < s.link.ports.length) (m : List Nat) (l : List (List Nat)) :
    (portAt (sendMsg p m l s) p).msgs = l :=
  (charge_msgs ..).trans (congrArg Port.msgs (portAt_onPort_same p (fun q => { q with msgs := l }) s hp))

/-- An answer that leaves is charged, and kept with its frame. -/
theorem sendAnswer_only (p : Nat) (a : Answer) (l : List Answer) (s : State) :
    sendAnswer p a l s = { s with
      dict := (sendAnswer p a l s).dict
      link := { s.link with
        ports := (sendAnswer p a l s).link.ports, own := l, ctlLeft := s.link.ctlLeft - wireLen s a.len }
      out := .tx p (etherFrame s (answerOctets s a)) :: s.out } := rfl

/-! ### The first transmission (R275, R300) -/

/-- A read that meets no failing word gives the frame as it stands. -/
theorem readFrame_of_clean (f : Frame) (s : State) : readFrame ⟨[], [], []⟩ f s = (f, s) := rfl

/-- Each frame that waits has its words as read. -/
def waitingRead (f : Frame) (s : State) : State := onEntered (fun x => !x.sent) (fun x => { x with frame := f }) s

/-- The frames that have been sent stay as they are. -/
theorem filter_sent_waitingRead (f : Frame) (s : State) :
    (waitingRead f s).buf.sbuf.filter (fun e => e.sent) = s.buf.sbuf.filter (fun e => e.sent) := by
  unfold waitingRead onEntered
  dsimp only
  induction s.buf.sbuf with
  | nil => rfl
  | cons e l ih => cases h : e.sent <;> simpa [h] using ih

theorem givenCredit_waitingRead (f : Frame) (s : State) : givenCredit (waitingRead f s) = givenCredit s := by
  simp only [givenCredit, filter_sent_waitingRead]
  rfl

theorem mayStart_waitingRead (p : Nat) (f : Frame) (e : Entered) (s : State) :
    mayStart (waitingRead f s) p e = mayStart s p e := by
  simp only [mayStart, givenCredit_waitingRead]
  rfl

/-- A clean read of a frame that may start is its first transmission. -/
theorem sendWaiting_of_clean {s : State} {p : Nat} {e : Entered} (hmay : mayStart s p e = true) :
    sendWaiting p ⟨[], [], []⟩ e s = firstSend p e (waitingRead e.frame s) :=
  if_pos ((mayStart_waitingRead p e.frame e s).trans hmay)

/-- A missed bound counts at its stream and raises its pennant; nothing else changes (R289). -/
theorem lateCheck_only (f : Frame) (n : Nat) (s : State) :
    lateCheck f n s = { s with
      streams := (lateCheck f n s).streams
      health := { s.health with pennants := (lateCheck f n s).health.pennants } } := by
  unfold lateCheck
  (repeat' split) <;> rfl

/-- A first transmission takes the next SSN and its credit. -/
theorem firstSend_only (p : Nat) (e : Entered) (s : State) :
    firstSend p e s = { s with
      streams := (firstSend p e s).streams
      health := { s.health with pennants := (firstSend p e s).health.pennants }
      buf := (firstSend p e s).buf
      link := { s.link with
        ports := (firstSend p e s).link.ports
        ssnNext := s.link.ssnNext + 1
        creditUsed := givenCredit s + BitVec.ofNat 32 e.frame.units }
      out := .tx p (etherFrame s (sequenced s e.frame s.link.ssnNext)) :: s.out } := by
  unfold firstSend
  extract_lets
  rw [lateCheck_only]
  rfl

/-! ### The retransmission (R278, R301) -/

/-- A clean retransmission keeps the frame's SSN, and counts at its port. -/
theorem retransmit_of_clean {s : State} {p : Nat} {r : BitVec 32} {e : Entered} (hr : s.buf.retx = some r)
    (he : s.buf.sbuf.find? (fun x => x.sent && decide (x.ssn = r)) = some e) :
    ∃ buf used, retransmit p ⟨[], [], []⟩ s = { s with
      buf := buf
      link := { s.link with
        ports := updAt (fun q => { q with retx := satInc q.retx }) p s.link.ports
        creditUsed := used }
      out := .tx p (etherFrame s (sequenced s e.frame r)) :: s.out } := by
  simp only [retransmit, hr, he, readFrame_of_clean]
  exact ⟨_, _, rfl⟩

theorem retransmit_of_none {s : State} {p : Nat} {o : ReadObs} (hr : s.buf.retx = none) : retransmit p o s = s := by
  simp only [retransmit, hr]

/-- Settles O50: the branches of R266 in their order, and what each kind of frame changes as it leaves. -/
theorem framesLeave : Obligations.FramesLeave := by
  intro s p obs hl hup hring
  have hp : p.val < s.link.ports.length := lt_of_role_ne_zero (by omega)
  rw [exec_frameTransmit hl]
  refine ⟨fun b l hb => ?_, fun f l hb hf => ?_, fun m l hb hf hm hmay hturn => ?_, fun h1 hb hf hobs => ?_⟩
  · rw [frameTransmit_of_break hup hring hb]
    exact ex_done s _ rfl rfl fun t ht => ⟨(congrArg State.out ht :), (congrArg State.link ht :), by rw [ht]; rfl⟩
  · rw [frameTransmit_of_forward hup hring hb hf]
    exact ex_done s _ rfl rfl fun t ht => ⟨(congrArg State.out ht :), (congrArg State.link ht :), by rw [ht]; rfl⟩
  · rw [frameTransmit_of_message hup hring hb hf hm hmay hturn, sendMsg_only]
    refine ex_done s _ rfl rfl fun t ht => ⟨(congrArg State.out ht :), ?_,
      (congrArg (fun t : State => t.link.ctlLeft) ht :), by rw [ht]; rfl⟩
    rw [portAt_congr (s := sendMsg p m l s) (congrArg (fun t : State => t.link.ports) ht :), sendMsg_msgs hp]
  rw [frameTransmit_of_neither hup hring hb hf, if_pos h1]
  refine ⟨fun e hw hmay hcls => ?_, fun a l hw hm ho hmay => ?_, fun r e hw hm ho hr he => ?_, fun e hw hno hm ho hr => ?_⟩
  · rw [ownTransmit_of_mayStart hw hmay hcls, hobs, sendWaiting_of_clean hmay, firstSend_only, givenCredit_waitingRead]
    exact ex_done_pennants rfl rfl fun t ht => ⟨(congrArg State.out ht :), (congrArg (fun t : State => t.link.ssnNext) ht :),
      (congrArg (fun t : State => t.link.creditUsed) ht :), by rw [ht]; rfl⟩
  · rw [ownTransmit_of_answer hw hm ho hmay, sendAnswer_only]
    exact ex_done s _ rfl rfl fun t ht => ⟨(congrArg State.out ht :), (congrArg (fun t : State => t.link.own) ht :),
      (congrArg (fun t : State => t.link.ssnNext) ht :), (congrArg (fun t : State => t.link.creditUsed) ht :), by rw [ht]; rfl⟩
  · obtain ⟨buf, used, hsent⟩ := retransmit_of_clean (p := p.val) hr he
    rw [ownTransmit_of_none_startable (by simp [hw]) hm ho, hobs, hsent]
    refine ex_done s _ rfl rfl fun t ht => ⟨(congrArg State.out ht :), (congrArg (fun t : State => t.link.ssnNext) ht :), ?_,
      by rw [ht]; rfl⟩
    rw [portAt_congr (s := onPort p (fun q => { q with retx := satInc q.retx }) s)
      (congrArg (fun t : State => t.link.ports) ht :), portAt_onPort_same p _ s hp]
  · have hnone : ∀ e, waiting s = some e → mayStart s p e = false := fun x hx => Option.some.inj (hw.symm.trans hx) ▸ hno
    rw [ownTransmit_of_none_startable hnone hm ho, retransmit_of_none hr]
    exact ex_done s s rfl rfl fun t ht => ht

end Sys2Proof.Machine

/-! SUPPORT AND PROOFS. Requests that arrive (R324, R326, R329, R336, R337). -/

namespace Sys2Proof.Machine

theorem exec_dictRequestReceive {s : State} (hl : live s = true) (p : Fin 4) (l : List Nat) :
    exec (.dictRequestReceive p l) s = done (dictReceive p.val l s) := if_pos hl

/-- A request is counted as it arrives. -/
def State.requestCounted (s : State) : State := { s with dict.requests := wrapInc s.dict.requests }

@[simp] theorem keyOf_requestCounted (s : State) (r : Role) : keyOf s.requestCounted r = keyOf s r := by cases r <;> rfl

@[simp] theorem verifyKey_requestCounted (s : State) (header payload : List Nat) :
    verifyKey s.requestCounted header payload = verifyKey s header payload := by
  simp only [verifyKey, keyOf_requestCounted]
  rfl

/-! ### The tests at receipt (R336) -/

section
variable {s : State} (p : Nat) {header payload : List Nat} (broadcast_ : Bool)

theorem receiveRequest_of_full (hfull : 64 ≤ inFlight s) :
    receiveRequest p header payload broadcast_ s =
      newAnswer ⟨none, wholeBody payload 0x0303, verifyKey s header payload, none, false⟩ s.requestCounted := by
  rw [← verifyKey_requestCounted]
  exact if_pos hfull

variable {ops : List DictOp} (hroom : inFlight s < 64) (hops : parseRequest payload = some ops)
include hroom hops

/-- Once a well-formed request has room, its role decides which tests follow. -/
theorem receiveRequest_of_room :
    receiveRequest p header payload broadcast_ s =
      if octetAt payload 0 = 0 then
        if digestBad s header payload then refuseWhole header payload 0x0602 s.requestCounted
        else enqueue p header payload s.requestCounted
      else match authTest s.requestCounted header payload with
        | 0 => receiveAuthentic p header payload broadcast_ s.requestCounted
        | 0x0106 => refuseWhole header payload 0x0106
            (raisePn 11 { s.requestCounted with dict.authFails := satInc s.dict.authFails })
        | code => refuseWhole header payload code s.requestCounted := by
  refine (if_neg (Nat.not_le.mpr hroom)).trans ?_
  rw [hops]
  rfl

theorem receiveRequest_of_observer (hrole : octetAt payload 0 = 0) (hdigest : digestBad s header payload = false) :
    receiveRequest p header payload broadcast_ s = enqueue p header payload s.requestCounted := by
  rw [receiveRequest_of_room p broadcast_ hroom hops, if_pos hrole, hdigest]
  rfl

variable (hrole : octetAt payload 0 ≠ 0)
include hrole

theorem receiveRequest_of_no_key (hkey : (keyOf s (roleNumbered (octetAt payload 0))).key = none) :
    receiveRequest p header payload broadcast_ s =
      newAnswer ⟨none, wholeBody payload 0x0107, none, none, true⟩ s.requestCounted := by
  have htest : authTest s.requestCounted header payload = 0x0107 := by simp [authTest, hkey]
  rw [receiveRequest_of_room p broadcast_ hroom hops, if_neg hrole, htest]
  rfl

theorem receiveRequest_of_bad_tag (hkey : (keyOf s (roleNumbered (octetAt payload 0))).key ≠ none)
    (htag : verifyKey s header payload = none) :
    receiveRequest p header payload broadcast_ s =
      newAnswer ⟨none, wholeBody payload 0x0106, none, none, true⟩
        (raisePn 11 { s.requestCounted with dict.authFails := satInc s.dict.authFails }) := by
  have htest : authTest s.requestCounted header payload = 0x0106 := by simp [authTest, hkey, htag]
  rw [receiveRequest_of_room p broadcast_ hroom hops, if_neg hrole, htest]
  rfl

end

/-! ### A request for the module (R263, R264) -/

section
variable {s : State} {p : Nat} {l : List Nat} (hactive : activePort s p = true) (hlong : 24 ≤ l.length)
  (hformat : octetAt l 0 / 16 = 1) (htype : hdrType l = 0x10) (hdest : hdrDest l = cfgAt s 0x1001 0)
  (hall : hdrDest l ≠ 0xFFFFF) (hme : cfgAt s 0x1001 0 ≠ 0)
include hactive hlong hformat htype hdest hall hme

/-- SOURCE decides whether a request for the module is judged. -/
theorem dictReceive_of_own :
    dictReceive p l s =
      if hdrSource l ≠ 0 then { s with link := { s.link with discards := satInc s.link.discards } }
      else receiveRequest p (hopless l) (payloadOf l) false s := by
  unfold dictReceive
  rw [hdest] at hall
  simp [hactive, hformat, htype, hdest, hall, hme, Nat.not_lt.mpr hlong]

theorem dictReceive_of_other_source (hsource : hdrSource l ≠ 0) :
    dictReceive p l s = { s with link := { s.link with discards := satInc s.link.discards } } :=
  (dictReceive_of_own hactive hlong hformat htype hdest hall hme).trans (if_pos hsource)

theorem dictReceive_of_host (hsource : hdrSource l = 0) :
    dictReceive p l s = receiveRequest p (hopless l) (payloadOf l) false s :=
  (dictReceive_of_own hactive hlong hformat htype hdest hall hme).trans (if_neg (not_not.mpr hsource))

end

/-- Settles O52: SOURCE decides whether the request is judged; each of the first tests that fails leaves its answer, and an
Observer's request that passes joins the queue. -/
theorem requestsArrive : Obligations.RequestsArrive := by
  intro s p l hl hactive hlong hformat htype hdest hall hme
  rw [exec_dictRequestReceive hl]
  refine ⟨fun hsource => ?_, fun hsource => ?_⟩
  · rw [dictReceive_of_other_source hactive hlong hformat htype hdest hall hme hsource]
    exact ex_done s _ rfl rfl fun t ht => ⟨(congrArg State.link ht :), by rw [ht]; rfl⟩
  rw [dictReceive_of_host hactive hlong hformat htype hdest hall hme hsource]
  refine ⟨fun hfull => ?_, fun ops hroom hops => ⟨fun hrole hdigest => ?_, fun hrole hkey => ?_, fun hrole hkey htag => ?_⟩⟩
  · rw [receiveRequest_of_full p.val false hfull]
    exact ex_done s _ rfl rfl fun t ht => ⟨(congrArg State.dict ht :), (congrArg State.link ht :), by rw [ht]; rfl⟩
  · rw [receiveRequest_of_observer p.val false hroom hops hrole hdigest]
    obtain ⟨t, ht, hstate⟩ := ex_done s (enqueue p.val (hopless l) (payloadOf l) s.requestCounted) rfl rfl fun _ => id
    have hrole : roleNumbered (octetAt (payloadOf l) 0) = .observer := if_pos hrole
    exact ⟨t, _, ht, (congrArg (fun t : State => t.dict.queue) hstate :), rfl, hrole, rfl, rfl, by rw [hstate]; rfl,
      by rw [hstate]; rfl⟩
  · rw [receiveRequest_of_no_key p.val false hroom hops hrole hkey]
    exact ex_done s _ rfl rfl fun t ht => ⟨(congrArg State.dict ht :), (congrArg State.link ht :), by rw [ht]; rfl⟩
  · rw [receiveRequest_of_bad_tag p.val false hroom hops hrole hkey htag]
    exact ex_done_pennants rfl rfl fun t ht => ⟨(congrArg State.dict ht :), (congrArg State.link ht :), by rw [ht]; rfl⟩

end Sys2Proof.Machine


/-! SUPPORT AND PROOFS. How a command that ends leaves its state: what holds of every next state, and the steps that run the front of
the queue. -/

namespace Sys2Proof.Machine

/-! ### One test of a chain, before the tests that follow it -/

section
variable {α : Type} {x y z : α}

theorem if_pos_trans {p : Prop} [d : Decidable p] (hp : p) (h : x = z) : (if p then x else y) = z := (if_pos hp).trans h

theorem if_neg_trans {p : Prop} [d : Decidable p] (hp : ¬p) (h : y = z) : (if p then x else y) = z := (if_neg hp).trans h

theorem if_not_trans {b : Bool} (hb : b = true) (h : y = z) : (if !b then x else y) = z :=
  if_neg_trans (ne_true_of_eq_false (congrArg not hb)) h

/-- What is read of a state that two branches agree on. -/
theorem view_ite {β : Type} (v : β → α) {p : Prop} [d : Decidable p] {a b : β} (ha : v a = z) (hb : v b = z) :
    v (if p then a else b) = z :=
  iteInduction (motive := fun x => v x = z) (fun _h => ha) fun _h => hb

end

/-! ### Equations that hold by the definitions, several at once -/

theorem eqs₂ {α β : Type} (a : α) (b : β) : a = a ∧ b = b := ⟨rfl, rfl⟩

theorem eqs₃ {α β γ : Type} (a : α) (b : β) (c : γ) : a = a ∧ b = b ∧ c = c := ⟨rfl, rfl, rfl⟩

theorem eqs₄ {α β γ δ : Type} (a : α) (b : β) (c : γ) (d : δ) : a = a ∧ b = b ∧ c = c ∧ d = d := ⟨rfl, rfl, rfl, rfl⟩

theorem eqs₅ {α β γ δ ε : Type} (a : α) (b : β) (c : γ) (d : δ) (e : ε) : a = a ∧ b = b ∧ c = c ∧ d = d ∧ e = e :=
  ⟨rfl, rfl, rfl, rfl, rfl⟩

/-! ### How a command ends -/

/-- The effect x on s, after which the flags settle as in u. -/
noncomputable def settledFrom (s x u : State) : State := { x with health := s.settledHealth u, store := s.settledStore u }

section
variable {P : State → Prop} {c : Instr} {s x y : State} {k : State → Ans} {val : List Nat}

/-- What holds of every end of the effect x from s holds of a state that ends it. -/
theorem of_settledFrom (h : ∀ u, P (settledFrom s x u)) (t : State) (ht : t = settledFrom s x t) : P t := ht.symm ▸ h t

theorem next_of_eq (hex : exec c s = .next y) (hy : y = x) (h : P x) : ∃ t, exec c s = .next t ∧ P t := ⟨y, hex, hy.symm ▸ h⟩

/-- What P says of the state y that c leaves, it reads of its view. -/
theorem next_of_view {w : State → State} {v : State} (hex : exec c s = .next y) (hw : P = fun t => P (w t)) (hy : w y = v)
    (h : P v) : ∃ t, exec c s = .next t ∧ P t :=
  ⟨y, hex, (congrFun hw y).mpr (hy.symm ▸ h)⟩

theorem exec_done {p : Prop} [d : Decidable p] (hp : p) (hex : exec c s = if p then done y else .next s) (hy : y = x) :
    exec c s = done x :=
  hex.trans (if_pos_trans hp (congrArg done hy))

/-- An event under its guard. -/
theorem done_next {p : Prop} [d : Decidable p] (hp : p) (hex : exec c s = if p then done y else .next s) (hy : y = x)
    (h : ∀ u, P (settledFrom x x u)) : ∃ t, exec c s = .next t ∧ P t :=
  ⟨settle x, exec_done hp hex hy, of_settledFrom h _ (settle_settled x)⟩

/-- An event under its guard, whose effect raises pennants at most and leaves the stores. -/
theorem event_next {p : Prop} [d : Decidable p] (hp : p) (hex : exec c s = if p then done y else .next s) (hy : y = x)
    (hh : PennantsOnly s x) (hs : x.store = s.store) (h : ∀ u, P (settledFrom s x u)) : ∃ t, exec c s = .next t ∧ P t :=
  exec_done hp hex hy ▸ ex_done_pennants hh hs (of_settledFrom h)

/-- A write that is accepted, with the answer's value. -/
theorem answered_next (hl : live s = true) (hex : exec c s = served s k) (hk : k s = ⟨0, val, x⟩) (hh : x.health = s.health)
    (hs : x.store = s.store) (h : ∀ u, P (settledFrom s (emit (.answer 0 val) x) u)) : ∃ t, exec c s = .next t ∧ P t :=
  hex.symm ▸ ex_served s k _ hl hk hh hs (of_settledFrom h)

/-- A write that is accepted and may begin a write of the keep region. -/
theorem answeredKeep_next (hl : live s = true) (hex : exec c s = served s k) (hk : k s = ⟨0, val, y⟩) (hy : Settled x y)
    (h : ∀ u, P (settledFrom x (emit (.answer 0 val) x) u)) : ∃ t, exec c s = .next t ∧ P t :=
  (hex.trans (if_pos_trans hl (congrArg answered hk))).symm ▸ ex_answered_settled x y 0 val hy (of_settledFrom h)

end

/-- Settles O1: the definition of a step, where a command waits. -/
theorem stepRunsFront : Obligations.StepRunsFront := by
  intro c rest s h
  rw [step, h]

end Sys2Proof.Machine


/-! SUPPORT AND PROOFS. The shadow and the hoist (R340, R341). -/

namespace Sys2Proof.Machine

/-! ### HOIST (R341) -/

/-- The answer of a hoist that its tests judge so. -/
noncomputable def hoistAnswer (k : BitVec 128) (r : Role) (s : State) (j : Nat × State) : Ans :=
  if j.1 ≠ 0 then refuse j.1 j.2
  else ⟨0, octetsOf 8 (directTick s).toNat, schedDirect .hoist r (directTick s) (hoistTake k r j.2)⟩

section
variable {s : State} {r : Role} (k : BitVec 128) (hm : s.power.mode = .ready ∨ s.power.mode = .run)
  (hr : roleOk r (hoistRole s) = true) (hc : calBars s (directTick s) = false)
include hm hr hc

/-- In READY and RUN a hoist is judged by its tests. -/
theorem hoistWrite_judged {j : Nat × State} (h : hoistJudge k (directTick s) (directCourse s) s = j) :
    hoistWrite r k s = hoistAnswer k r s j :=
  (gate_pass _ _ _ _ _ _ hr rfl (hm.elim (congrArg [Mode.calibrate, .ready, .run].contains)
    (congrArg [Mode.calibrate, .ready, .run].contains))).trans
    (if_neg_trans (fun k => Bool.false_ne_true (k.elim (congrArg not (readyFor_of_readyRun hm _)).symm.trans hc.symm.trans))
      (congrArg (hoistAnswer k r s) h))

theorem hoist_accepted_next (hnone : s.conf.hoist = none)
    (htests : (hoistTests s s.conf.shadow k (directCourse s) (aroundTick s (directTick s))).2 = 0) :
    ∃ t, exec (.hoist r k) s = .next t ∧ t.out = .answer 0 (octetsOf 8 (directTick s).toNat) :: s.out ∧
      t.conf = { s.conf with hoist := some ⟨s.conf.shadow, k, r⟩, shadow := [] } ∧
      t.act = { s.act with sched := s.act.sched ++ [⟨none, 0, 0, r, .hoist, directTick s, 0, 3, s.time.tw⟩] } ∧
      t = { s with conf := t.conf, act := t.act, out := t.out, health := s.settledHealth t, store := s.settledStore t } :=
  answered_next (val := octetsOf 8 (directTick s).toNat) (x := schedDirect .hoist r (directTick s) (hoistTake k r s)) (live_of_readyRun hm) rfl
    (hoistWrite_judged k hm hr hc (hoistJudge_accepted hnone htests)) rfl rfl
    fun _u => eqs₄ _ _ _ _

theorem hoist_pending_next (hsome : s.conf.hoist.isSome = true) :
    ∃ t, exec (.hoist r k) s = .next t ∧ s.AnsweredOnly t 0x0304 :=
  served_refuse (k := hoistWrite r k) (live_of_readyRun hm) (hoistWrite_judged k hm hr hc (if_pos hsome))

end

/-! ### SHADOW_DISCARD (R340) -/

/-- The value of a discard names the entry: this one, or all of them. -/
noncomputable def discards (v : BitVec 32) (k : Nat) : Bool := decide (v = 0xFFFFFFFF) || decide (k = v.toNat)

theorem discards_one {v : BitVec 32} (hv : v.toNat < 2 ^ 24) (k : Nat) : discards v k = decide (k = v.toNat) :=
  congrArg (· || decide (k = v.toNat)) (decide_eq_false fun h => absurd (h ▸ hv) (by decide))

/-- s with this shadow. -/
noncomputable def shadowed (l : KV) (s : State) : State := { s with conf.shadow := l }

theorem any_and_not {α : Type} {l : List α} {p q : α → Bool} (h : ∀ x ∈ l, p x = true → q x = true) :
    (l.any fun x => p x && !q x) = false :=
  List.any_eq_false.2 fun x hx k =>
    Bool.false_ne_true ((congrArg not (h x hx (Bool.and_elim_left k))).symm.trans (Bool.and_elim_right k))

section
variable {s : State} {r : Role} (hl : live s = true) (hr : roleOk r .operator = true)
include hl hr

/-- What the value of a discard names is written by the role, and leaves l behind. -/
theorem discardWrite_accepts {v : BitVec 32} {l : KV} (hform : ¬(v ≠ 0xFFFFFFFF ∧ bits v.toNat 31 24 ≠ 0))
    (hone : (decide (v ≠ 0xFFFFFFFF) && !roleOk r (writeRole v.toNat)) = false)
    (hroles : ∀ p ∈ s.conf.shadow, discards v p.1 = true → roleOk r (writeRole p.1) = true)
    (hleft : s.conf.shadow.filter (fun p => !discards v p.1) = l) : discardWrite r v s = accept (shadowed l s) :=
  if_not_trans hr (if_neg_trans hform (if_not_trans (servedModes_contains hl)
    (if_neg_trans (fun k => (Bool.or_eq_true_iff.1 k).elim (ne_true_of_eq_false hone) (ne_true_of_eq_false (any_and_not hroles)))
      (congrArg (fun l => accept (shadowed l s)) hleft))))

theorem shadowDiscard_all (hroles : ∀ p ∈ s.conf.shadow, roleOk r (writeRole p.1) = true) :
    ∃ t, exec (.shadowDiscard r 0xFFFFFFFF) s = .next t ∧ t.out = .answer 0 [] :: s.out ∧
      t = { s with conf := { s.conf with shadow := [] }, out := t.out, health := s.settledHealth t, store := s.settledStore t } :=
  answered_next hl rfl
    (discardWrite_accepts hl hr (fun h => h.1 rfl) rfl (fun p hp _ => hroles p hp) (List.filter_eq_nil_iff.2 fun _ _ => Bool.false_ne_true))
    rfl rfl fun _u => eqs₂ _ _

theorem shadowDiscard_one {v : BitVec 32} (hv : v.toNat < 2 ^ 24) (hrole : roleOk r (writeRole v.toNat) = true) :
    ∃ t, exec (.shadowDiscard r v) s = .next t ∧ t.out = .answer 0 [] :: s.out ∧
      t.conf = { s.conf with shadow := s.conf.shadow.filter fun p => decide (p.1 ≠ v.toNat) } ∧
      t = { s with conf := t.conf, out := t.out, health := s.settledHealth t, store := s.settledStore t } :=
  answered_next hl rfl
    (discardWrite_accepts hl hr (fun h => h.2 (congrArg (fun n => n % 2 ^ 8) ((Nat.shiftRight_eq_div_pow _ _).trans (Nat.div_eq_of_lt hv))))
      (Bool.and_eq_false_iff.2 (.inr (congrArg not hrole)))
      (fun p _ h => of_decide_eq_true ((discards_one hv p.1).symm.trans h) ▸ hrole)
      (List.filter_congr fun p _ => (congrArg not (discards_one hv p.1)).trans decide_not.symm))
    rfl rfl fun _u => eqs₃ _ _ _

end

/-- Settles O57: a hoist by its tests, a discard by the entries that its value names. -/
theorem shadowAndHoist : Obligations.ShadowAndHoist :=
  fun _ _ => ⟨fun k hm hr hc => ⟨hoist_accepted_next k hm hr hc, hoist_pending_next k hm hr hc⟩, fun hl hroles hr =>
    ⟨shadowDiscard_all hl hr hroles, fun _ hv hrole => shadowDiscard_one hl hr hv hrole⟩⟩

end Sys2Proof.Machine


/-! SUPPORT AND PROOFS. The end of WARM (R77, R380), levels and gating (R382, R384). -/

namespace Sys2Proof.Machine

/-! ### The end of WARM -/

theorem live_of_warm {s : State} (hm : s.power.mode = .warm) : live s = true := congrArg Mode.live hm

/-- s at the end of WARM. -/
noncomputable def warmEnded (s : State) : State := { s with power.warmWait := 0, cal := { s.cal with fromWarm := true } }

/-- s once WARM has lasted 900 s. -/
noncomputable def warmLate (s : State) : State := raisePn 3 { s with power.warmOver := true }

/-- Settles O13: each of the two by its guard; the pennant of the overtime is part of what settles. -/
theorem warmEnds : Obligations.WarmEnds := fun s hm =>
  ⟨fun ho hf => event_next (live_of_warm hm) rfl (if_pos (t := warmEnded s) ⟨hm, ho, congrArg not hf⟩) rfl rfl fun _u => rfl,
    fun ho hover htime => event_next (live_of_warm hm) rfl (if_pos (t := warmLate s) ⟨hm, htime, ho, congrArg not hover⟩) rfl rfl
      fun _u => rfl⟩

/-! ### Levels and gating -/

/-- s with these states of the gates. -/
noncomputable def gated (l : List Nat) (s : State) : State := { s with clocks.gateState := l }

/-- A block that goes idle is gated where a request stands. -/
theorem gateIdle_eq (d : Nat) (s : State) :
    gateIdle d s = gated (if gateOf s d = 1 then s.clocks.gateState.set d 2 else s.clocks.gateState) s :=
  (apply_ite (gated · s) _ _ _).symm

/-- s at performance level l, after a change of this length. -/
noncomputable def levelled (windowNs l : Nat) (s : State) : State :=
  { s with clocks := { s.clocks with perfNow := l, perfTarget := none, perfLast := some windowNs } }

/-- s with the request of domain d run out. -/
noncomputable def gateFailed (d : Nat) (s : State) : State :=
  raisePn 3 { gated (s.clocks.gateState.set d 0) s with clocks.gateFails := updAt satInc d s.clocks.gateFails }

section
variable {s : State} (hl : live s = true)
include hl

theorem perfLevelChangeDone_next (windowNs : Nat) (l : Nat) (hp : s.clocks.perfTarget = some l) :
    ∃ t, exec (.perfLevelChangeDone windowNs) s = .next t ∧
      t.clocks = { s.clocks with perfNow := l, perfTarget := none, perfLast := some windowNs } ∧
      t = { s with clocks := t.clocks, health := s.settledHealth t, store := s.settledStore t } :=
  event_next (x := levelled windowNs l s) hl rfl
    (congrArg (fun o : Option Nat => match o with | some l => levelled windowNs l s | none => s) hp) rfl rfl
    fun _u => eqs₂ _ _

theorem gateIdleSignal_next (d : Fin 11) :
    ∃ t, exec (.gateIdleSignal d) s = .next t ∧
      t.clocks.gateState = (if gateOf s d.val = 1 then s.clocks.gateState.set d.val 2 else s.clocks.gateState) ∧
      t = { s with clocks := { s.clocks with gateState := t.clocks.gateState },
                   health := s.settledHealth t, store := s.settledStore t } :=
  event_next hl rfl (gateIdle_eq d.val s) rfl rfl
    fun _u => eqs₂ _ _

theorem gateTimeout_next (d : Fin 11) :
    ∃ t, exec (.gateTimeout d) s = .next t ∧
      (gateOf s d.val = 1 → t.clocks.gateState = s.clocks.gateState.set d.val 0 ∧
        t.clocks.gateFails = updAt satInc d.val s.clocks.gateFails) ∧
      (gateOf s d.val ≠ 1 → t.clocks = s.clocks) ∧
      t = { s with clocks := t.clocks, health := s.settledHealth t, store := s.settledStore t } := by
  by_cases hg : gateOf s d.val = 1
  · exact event_next hl rfl (if_pos (t := gateFailed d.val s) hg) rfl rfl
      fun _u => ⟨fun _h => eqs₂ _ _, fun hn => absurd hg hn, rfl⟩
  · exact event_next hl rfl (if_neg (t := gateFailed d.val s) hg) rfl rfl fun _u => ⟨fun hp => absurd hp hg, fun _h => rfl, rfl⟩

end

/-- Settles O60: each step writes the clocks alone, by the target of the level change and by GATE_STATE of the domain. -/
theorem levelsAndGates : Obligations.LevelsAndGates :=
  fun _ hl => ⟨perfLevelChangeDone_next hl, fun d => ⟨gateIdleSignal_next hl d, gateTimeout_next hl d⟩⟩

end Sys2Proof.Machine


/-! SUPPORT AND PROOFS. Keys and the replay store (R324, R325, R327), and the Observer, who writes nothing (R323). -/

namespace Sys2Proof.Machine

/-! ### The write of a key -/

section
variable {s : State} {which : Role} (hw : which ≠ .observer)
include hw

/-- A role with a key is the Operator or the Custodian. -/
theorem of_keyed {P : Role → Prop} (ho : P .operator) (hc : P .custodian) : P which :=
  which.rec (motive := fun r => r ≠ .observer → P r) (fun h => absurd rfl h) (fun _h => ho) (fun _h => hc) hw

theorem keyOf_putKey (x : KeyState) : keyOf (putKey which x s) which = x :=
  of_keyed (P := fun r => keyOf (putKey r x s) r = x) hw rfl rfl

/-! A key that anyone but the Custodian writes is refused for the role. -/

theorem observer_key_refused (v : Nat) : hostWrite .observer (key 0x1200 (Role.rank which)) 32 v s = refuse 0x0105 s :=
  of_keyed (P := fun w => hostWrite .observer (key 0x1200 (Role.rank w)) 32 v s = refuse 0x0105 s) hw rfl rfl

theorem operator_key_refused (v : Nat) : hostWrite .operator (key 0x1200 (Role.rank which)) 32 v s = refuse 0x0105 s :=
  of_keyed (P := fun w => hostWrite .operator (key 0x1200 (Role.rank w)) 32 v s = refuse 0x0105 s) hw rfl rfl

/-- A key of zeros is out of range. -/
theorem hostWrite_key_zero : hostWrite .custodian (key 0x1200 (Role.rank which)) 32 0 s = refuse 0x0201 s :=
  of_keyed (P := fun w => hostWrite .custodian (key 0x1200 (Role.rank w)) 32 0 s = refuse 0x0201 s) hw rfl rfl

theorem hostWrite_key {v : Nat} :
    v ≠ 0 → hostWrite .custodian (key 0x1200 (Role.rank which)) 32 v s = accept (changeKey which (BitVec.ofNat 256 v) s) :=
  v.rec (fun h => absurd rfl h) fun n _ih _h => of_keyed
    (P := fun w => hostWrite .custodian (key 0x1200 (Role.rank w)) 32 (n + 1) s = accept (changeKey w (BitVec.ofNat 256 (n + 1)) s)) hw
    rfl rfl

theorem hostWrite_key_accepts {k : BitVec 256} (hk : k ≠ 0) :
    hostWrite .custodian (key 0x1200 (Role.rank which)) 32 k.toNat s = accept (changeKey which k s) :=
  (hostWrite_key hw fun h => hk (BitVec.eq_of_toNat_eq h)).trans
    (congrArg (fun k => accept (changeKey which k s)) ((BitVec.ofNat_toNat 256 k).trans (BitVec.setWidth_eq k)))

end

theorem keyOf_putKey_other {which r : Role} (x : KeyState) (s : State) (h : r ≠ which) : keyOf (putKey which x s) r = keyOf s r := by
  induction which with
  | observer => rfl
  | operator => induction r with
    | operator => exact absurd rfl h
    | observer | custodian => rfl
  | custodian => induction r with
    | custodian => exact absurd rfl h
    | observer | operator => rfl

/-- s with x as the key of a role, in the dictionary alone. -/
noncomputable def keyed (r : Role) (x : KeyState) (s : State) : State := { s with dict := (putKey r x s).dict }

theorem putKey_eq (r : Role) (x : KeyState) (s : State) : putKey r x s = keyed r x s := r.rec rfl rfl rfl

/-- The state of a key as it is changed (R325). -/
noncomputable def keyChanged (r : Role) (k : BitVec 256) (s : State) : KeyState :=
  ⟨some k, (keyOf s r).gen + 1, (keyOf s r).key, s.time.pt + cfgAt s 0x1202 0 * 256000000000⟩

theorem settled_changeKey (r : Role) (k : BitVec 256) (s : State) : Settled (keyed r (keyChanged r k s) s) (changeKey r k s) :=
  (putKey_eq r (keyChanged r k s) s).subst (motive := fun x => Settled x (changeKey r k s)) (settled_keepSave _)

/-! ### The steps -/

section
variable {s : State} (hl : live s = true)
include hl

theorem keyWrite_next (which : Role) (k : BitVec 256) (hw : which ≠ .observer) (hk : k ≠ 0) :
    ∃ t, exec (.keyWrite .custodian which k) s = .next t ∧ t.out = .answer 0 [] :: s.out ∧
      keyOf t which = ⟨some k, (keyOf s which).gen + 1, (keyOf s which).key, s.time.pt + cfgAt s 0x1202 0 * 256000000000⟩ ∧
      (∀ r, r ≠ which → keyOf t r = keyOf s r) ∧
      t = { s with dict := t.dict, out := t.out, health := s.settledHealth t, store := s.settledStore t } :=
  answeredKeep_next hl rfl (hostWrite_key_accepts hw hk) (settled_changeKey which k s)
    fun _u => ⟨rfl, keyOf_putKey hw _, fun _r hr => keyOf_putKey_other _ s hr, rfl⟩

theorem keyGraceExpiry_next (r : Role) :
    ∃ t, exec (.keyGraceExpiry r) s = .next t ∧
      (r ≠ .observer → keyOf t r = { keyOf s r with prev := none }) ∧ (∀ x, x ≠ r → keyOf t x = keyOf s x) ∧
      t = { s with dict := t.dict, health := s.settledHealth t, store := s.settledStore t } :=
  event_next hl rfl (putKey_eq r _ s) rfl rfl fun _u => ⟨fun hr => keyOf_putKey hr _, fun _x hx => keyOf_putKey_other _ s hx, rfl⟩

/-- s without the replay entries that have left the window. -/
noncomputable def replayed (s : State) : State := { s with dict.replay := s.dict.replay.filter fun e => issuedOk s e.issued }

theorem replayEntryExpiry_next :
    ∃ t, exec .replayEntryExpiry s = .next t ∧
      t.dict = { s.dict with replay := s.dict.replay.filter fun e => issuedOk s e.issued } ∧
      t = { s with dict := t.dict, health := s.settledHealth t, store := s.settledStore t } :=
  event_next (x := replayed s) hl rfl rfl rfl rfl fun _u => eqs₂ _ _

end

/-- Settles O54: the four writes and ends by the key of the role that each puts. -/
theorem keysAndReplay : Obligations.KeysAndReplay :=
  fun _ hl => ⟨keyWrite_next hl, fun _ hw => ⟨served_refuse hl (hostWrite_key_zero hw),
    fun _k => served_refuse hl (operator_key_refused hw _)⟩, keyGraceExpiry_next hl, replayEntryExpiry_next hl⟩

end Sys2Proof.Machine


/-! SUPPORT AND PROOFS. The Observer writes nothing (R323). -/

namespace Sys2Proof.Machine

/-- What the Observer writes by c is refused for the role, and changes nothing else. -/
def ObserverRefused (c : Instr) : Prop :=
  ∀ s, live s = true → c.writeRole = some .observer → ∃ t, exec c s = .next t ∧ s.AnsweredOnly t 0x0105

theorem observerRefused_of_none (c : Instr) (h : c.writeRole = none) : ObserverRefused c :=
  fun _s _hl k => absurd (h.symm.trans k).symm (Option.some_ne_none _)

section
variable {α : Type} {c : Role → α → Instr} (hw : ∀ r a, (c r a).writeRole = some r)
include hw

/-- A write of any role that refuses the Observer. -/
theorem observerRefused_of_write {k : α → State → Ans} (hk : ∀ a s, k a s = refuse 0x0105 s)
    (hex : ∀ a s, exec (c .observer a) s = served s (k a)) (r : Role) (a : α) : ObserverRefused (c r a) := fun s hl hr =>
  Option.some.inj ((hw r a).symm.trans hr) ▸ hex a s ▸ served_refuse hl (hk a s)

theorem observerRefused_of_role (hex : ∀ a s, exec (c .observer a) s = served s (refuse 0x0105)) (r : Role) (a : α) :
    ObserverRefused (c r a) :=
  observerRefused_of_write hw (fun _a _s => rfl) hex r a

end

theorem taSubmit_observer (d : BitVec 256) (s : State) : taSubmit .observer d s = refuse 0x0105 s :=
  if_pos (congrArg not (view_ite (roleOk .observer) rfl rfl : roleOk .observer (descRole d) = false))

theorem roleOk_opRole (op : Op) : roleOk .observer (opRole op) = false := by induction op <;> rfl

theorem roleOk_cancelRole (o : Option Sched) : roleOk .observer (match o with | some e => opRole e.op | none => .operator) = false := by
  induction o with
  | none => rfl
  | some e => exact roleOk_opRole e.op

theorem taCancel_observer (h : BitVec 16) (s : State) : taCancel .observer h s = refuse 0x0105 s :=
  if_pos (congrArg not (roleOk_cancelRole _))

theorem hoistWrite_observer (k : BitVec 128) (s : State) : hoistWrite .observer k s = refuse 0x0105 s :=
  if_pos (congrArg not (view_ite (roleOk .observer) rfl rfl : roleOk .observer (hoistRole s) = false))

/-- A submission tests the role of its operation. -/
theorem observerRefused_of_submit {c : Role → BitVec 256 → Instr} (hw : ∀ r d, (c r d).writeRole = some r)
    (hex : ∀ d s, exec (c .observer d) s = served s (taSubmit .observer d)) : ∀ r d, ObserverRefused (c r d) :=
  observerRefused_of_write hw taSubmit_observer hex

set_option tactic.hygienic false in
/-- Every entry with a rule of its own tests the role first. -/
theorem observerRefused : ∀ c, ObserverRefused c := by
  apply @Instr.rec ObserverRefused
  case hoist =>
    exact observerRefused_of_write (fun r _a => (rfl : some r = _)) hoistWrite_observer fun k s => (rfl : served s (hoistWrite .observer k) = _)
  case taCancel =>
    exact observerRefused_of_write (fun r _a => (rfl : some r = _)) taCancel_observer fun k s => (rfl : served s (taCancel .observer k) = _)
  case taSubmitStartStreams | taSubmitStopStreams | taSubmitTrgArm | taSubmitHoist | taSubmitOwc | taSubmitStepTime | taSubmitXfade =>
    exact observerRefused_of_submit (fun r _a => (rfl : some r = _)) fun d s => (rfl : served s (taSubmit .observer d) = _)
  case calStart | auxLaunch | auxInject | auxCalStart | auxRingRead | evRingRead | timeEpochWrite | firSeal | firLoadFactory
      | firXfadeStart | owcStart | streamStart | streamStop | trgArm | trgDisarm | timeStep | timeSet | rerouteConfirm
      | rerouteApplyAsym | shadowDiscard | moduleReset | hibernate | pennantDip =>
    exact observerRefused_of_role (fun r _a => (rfl : some r = _)) fun _a s => (rfl : served s (refuse 0x0105) = _)
  case refbufEnableWrite =>
    exact fun r g v => observerRefused_of_role (c := fun r v => .refbufEnableWrite r g v)
      (fun r _a => (rfl : some r = _)) (fun _a s => (rfl : served s (refuse 0x0105) = _)) r v
  case trgMissClear =>
    exact fun r u v => observerRefused_of_role (c := fun r v => .trgMissClear r u v)
      (fun r _a => (rfl : some r = _)) (fun _a s => (rfl : served s (refuse 0x0105) = _)) r v
  case firCoefWrite =>
    exact fun r g b i v => observerRefused_of_role (c := fun r v => .firCoefWrite r g b i v)
      (fun r _a => (rfl : some r = _)) (fun _a s => (rfl : served s (refuse 0x0105) = _)) r v
  all_goals intros; exact observerRefused_of_none _ (rfl : none = _)

/-- Settles O9: every entry with a rule of its own tests the role first, and so does a key and IDENTITY_SERIAL_MATCH. -/
theorem observerWritesNothing : Obligations.ObserverWritesNothing :=
  fun s hl => ⟨fun c => observerRefused c s hl, fun _r k hw => served_refuse hl (observer_key_refused hw k.toNat),
    fun v => served_refuse (k := hostWrite .observer (key 0x1001 1) 4 v.toNat) hl rfl⟩

end Sys2Proof.Machine


/-! SUPPORT AND PROOFS. The end of BOOT (R16, R30, R70, R324, R353, R356, R358, R363, R433, R451). -/

namespace Sys2Proof.Machine

/-- What of a state the end of BOOT speaks of. -/
noncomputable def bootView (s : State) : State :=
  { State.reset with
    power.mode := s.power.mode, time := { State.reset.time with tw := s.time.tw, frac := s.time.frac, epoch := s.time.epoch }
    ref := s.ref, dict := s.dict, conf := s.conf, ptp.state := s.ptp.state, store.slotState := s.store.slotState }

theorem bootView_settle (s : State) : bootView (settle s) = bootView s :=
  (congrArg bootView (settle_settled s)).trans rfl

theorem bootView_imageSave (s : State) : bootView (imageSave s) = bootView s := by
  refine view_ite bootView rfl ?_
  generalize s.store.writing = w
  induction w with
  | none => rfl
  | some w => exact view_ite bootView rfl rfl

theorem bootView_bootMirror (s : State) : bootView (bootMirror s) = bootView s := by
  unfold bootMirror
  generalize s.store.slotState = code
  match code with
  | 0 => rfl
  | 1 =>
    generalize slotNewest s = o
    induction o with
    | none => rfl
    | some i => exact view_ite bootView rfl rfl
  | 2 => rfl
  | 3 => exact bootView_imageSave s
  | _ + 4 => rfl

theorem bootView_flagged (s : State) :
    bootView (if s.store.bootBank = 2 ∨ 3 ≤ s.store.slotState then raisePn 10 s else s) = bootView s := view_ite bootView rfl rfl

theorem bootView_bootLevel (s : State) : bootView (bootLevel s) = bootView s := view_ite bootView rfl rfl

theorem bootView_bootOut (m : Mode) {s t : State} (h : bootView t = bootView s) : bootView (bootOut m t) = bootView (bootOut m s) :=
  show bootView (bootOut m (bootView t)) = bootView (bootOut m (bootView s)) from congrArg (fun v => bootView (bootOut m v)) h

/-- The keep region and the configuration are loaded. -/
noncomputable def bootLoaded (slot : BootRead) (s : State) : State := loadImage slot (loadKeep { s with store := s.store.read slot })

/-- What the end of BOOT speaks of, of a state with these contents of the keep region. -/
noncomputable def bootSeen (m : Mode) (slot : BootRead) (s : State) (k : TimeEng × RefState × Dict) : State :=
  bootView (bootOut m { bootLoaded slot s with time := k.1, ref := k.2.1, dict := k.2.2 })

/-- What the keep region gives stays when the image is loaded. -/
theorem bootSeen_loadCal (m : Mode) (slot : BootRead) (s k : State) (o : Option CalRecord) :
    bootSeen m slot s ((loadCal o k).time, (loadCal o k).ref, (loadCal o k).dict) = bootSeen m slot s (k.time, k.ref, k.dict) := by
  induction o <;> rfl

theorem bootView_bootComplete {ok : Bool} {slot : BootRead} {s : State} (hm : s.power.mode = .boot) (hh : s.power.bootHeld = false) :
    bootView (bootComplete ok slot s) = bootView (bootOut (if ok then .warm else .safe) (bootLoaded slot s)) :=
  (congrArg bootView (if_neg (not_or_intro (not_not_intro hm) (ne_true_of_eq_false hh)))).trans ((bootView_bootMirror _).trans
    ((bootView_flagged _).trans (bootView_bootOut _ (bootView_bootLevel (bootLoaded slot s)))))

/-- Settles O12: what is loaded stays to the end of BOOT, where the time word and the network time begin. -/
theorem bootEnds : Obligations.BootEnds := by
  intro s ok slot hm hh r
  have h := (bootView_settle _).trans ((bootView_bootComplete hm hh).trans (bootSeen_loadCal (if ok then .warm else .safe) slot s (loadKeep r) _))
  exact next_of_view (w := bootView) rfl rfl h ⟨rfl, rfl, rfl, rfl, rfl, rfl, eqs₅ _ _ _ _ _⟩

end Sys2Proof.Machine


/-! SUPPORT AND PROOFS. Supply and contacts: VMAIN and WAKE (R385 to R387), RESET_N and the reset command (R345, R388, R424), and
HIBERNATE by command (R387). -/

namespace Sys2Proof.Machine

/-! ### How BOOT begins (R388, R424) -/

/-- s with this instruction of boundary scan and its cells. -/
noncomputable def withScan (x : JtagInstr × JtagCells) (s : State) : State :=
  { s with power := { s.power with jtag := x.1, jtagCells := x.2 } }

/-- s at the begin of BOOT: everything volatile at its value after power, the contacts as they are, and RESET_N low holds BOOT at its
first step. Out of HIBERNATE it keeps what it knows of WAKE, and the time that is left. -/
noncomputable def booted (cause : Nat) (hibWake : Bool) (hibUntil : Option Nat) (s : State) : State :=
  let t := withScan (if s.power.mode.clocked then (s.power.jtag, s.power.jtagCells) else (Power.init.jtag, Power.init.jtagCells))
    (fresh (cold .boot s)).2
  { t with
    power := { t.power with
      bootCause := cause, bootHeld := s.power.resetLow, fellInSafe := s.power.fellInSafe, hibWake, hibUntil }
    clocks.tune := tuneNominal
    modPhase := (fresh (cold .boot s)).1 }

theorem bootStart_eq (cause : Nat) (s : State) : bootStart cause s = booted cause false none s :=
  congrArg
    (fun t : State => { t with
      power := { t.power with bootCause := cause, bootHeld := t.power.resetLow, fellInSafe := s.power.fellInSafe }
      clocks.tune := tuneNominal
      modPhase := (fresh (cold .boot s)).1 })
    (apply_ite (withScan · (fresh (cold .boot s)).2) (s.power.mode.clocked = true) (s.power.jtag, s.power.jtagCells)
      (Power.init.jtag, Power.init.jtagCells)).symm

/-- The end of the span in which a BOOT out of HIBERNATE begins, from that begin. -/
noncomputable def hibLeft (s : State) : Nat := match s.power.hibUntil with | some u => u - s.time.pt | none => hibSpan

theorem hibExit_eq (s : State) :
    hibExit s = booted (if s.power.hibWake && !s.power.resetLow then 1 else 2) s.power.hibWake (some (hibLeft s)) s :=
  congrArg (fun t : State => { t with power := { t.power with hibWake := s.power.hibWake, hibUntil := some (hibLeft s) } })
    (bootStart_eq _ s)

/-- Until BOOT out of HIBERNATE begins the module is in BOOT. -/
theorem mode_of_hibSoon {s : State} (h : hibSoon s = true) : s.power.mode = .boot :=
  of_decide_eq_true (Bool.and_eq_true_iff.1 h).1

/-! ### RESET_N and the reset command (R345, R388, R424) -/

/-- RESET_N at a level; a BOOT that it holds remembers whether it fell in SAFE. -/
noncomputable def resetSet (low inSafe : Bool) (s : State) : State := { s with power := { s.power with resetLow := low, fellInSafe := inSafe } }

/-- Whether RESET_N, low by now, fell in SAFE. -/
noncomputable def fellInSafe (s : State) : Bool := if s.power.resetLow then s.power.fellInSafe else decide (s.power.mode = .safe)

/-- BOOT out of HIBERNATE, or from where it began. -/
noncomputable def bootedFrom (hib : Bool) (cause : Nat) (s : State) : State :=
  booted cause (hib && s.power.hibWake) (if hib then some (hibLeft s) else none) s

/-- Out of HIBERNATE, with RESET_N high, WAKE decides the boot cause. -/
theorem boots_of_high (b : Bool) (cause : Nat) (s : State) :
    (if b then hibExit (resetSet false false s) else bootStart cause (resetSet false false s)) =
      bootedFrom b (if b then (if s.power.hibWake then 1 else 2) else cause) (resetSet false false s) := by
  induction b with
  | true =>
    exact (hibExit_eq (resetSet false false s)).trans
      (congrArg (fun b => booted (if b then 1 else 2) _ _ _) (Bool.and_true s.power.hibWake))
  | false => exact bootStart_eq _ _

/-- With RESET_N low the boot cause out of HIBERNATE is 2. -/
theorem boots_of_low {p : Prop} [d : Decidable p] {i j : Nat} (f : Bool) (s : State) (hp : p → 2 = j) (hn : ¬p → i = j) :
    (if p then hibExit (resetSet true f s) else bootStart i (resetSet true f s)) = bootedFrom (decide p) j (resetSet true f s) := by
  induction d with
  | isTrue h =>
    exact (hibExit_eq (resetSet true f s)).trans (congrArg (fun i => bootedFrom true i (resetSet true f s))
      ((congrArg (fun b : Bool => if b then 1 else 2) (Bool.and_false s.power.hibWake)).trans (hp h)))
  | isFalse h => exact (bootStart_eq i _).trans (congrArg (fun i => bootedFrom false i (resetSet true f s)) (hn h))

section
variable {s : State}

/-- Neither HIBERNATE nor a BOOT out of it is SAFE. -/
theorem not_safe_of_hib (h : s.power.mode = .hibernate ∨ hibSoon s = true) : s.power.mode ≠ .safe := fun hs =>
  h.elim (fun h => Mode.noConfusion (hs.symm.trans h)) fun h => Mode.noConfusion (hs.symm.trans (mode_of_hibSoon h))

theorem fellInSafe_of_high (hr : s.power.resetLow = false) : fellInSafe s = true ↔ s.power.mode = .safe :=
  (if_neg (ne_true_of_eq_false hr)).symm.subst (motive := fun b : Bool => b = true ↔ s.power.mode = .safe) decide_eq_true_iff

theorem resetFall_boots (hm : s.power.mode ≠ .off) (hr : s.power.resetLow = false) :
    resetFall s = bootedFrom (decide (s.power.mode = .hibernate ∨ hibSoon s = true)) (if s.power.mode = .safe then 4 else 2)
      (resetSet true (fellInSafe s) s) :=
  if_neg_trans (x := resetSet true (fellInSafe s) s) hm
    (boots_of_low (p := s.power.mode = .hibernate ∨ hibSoon s = true) (fellInSafe s) s (fun h => (if_neg (not_safe_of_hib h)).symm)
    fun _h => if_congr (fellInSafe_of_high hr) rfl rfl)

theorem resetRise_boots (hr : s.power.resetLow = true) (hh : s.power.bootHeld = true) :
    resetRise s = bootedFrom (hibSoon s)
      (if hibSoon s then (if s.power.hibWake then 1 else 2) else if s.power.fellInSafe then 4 else 2) (resetSet false false s) :=
  if_pos_trans hr (if_not_trans hh (boots_of_high (hibSoon s) _ s))

theorem resetEntry_boots {cause : Nat} (hl : live s = true) (hc : s.power.resetEntry = some cause) :
    resetEntry s = bootedFrom false cause s :=
  (congrArg (fun o : Option Nat => match o with | some c => if live s then bootStart c s else s | none => s) hc).trans
    (if_pos_trans hl (bootStart_eq cause s))

end

/-- Settles O11: RESET_N out of HIBERNATE, or before a BOOT out of it, takes that way; elsewhere BOOT begins anew. -/
theorem resetsStartBoot : Obligations.ResetsStartBoot := by
  refine fun s => ⟨fun hm hr => ?_, fun hm => ?_, fun hr hh => ?_, fun hl => ?_, fun cause hl hc => ?_⟩
  · exact next_of_eq rfl (resetFall_boots hm hr) ⟨rfl, eqs₅ _ _ _ _ _⟩
  · exact next_of_eq (x := resetSet true (fellInSafe s) s) rfl (if_pos hm) ⟨hm, eqs₂ _ _⟩
  · exact next_of_eq rfl (resetRise_boots hr hh) (eqs₄ _ _ _ _)
  · exact answered_next hl rfl (gate_pass _ _ _ _ _ _ rfl rfl (servedModes_contains hl)) rfl rfl fun _u => eqs₃ _ _ _
  · exact next_of_eq rfl (resetEntry_boots hl hc) (eqs₅ _ _ _ _ _)

end Sys2Proof.Machine


/-! SUPPORT AND PROOFS. VMAIN and WAKE (R385 to R387), and HIBERNATE by command (R387). -/

namespace Sys2Proof.Machine

/-! ### The supply and WAKE (R385 to R387) -/

/-- WAKE at a level; an entry into HIBERNATE under way remembers that it was asserted. -/
noncomputable def wakeSet (level : Bool) (s : State) : State :=
  { s with power := { s.power with wake := level, wakeSeen := s.power.hibEntry && (level || s.power.wakeSeen) } }

/-- s at its exit from HIBERNATE by WAKE. -/
noncomputable def wakeTaken (s : State) : State := { wakeSet true s with power := { (wakeSet true s).power with hibWake := true } }

/-- The boot cause out of HIBERNATE, where WAKE has qualified (R388). -/
theorem wakeCause_eq (low : Bool) : (if true && !low then 1 else 2) = if low then 2 else 1 := by induction low <;> rfl

section
variable {s : State} (hv : s.power.vmain = true)
include hv

theorem wakeChange_released : wakeChange false s = wakeSet false s := if_not_trans (y := wakeSet false s) hv rfl

theorem wakeChange_asserted :
    wakeChange true s = if s.power.wakeWindow then bootStart 0 (wakeSet true s)
      else if s.power.mode = .hibernate ∨ (hibSoon s ∧ !s.power.hibWake) then hibExit (wakeTaken s) else wakeSet true s :=
  if_not_trans hv rfl

/-- WAKE that qualifies out of HIBERNATE. -/
theorem wakeChange_taken (hw : s.power.wakeWindow = false) (h : s.power.mode = .hibernate ∨ (hibSoon s ∧ !s.power.hibWake)) :
    wakeChange true s = booted (if s.power.resetLow then 2 else 1) true (some (hibLeft s)) (wakeSet true s) :=
  (wakeChange_asserted hv).trans (if_neg_trans (ne_true_of_eq_false hw) (if_pos_trans h ((hibExit_eq (wakeTaken s)).trans
    (congrArg (fun i => booted i true (some (hibLeft s)) (wakeSet true s)) (wakeCause_eq s.power.resetLow)))))

theorem wakeChange_boots (h : s.power.wakeWindow = true ∨ s.power.mode = .hibernate) :
    wakeChange true s = booted (if s.power.wakeWindow then 0 else if s.power.resetLow then 2 else 1) (!s.power.wakeWindow)
      (if s.power.wakeWindow then none else some (hibLeft s)) (wakeSet true s) := by
  cases hw : s.power.wakeWindow with
  | true => exact (wakeChange_asserted hv).trans (if_pos_trans hw (bootStart_eq 0 (wakeSet true s)))
  | false => exact wakeChange_taken hv hw (.inl (h.resolve_left (ne_true_of_eq_false hw)))

/-- Elsewhere WAKE changes the contact's level alone. -/
theorem wakeChange_elsewhere (hw : s.power.wakeWindow = false) (hm : s.power.mode ≠ .hibernate)
    (h : hibSoon s = false ∨ s.power.hibWake = true) :
    wakeChange true s = { s with power := { s.power with wake := true, wakeSeen := s.power.hibEntry } } :=
  (wakeChange_asserted hv).trans (if_neg_trans (ne_true_of_eq_false hw) (if_neg_trans (fun k => k.elim hm fun k => h.elim
    (fun h => ne_true_of_eq_false h k.1) fun h => ne_true_of_eq_false (congrArg not h) k.2)
      (congrArg (fun b => { s with power := { s.power with wake := true, wakeSeen := b } }) (Bool.and_true s.power.hibEntry))))

end

theorem hibLeft_of_none {s : State} (hu : s.power.hibUntil = none) : hibLeft s = hibSpan :=
  congrArg (fun o : Option Nat => match o with | some u => u - s.time.pt | none => hibSpan) hu

theorem wakeUntil_of_hibernate {s : State} (hw : s.power.wakeWindow = false) (hu : s.power.hibUntil = none) :
    (if s.power.wakeWindow then none else some (hibLeft s)) = some hibSpan :=
  if_neg_trans (ne_true_of_eq_false hw) (congrArg some (hibLeft_of_none hu))

theorem hibLeft_of_hibSoon {s : State} (h : hibSoon s = true) : some (hibLeft s) = s.power.hibUntil.map fun u => u - s.time.pt := by
  have hu := Bool.and_elim_right h
  unfold hibLeft
  generalize s.power.hibUntil = o at hu
  induction o with
  | none => exact absurd hu Bool.false_ne_true
  | some u => rfl

/-- Settles O10: VMAIN by its definitions; WAKE in its window, out of HIBERNATE, before a BOOT out of HIBERNATE, and elsewhere. -/
theorem supplyAndWake : Obligations.SupplyAndWake := by
  refine ⟨fun s => ⟨fun hv => ?_, fun hw => ?_, ?_⟩, fun s hv => ⟨fun hwake => ?_, fun hw hsoon hq => ?_, fun hw hm hsoon => ?_, ?_⟩⟩
  · exact congrArg Host.Outcome.next (if_neg (ne_true_of_eq_false hv))
  · exact congrArg Host.Outcome.next (if_pos hw)
  · exact next_of_eq rfl rfl ⟨rfl, rfl, eqs₅ _ _ _ _ _⟩
  · exact next_of_eq rfl (wakeChange_boots hv hwake) ⟨rfl, rfl, rfl, rfl,
      fun hw => ⟨congrArg not hw, fun hu => wakeUntil_of_hibernate hw hu⟩, rfl⟩
  · exact next_of_eq rfl (wakeChange_taken hv hw (.inr ⟨hsoon, congrArg not hq⟩)) ⟨rfl, rfl, rfl, rfl, hibLeft_of_hibSoon hsoon, rfl⟩
  · exact congrArg Host.Outcome.next (wakeChange_elsewhere hv hw hm hsoon)
  · exact congrArg Host.Outcome.next (wakeChange_released hv)

end Sys2Proof.Machine


/-! SUPPORT AND PROOFS. HIBERNATE by command (R387). -/

namespace Sys2Proof.Machine

/-! ### What the writes of the keep region leave as it is -/

/-- s without its stores. -/
noncomputable def storeless (s : State) : State := { s with store := Storage.init }

theorem storeless_keepSave (s : State) : storeless (keepSave s) = storeless s := by
  unfold keepSave
  generalize s.store.keepWriting = w
  induction w <;> rfl

theorem storeless_keepWriteDone (ok : Bool) (s : State) : storeless (keepWriteDone ok s) = storeless s := by
  unfold keepWriteDone
  generalize s.store.keepWriting = w
  induction w with
  | none => rfl
  | some w => exact view_ite storeless ((storeless_keepSave _).trans rfl) rfl

theorem storeless_keepFinish (s : State) : storeless (keepFinish s) = storeless s :=
  view_ite storeless (view_ite storeless ((storeless_keepWriteDone true _).trans (storeless_keepWriteDone true s))
    (storeless_keepWriteDone true s)) rfl

/-! ### The command and the entry -/

/-- A SAFE that only BOOT ends does not hibernate. -/
theorem mayHibernate_bootOnly {s : State} (hsafe : s.power.mode = .safe) (hboot : s.power.bootOnly = true) : ¬mayHibernate s = true :=
  fun h => ne_true_of_eq_false (congrArg not (Bool.and_intro (decide_eq_true hsafe) hboot)) (Bool.and_elim_right
    (Bool.and_elim_left (Bool.and_elim_left (Bool.and_elim_left (Bool.and_elim_left (Bool.and_elim_left h))))))

/-- s at its entry into HIBERNATE. -/
noncomputable def hibernated (s : State) : State := { cold .hibernate s with store := (keepFinish s).store.cut }

/-- s bound for BOOT, as WAKE is asserted at its entry into HIBERNATE or during it. -/
noncomputable def hibWoken (s : State) : State := { s with power.hibWake := true }

/-- s with the entry into HIBERNATE begun. -/
noncomputable def hibBound (s : State) : State := { s with power.hibEntry := true }

section
variable {s : State} (hm : s.power.mode = .ready ∨ s.power.mode = .safe)
include hm

theorem live_of_readySafe : live s = true := hm.elim (congrArg Mode.live) (congrArg Mode.live)

theorem contains_readySafe : [Mode.ready, .safe].contains s.power.mode = true :=
  hm.elim (congrArg [Mode.ready, .safe].contains) (congrArg [Mode.ready, .safe].contains)

theorem hibernateWrite_of_mode :
    hibernateWrite .custodian 0x5A s = if mayHibernate s then accept (hibBound s) else refuse 0x0301 s :=
  gate_pass _ _ _ _ _ _ rfl rfl (contains_readySafe hm)

theorem hibernateEntry_of_drained (he : s.power.hibEntry = true) (hd : drained s = true) :
    hibernateEntry s = if s.power.wake || s.power.wakeSeen then hibExit (hibWoken (hibernated s)) else hibernated s :=
  have hcold : cold .hibernate (keepFinish s) = hibernated s :=
    congrArg (fun t => { cold .hibernate t with store := (keepFinish s).store.cut }) (storeless_keepFinish s)
  if_pos_trans (Bool.and_intro (Bool.and_intro he (contains_readySafe hm)) hd)
    (congrArg (fun t : State => if t.power.wake || s.power.wakeSeen then hibExit (hibWoken t) else t) hcold)

end

/-- Settles O14: the write by its tests, and the entry by what waits and by WAKE. -/
theorem hibernateEnters : Obligations.HibernateEnters := by
  refine fun s hm => ⟨fun hmay => ?_, fun hsafe hboot => ?_, fun hd => ?_, fun he hd hw hseen => ?_, fun he hd hw => ?_⟩
  · exact answered_next (live_of_readySafe hm) rfl ((hibernateWrite_of_mode hm).trans (if_pos hmay)) rfl rfl fun _u => eqs₃ _ _ _
  · exact served_refuse (live_of_readySafe hm) ((hibernateWrite_of_mode hm).trans (if_neg (mayHibernate_bootOnly hsafe hboot)))
  · exact congrArg Host.Outcome.next (if_neg fun h => ne_true_of_eq_false hd (Bool.and_elim_right h))
  · exact next_of_eq rfl ((hibernateEntry_of_drained hm he hd).trans
      (if_neg fun h => (Bool.or_eq_true_iff.1 h).elim (ne_true_of_eq_false hw) (ne_true_of_eq_false hseen))) (eqs₃ _ _ _)
  · exact next_of_eq rfl ((hibernateEntry_of_drained hm he hd).trans (if_pos_trans (Bool.or_eq_true_iff.2 hw) (hibExit_eq _)))
      ⟨rfl, wakeCause_eq s.power.resetLow⟩

end Sys2Proof.Machine


/-! SUPPORT AND PROOFS. Half-mast and the pennants as the flags settle (R402 to R405, R409). -/

namespace Sys2Proof.Machine

/-! ### A pennant that takes its level -/

noncomputable def Pennant.leveled (l : Bool) (p : Pennant) : Pennant := { p with level := l }

/-- A pennant as it takes its level (R404, R405). -/
noncomputable def Pennant.takes (tw : TW) (cyc : Nat) (l : Bool) (p : Pennant) : Pennant :=
  (if l && !p.level then p.rise tw cyc else p).leveled l

section
variable {tw : TW} {cyc : Nat} {l : Bool} {p q : Pennant}

/-- Without a rise a pennant only takes its level. -/
theorem takes_of_no_rise (h : p.level = true ∨ l = false) : p.takes tw cyc l = p.leveled l :=
  congrArg (Pennant.leveled l) (if_neg fun k => h.elim (fun h => ne_true_of_eq_false (congrArg not h) (Bool.and_elim_right k))
    fun h => ne_true_of_eq_false h (Bool.and_elim_left k))

theorem takes_of_rise (hp : p.level = false) (hl : l = true) : p.takes tw cyc l = (p.rise tw cyc).leveled l :=
  congrArg (Pennant.leveled l) (if_pos (Bool.and_intro hl (congrArg not hp)))

/-- The first rise of an engine cycle counts, from n. -/
theorem raised_of_rise {n : Nat} (hq : q = (p.rise tw cyc).leveled l) (h : p.inCycle cyc = false ∨ p.rose = false)
    (hn : (if p.inCycle cyc then p.base else p.count) = n) :
    q.raised = true ∧ q.count = min (n + 1) 65535 ∧ q.last = tw ∧ q.cycle = some cyc := by
  have hrise : p.rise tw cyc = p.raise tw cyc (n + 1) true :=
    if_neg_trans (fun k => h.elim (fun h => ne_true_of_eq_false h (Bool.and_elim_left k))
      fun h => ne_true_of_eq_false h (Bool.and_elim_right k)) (congrArg (fun n => p.raise tw cyc (n + 1) true) hn)
  exact (hq.trans (congrArg (Pennant.leveled l) hrise)).symm ▸ eqs₄ _ _ _ _

end

/-! ### The steps of the pennants -/

theorem updAt_some {α : Type} (f : α → α) {k : Nat} {l : List α} {a : α} (h : l[k]? = some a) : (updAt f k l)[k]? = some (f a) :=
  (updAt_getElem? f k l k).trans (if_pos_trans rfl (congrArg (Option.map f) h))

theorem forNat_keeps {α : Type} (v : State → α) {f : Nat → State → State} (h : ∀ k s, v (f k s) = v s) (n : Nat) (s : State) :
    v (forNat n f s) = v s := by
  induction n with
  | zero => rfl
  | succ n ih => exact (congrArg v (forNat_succ n f s)).trans ((h n _).trans ih)

/-- What the steps of the pennants leave: the time and half-mast, with what exhausts. -/
noncomputable def flagView (s : State) : TimeEng × Bool × Nat := (s.time, s.health.halfMast, s.health.spare.exhausted)

theorem flagView_whenever (b : Bool) (k : Nat) (s : State) : flagView (whenever b (risePn k) s) = flagView s := by
  induction b <;> rfl

theorem flagView_levelStep (k : Nat) (s : State) : flagView (levelStep k s) = flagView s := flagView_whenever _ k s

theorem flagView_levels (n : Nat) (s : State) : flagView (forNat n levelStep s) = flagView s :=
  forNat_keeps flagView flagView_levelStep n s

section
variable {k : Nat} {s : State} {p : Pennant} {x : TimeEng} {l : Bool} (hp : s.health.pennants[k]? = some p)
include hp

theorem whenever_rise_pennant (b : Bool) :
    (whenever b (risePn k) s).health.pennants[k]? = some (if b then p.rise s.time.tw s.time.cyc else p) := by
  induction b with
  | true => exact updAt_some _ hp
  | false => exact hp

theorem levelStep_pennant_same (hx : s.time = x) (hl : pnLevel s k = l) :
    (levelStep k s).health.pennants[k]? = some (p.takes x.tw x.cyc l) := by
  subst hx hl
  exact (updAt_some _ (whenever_rise_pennant hp _)).trans (congrArg (fun o : Option Pennant =>
    some ((if pnLevel s k && !(o.getD Pennant.init).level then p.rise s.time.tw s.time.cyc else p).leveled (pnLevel s k))) hp)

/-- The pennants with a level take theirs, and the others stay. -/
theorem forNat_levelStep_pennant (hx : s.time = x) (hl : pnLevel s k = l) (m : Nat) :
    (forNat m levelStep s).health.pennants[k]? = some (if k < m then p.takes x.tw x.cyc l else p) := by
  induction m with
  | zero => exact hp
  | succ m ih =>
    refine (congrArg (fun u => u.health.pennants[k]?) (forNat_succ m levelStep s)).trans ?_
    by_cases hk : k = m
    · subst hk
      exact (levelStep_pennant_same (ih.trans (congrArg some (if_neg (Nat.lt_irrefl k))))
        ((congrArg Prod.fst (flagView_levels k s)).trans hx)
        ((forNat_keeps (fun u => pnLevel u k) (fun j u => pnLevel_levelStep j u k) k s).trans hl)).trans
          (congrArg some (if_pos (Nat.lt_succ_self k)).symm)
    · exact (levelStep_pennant_other _ hk).trans (ih.trans
        (congrArg some (if_congr (Nat.lt_succ_iff_lt_or_eq.trans (or_iff_left hk)).symm rfl rfl)))

end

/-! ### Half-mast -/

theorem flagView_halfMastStep (s : State) : flagView (halfMastStep s) = (s.time, s.health.halfMast || halfMastNow s, halfMastCause s) :=
  view_ite flagView rfl (congrArg flagView (storeless_keepSave _))

section
variable {s : State} (hl : live s = true)
include hl

theorem settle_live : settle s = forNat 18 levelStep (halfMastStep s) := if_pos hl

theorem settle_flags : flagView (settle s) = (s.time, s.health.halfMast || halfMastNow s, halfMastCause s) :=
  (congrArg flagView (settle_live hl)).trans ((flagView_levels 18 _).trans (flagView_halfMastStep s))

theorem settle_halfMast : (settle s).health.halfMast = (s.health.halfMast || halfMastNow s) :=
  congrArg (fun v => v.2.1) (settle_flags hl)

/-- Half-mast is settled before its pennant takes it. -/
theorem pnLevel_settling (n : Nat) : pnLevel (halfMastStep s) n = if n = 0 then (settle s).health.halfMast else pnLevel s n := by
  rw [pnLevel_halfMastStep, settle_halfMast hl]
  induction n with
  | zero => rfl
  | succ n => exact Bool.or_false _

theorem settle_pennant {n : Nat} {p : Pennant} (hp : s.health.pennants[n]? = some p) :
    (settle s).health.pennants[n]? = some (if n < 18 then
      p.takes s.time.tw s.time.cyc (if n = 0 then (settle s).health.halfMast else pnLevel s n) else p) :=
  (congrArg (fun u => u.health.pennants[n]?) (settle_live hl) :).trans (forNat_levelStep_pennant
    ((congrArg (fun l => l[n]?) (halfMastStep_pennants s)).trans hp) (congrArg Prod.fst (flagView_halfMastStep s)) (pnLevel_settling hl n) 18)

end

/-- Settles O4: half-mast settles first; then each of the 18 pennants with a level takes it, once. -/
theorem flagsSettle : Obligations.FlagsSettle := fun _s hl =>
  ⟨settle_halfMast hl, congrArg (fun v => v.2.2) (settle_flags hl), fun _n _p hp => ⟨_, settle_pennant hl hp,
    fun h => if_neg (Nat.not_lt.2 h), fun hn => congrArg Pennant.level (if_pos hn),
    fun hn h => (if_pos hn).trans ((takes_of_no_rise (h.imp_right (congrArg Pennant.level (if_pos hn)).symm.trans)).trans
      (congrArg (fun l => Pennant.leveled l _p) (congrArg Pennant.level (if_pos hn)).symm)),
    fun hn hlow hrose =>
      have hq := (if_pos hn).trans (takes_of_rise hlow ((congrArg Pennant.level (if_pos hn)).symm.trans hrose))
      ⟨fun hc => raised_of_rise hq (.inl hc) (if_neg (ne_true_of_eq_false hc)), fun hc hr => raised_of_rise hq (.inr hr) (if_pos hc),
        fun hc hr => hq.trans ((congrArg (Pennant.leveled _) (if_pos (Bool.and_intro hc hr))).trans
          (congrArg (fun l => Pennant.leveled l _p) ((congrArg Pennant.level (if_pos hn)).symm.trans hrose)))⟩⟩⟩

end Sys2Proof.Machine


/-! SUPPORT AND PROOFS. The writes of the stores end (R353 to R355, R357, R359). -/

namespace Sys2Proof.Machine

/-- s with the stores of t, as the flags settle. -/
noncomputable def restored (s t : State) : State := { s with health := s.settledHealth t, store := t.store }

/-- A step that has changed the stores alone, as the flags settle. -/
theorem settledFrom_restored {s x : State} (h : storeless x = storeless s) (u : State) :
    settledFrom x x u = restored s (settledFrom x x u) :=
  (congrArg (fun v => restored v (settledFrom x x u)) h :)

/-! ### The mirror of an image (R354) -/

/-- s without what the mirror of an image may change. -/
noncomputable def mirrorless (s : State) : State :=
  { s with store := { s.store with
    slotBus := ⟨false, 0, false⟩, mirroring := none, mirrorNext := none, slotBanks := [], mirrorState := 0 } }

theorem mirrorless_mirrorImage (im : Image) (s : State) : mirrorless (mirrorImage im s) = mirrorless s :=
  view_ite mirrorless rfl (view_ite mirrorless rfl rfl)

/-- A slot memory that may be written has a mirror under way after this. -/
theorem mirrorImage_mirroring (im : Image) {s : State} (h : slotWritable s = true) :
    (mirrorImage im s).store.mirroring.isSome = true :=
  have hx : mirrorImage im s = if s.store.mirroring.isSome then { s with store.mirrorNext := some im } else mirrorStart im s :=
    if_not_trans h rfl
  hx ▸ iteInduction (motive := fun x : State => x.store.mirroring.isSome = true) id fun _h => rfl

/-- The state after a bank has read back right, before its image goes on to the slot memory. -/
noncomputable def bankWritten (target : Nat) (im : BankImage) (s : State) : State :=
  { s with store.banks := s.store.banks.set target (some im), store.writing := none }

/-- The state after a bank has read back right: its image goes on, and a newer one that waits is written. -/
noncomputable def bankMirrored (target : Nat) (im : BankImage) (s : State) : State :=
  if (mirrorImage im.img (bankWritten target im s)).store.again then
    imageStart { mirrorImage im.img (bankWritten target im s) with store.again := false }
  else mirrorImage im.img (bankWritten target im s)

/-- The state after a bank has not read back right twice. -/
noncomputable def bankFailed (target : Nat) (s : State) : State :=
  raisePn 10 { s with store.writing := none, store.again := false, store.faulty := s.store.faulty.set target true }

/-- The state after a bank has not read back right once. -/
noncomputable def bankAgain (target : Nat) (im : BankImage) (s : State) : State := { s with store.writing := some (target, im, true) }

section
variable {s : State}

theorem bankWritten_kept (target : Nat) (im : BankImage) (s : State) :
    mirrorless (mirrorImage im.img (bankWritten target im s)) = mirrorless (bankWritten target im s) :=
  mirrorless_mirrorImage im.img (bankWritten target im s)

theorem imageWriteDone_ok {target : Nat} {im : BankImage} {second : Bool} (hw : s.store.writing = some (target, im, second))
    (ha : s.store.again = false) : imageWriteDone true s = mirrorImage im.img (bankWritten target im s) :=
  (congrArg (fun o : Option (Nat × BankImage × Bool) => match o with
    | none => s
    | some (t, i, _b) => bankMirrored t i s) hw).trans
      (if_neg (ne_true_of_eq_false ((congrArg (fun u => u.store.again) (bankWritten_kept target im s)).trans ha)))

/-- A bank that does not read back right is written once more, and then faulty. -/
theorem imageWriteDone_fails {target : Nat} {im : BankImage} {second : Bool} (hw : s.store.writing = some (target, im, second)) :
    imageWriteDone false s = if second then bankFailed target s else bankAgain target im s :=
  congrArg (fun o : Option (Nat × BankImage × Bool) => match o with
    | none => s
    | some (t, i, b) => if b then bankFailed t s else bankAgain t i s) hw

theorem imageWriteDone_true_next (target : Nat) (im : BankImage) (second : Bool) (hl : live s = true)
    (hw : s.store.writing = some (target, im, second)) (ha : s.store.again = false) :
    ∃ t, exec (.imageWriteDone true) s = .next t ∧ t.store.banks = s.store.banks.set target (some im) ∧
      t.store.writing = none ∧ t.store.faulty = s.store.faulty ∧
      (slotWritable s = true → t.store.mirroring.isSome = true) ∧
      t = { s with health := s.settledHealth t, store := t.store } :=
  have hk := bankWritten_kept target im s
  done_next hl rfl (imageWriteDone_ok hw ha) fun u => ⟨congrArg (fun v => v.store.banks) hk, congrArg (fun v => v.store.writing) hk,
    congrArg (fun v => v.store.faulty) hk, mirrorImage_mirroring (s := bankWritten target im s) im.img,
    settledFrom_restored (x := mirrorImage im.img (bankWritten target im s)) (congrArg storeless hk :) u⟩

theorem imageWriteDone_false_next (target : Nat) (im : BankImage) (second : Bool) (hl : live s = true)
    (hw : s.store.writing = some (target, im, second)) :
    ∃ t, exec (.imageWriteDone false) s = .next t ∧ t.store.banks = s.store.banks ∧
      (second = false → t.store.writing = some (target, im, true) ∧ t.store.faulty = s.store.faulty) ∧
      (second = true → t.store.writing = none ∧ t.store.faulty = s.store.faulty.set target true) ∧
      t = { s with health := s.settledHealth t, store := t.store } := by
  have hf := imageWriteDone_fails hw
  clear hw
  induction second with
  | true => exact done_next (x := bankFailed target s) hl rfl hf fun _u =>
      ⟨rfl, fun h => Bool.noConfusion h, fun _h => ⟨rfl, rfl⟩, rfl⟩
  | false => exact done_next (x := bankAgain target im s) hl rfl hf fun _u =>
      ⟨rfl, fun _h => ⟨rfl, rfl⟩, fun h => Bool.noConfusion h, rfl⟩

end

/-! ### The mirror in the slot memory (R357, R359) -/

/-- With no newer image that waits, the end of a mirror begins no other. -/
theorem mirrorFollow_of_none {s : State} (h : s.store.mirrorNext = none) : mirrorFollow s = s :=
  congrArg (fun o : Option Image => match o with
    | some im => mirrorStart im { s with store.mirrorNext := none }
    | none => s) h

/-- The state after a mirror has read back right. -/
noncomputable def mirrorKept (target : Nat) (im : Image) (bus : SlotBus) (s : State) : State :=
  { s with
    store.slotBus := bus, store.slotBanks := s.store.slotBanks.set target (some im), store.mirrorLast := im.writtenTw
    store.mirroring := none, store.mirrorState := if s.store.writing.isSome then 1 else 0 }

/-- The state after a mirror that is repeated. -/
noncomputable def mirrorAgain (target : Nat) (im : Image) (n : Nat) (bus : SlotBus) (s : State) : State :=
  { s with store.slotBus := bus, store.mirroring := some (target, im, n + 1) }

/-- The state after a mirror that is given up. -/
noncomputable def mirrorFailed (bus : SlotBus) (s : State) : State :=
  raisePn 10 { s with store.slotBus := bus, store.mirroring := none, store.mirrorState := 3 }

section
variable {s : State} (target : Nat) (im : Image) (n : Nat) (hl : live s = true) (hm : s.store.mirroring = some (target, im, n))
include hm

/-- The end of a mirror, by the read-back, the repetitions and the bus. -/
theorem slotMirrorDone_eq (o : MirrorEnd) :
    slotMirrorDone o s =
      if o.readBackOk ∧ !(s.store.slotBus.run o.transfers).unreadable then
        mirrorFollow (mirrorKept target im (s.store.slotBus.run o.transfers) s)
      else if n < 3 ∧ !(s.store.slotBus.run o.transfers).unreadable then
        mirrorAgain target im n (s.store.slotBus.run o.transfers) s
      else mirrorFollow (mirrorFailed (s.store.slotBus.run o.transfers) s) := by
  unfold slotMirrorDone
  rw [hm]
  rfl

include hl

theorem slotMirrorDone_ok_next (l : List Bool) (hn : s.store.mirrorNext = none) (hb : (s.store.slotBus.run l).unreadable = false) :
    ∃ t, exec (.slotMirrorDone ⟨l, true⟩) s = .next t ∧ t.store.slotBanks = s.store.slotBanks.set target (some im) ∧
      t.store.mirroring = none ∧ t.store.mirrorLast = im.writtenTw ∧ t.store.slotBus = s.store.slotBus.run l ∧
      t = { s with health := s.settledHealth t, store := t.store } :=
  done_next hl rfl ((slotMirrorDone_eq target im n hm ⟨l, true⟩).trans
      (if_pos_trans ⟨rfl, congrArg not hb⟩ (mirrorFollow_of_none (s := mirrorKept target im (s.store.slotBus.run l) s) hn)))
    fun _u => eqs₅ _ _ _ _ _

theorem slotMirrorDone_again_next (l : List Bool) (hn : n < 3) (hb : (s.store.slotBus.run l).unreadable = false) :
    ∃ t, exec (.slotMirrorDone ⟨l, false⟩) s = .next t ∧ t.store.mirroring = some (target, im, n + 1) ∧
      t.store.slotBanks = s.store.slotBanks ∧ t.store.slotBus = s.store.slotBus.run l ∧
      t = { s with health := s.settledHealth t, store := t.store } :=
  done_next hl rfl ((slotMirrorDone_eq target im n hm ⟨l, false⟩).trans
      (if_neg_trans (fun h => Bool.false_ne_true h.1) (if_pos ⟨hn, congrArg not hb⟩)))
    fun _u => eqs₄ _ _ _ _

theorem slotMirrorDone_fails_next (l : List Bool) (ok : Bool) (hn : s.store.mirrorNext = none)
    (hb : (ok = false ∧ 3 ≤ n) ∨ (s.store.slotBus.run l).unreadable = true) :
    ∃ t, exec (.slotMirrorDone ⟨l, ok⟩) s = .next t ∧ t.store.mirroring = none ∧ t.store.mirrorState = 3 ∧
      t.store.slotBanks = s.store.slotBanks ∧ t = { s with health := s.settledHealth t, store := t.store } :=
  have hbus : (s.store.slotBus.run l).unreadable = true → ¬(!(s.store.slotBus.run l).unreadable) = true := fun h =>
    ne_true_of_eq_false (congrArg not h)
  done_next hl rfl ((slotMirrorDone_eq target im n hm ⟨l, ok⟩).trans
      (if_neg_trans (fun h => hb.elim (fun k => ne_true_of_eq_false k.1 h.1) fun k => hbus k h.2)
        (if_neg_trans (fun h => hb.elim (fun k => Nat.not_lt.2 k.2 h.1) fun k => hbus k h.2)
          (mirrorFollow_of_none (s := mirrorFailed (s.store.slotBus.run l) s) hn))))
    fun _u => eqs₄ _ _ _ _

end

/-- Transfers in a row on a bus that answers (R357). -/
theorem slotBus_run (b : SlotBus) (hu : b.unreadable = false) :
    b.run [true] = { b with fails := 0 } ∧
    (b.fails = 0 → b.run [false, false] = { b with fails := 2 } ∧
      b.run [false, false, false] =
        (if b.slow then { b with fails := 0, unreadable := true } else { b with slow := true, fails := 0 }) ∧
      b.run [false, false, true] = b) := by
  obtain ⟨slow, fails, unreadable⟩ := b
  refine ⟨rfl, ?_⟩
  rintro rfl
  exact ⟨rfl, rfl, rfl⟩

/-! ### The keep region (R353) -/

theorem keep_keepSave (s : State) : (keepSave s).store.keep = s.store.keep := (congrArg (fun u => u.store.keep) (settled_keepSave s) :)

/-- The state after the write of a copy. -/
noncomputable def keepEnded (target : Nat) (o : Option KeepRec) (s : State) : State :=
  { s with store.keepWriting := none, store.keep := s.store.keep.set target o }

/-- The state after the write of a copy, with a newer record that waits written next. -/
noncomputable def keepGoes (t : State) : State := if t.store.keepAgain then keepSave { t with store.keepAgain := false } else t

theorem keep_keepGoes (t : State) : (keepGoes t).store.keep = t.store.keep :=
  view_ite (fun u : State => u.store.keep) (keep_keepSave { t with store.keepAgain := false }) rfl

theorem keepRegionWriteDone_next {s : State} (target : Nat) (rec : KeepRec) (ok : Bool) (hc : s.power.mode.clocked = true)
    (hw : s.store.keepWriting = some (target, rec)) :
    ∃ t, exec (.keepRegionWriteDone ok) s = .next t ∧
      t.store.keep = s.store.keep.set target (if ok then some rec else none) ∧
      t = { s with health := s.settledHealth t, store := t.store } :=
  done_next hc rfl (congrArg (fun o : Option (Nat × KeepRec) => match o with
    | none => s
    | some (t, rec) => keepGoes (keepEnded t (if ok then some rec else none) s)) hw) fun u =>
      ⟨keep_keepGoes (keepEnded target (if ok then some rec else none) s),
        settledFrom_restored (x := keepGoes (keepEnded target (if ok then some rec else none) s))
          (view_ite storeless (storeless_keepSave _) rfl) u⟩

/-- Settles O58: each end of a write by the write that is under way, the read-back and the bus. -/
theorem storeWrites : Obligations.StoreWrites :=
  fun _s => ⟨fun target im second hl hw => ⟨imageWriteDone_true_next target im second hl hw, imageWriteDone_false_next target im second hl hw⟩,
    fun target im n hl hm => ⟨slotMirrorDone_ok_next target im n hl hm, slotMirrorDone_again_next target im n hl hm,
      slotMirrorDone_fails_next target im n hl hm⟩, slotBus_run, keepRegionWriteDone_next⟩

end Sys2Proof.Machine


/-! SUPPORT AND PROOFS. What each step holds: every step answers a next state, leaves the queue of the waiting commands and
keeps the canonical form of the committed configuration (R350, R433). -/

namespace Sys2Proof.Machine

/-! ### What keeps the canonical form -/

/-- From s to t what v reads stays, and a canonical configuration stays canonical. -/
def Keeping {α : Type} (v : State → α) (s t : State) : Prop := v t = v s ∧ (s.CfgInv → t.CfgInv)

section
variable {α β : Type} {v : State → α} {s t u : State}

theorem Keeping.refl : Keeping v s s := ⟨rfl, id⟩

theorem Keeping.trans (h : Keeping v s t) (k : Keeping v t u) : Keeping v s u := ⟨k.1.trans h.1, k.2 ∘ h.2⟩

theorem Keeping.of_eq (hv : v t = v s) (hc : t.conf.cfg = s.conf.cfg) : Keeping v s t :=
  ⟨hv, fun h => (congrArg cfgWf hc).trans h⟩

theorem Keeping.of_empty (hv : v t = v s) (hc : t.conf.cfg = []) : Keeping v s t :=
  ⟨hv, fun _h => congrArg cfgWf hc⟩

/-- What is read of what v reads stays. -/
theorem Keeping.read (f : α → β) (h : Keeping v s t) : Keeping (f ∘ v) s t := ⟨congrArg f h.1, h.2⟩

theorem Keeping.of_ite (w : β → State) {p : Prop} [d : Decidable p] {a b : β} (h : Keeping v s (w a)) (k : Keeping v s (w b)) :
    Keeping v s (w (if p then a else b)) :=
  iteInduction (motive := fun x => Keeping v s (w x)) (fun _h => h) fun _h => k

theorem Keeping.ite {p : Prop} [d : Decidable p] (h : Keeping v s t) (k : Keeping v s u) : Keeping v s (if p then t else u) :=
  iteInduction (fun _h => h) fun _h => k

theorem keeping_foldl {γ : Type} {w : β → State} {f : β → γ → β} (h : ∀ b c, Keeping v (w b) (w (f b c))) (l : List γ) :
    ∀ b, Keeping v (w b) (w (l.foldl f b)) :=
  l.rec (fun _h => .refl) fun c _l ih b => (h b c).trans (ih (f b c))

end

/-- From s to t the queue of the waiting commands stays, and a canonical configuration stays canonical. -/
def Keeps (s t : State) : Prop := Keeping State.pending s t

/-- An effect that leaves the configuration. -/
theorem keeps_cfg {F : State → State} {R : State → Prop}
    (h : ∀ s, (F s).pending = s.pending ∧ (F s).conf.cfg = s.conf.cfg ∧ R s) (s : State) : Keeps s (F s) :=
  .of_eq (h s).1 (h s).2.1

theorem keeps_conf {F : State → State} {R : State → Prop}
    (h : ∀ s, (F s).pending = s.pending ∧ (F s).power = s.power ∧ (F s).time = s.time ∧ (F s).conf = s.conf ∧ R s) (s : State) :
    Keeps s (F s) :=
  .of_eq (h s).1 (congrArg Conf.cfg (h s).2.2.2.1)

theorem keeps_confB {F : State → State} {P R : State → Prop}
    (h : ∀ s, (F s).pending = s.pending ∧ P s ∧ (F s).conf = s.conf ∧ R s) (s : State) : Keeps s (F s) :=
  .of_eq (h s).1 (congrArg Conf.cfg (h s).2.2.1)

/-! ### The supply and BOOT -/

theorem keeps_cold (m : Mode) (s : State) : Keeps s (cold m s) := .of_empty rfl rfl

theorem keeps_bootStart (cause : Nat) (s : State) : Keeps s (bootStart cause s) := bootStart_eq cause s ▸ .of_empty rfl rfl

theorem keeps_hibExit (s : State) : Keeps s (hibExit s) := hibExit_eq s ▸ .of_empty rfl rfl

theorem keeps_wakeChange (level : Bool) (s : State) : Keeps s (wakeChange level s) :=
  .ite .refl (.ite .refl (.ite (keeps_bootStart 0 _) (.ite (keeps_hibExit _) .refl)))

theorem keeps_resetFall (s : State) : Keeps s (resetFall s) :=
  .ite .refl (.ite (keeps_hibExit _) (keeps_bootStart _ _))

theorem keeps_resetRise (s : State) : Keeps s (resetRise s) :=
  .ite (.ite .refl (.ite (keeps_hibExit _) (keeps_bootStart _ _))) .refl

theorem keeps_keepFinish (s : State) : Keeps s (keepFinish s) :=
  have h := storeless_keepFinish s
  .of_eq (congrArg (fun u => u.pending) h) (congrArg (fun u => u.conf.cfg) h)

theorem keeps_hibernateEntry (s : State) : Keeps s (hibernateEntry s) :=
  .ite ((keeps_keepFinish s).trans (.ite (.trans (keeps_cold .hibernate _) (keeps_hibExit _)) (keeps_cold .hibernate _))) .refl

theorem keeps_resetEntry (s : State) : Keeps s (resetEntry s) := by
  unfold resetEntry
  generalize s.power.resetEntry = c
  induction c with
  | none => exact .refl
  | some c => exact .ite (keeps_bootStart c s) .refl

/-- BOOT loads a canonical configuration, whatever the banks and the slot memory hold. -/
theorem cfgInv_loadImage (slot : BootRead) (s : State) : (loadImage slot s).CfgInv :=
  bootCfg_wf _ _ _ (cfgOfRecords_wf _)

theorem cfgInv_of_bootView {s t : State} (h : bootView t = bootView s) (hs : s.CfgInv) : t.CfgInv :=
  have e : cfgWf (bootView t).conf.cfg = cfgWf (bootView s).conf.cfg := congrArg (fun v => cfgWf v.conf.cfg) h
  e.trans hs

theorem keeps_bootComplete (ok : Bool) (slot : BootRead) (s : State) : Keeps s (bootComplete ok slot s) :=
  ⟨(bootComplete_frame ok slot s).1, fun hc => iteInduction (fun _h => hc) fun _h =>
    cfgInv_of_bootView ((bootView_bootMirror _).trans ((bootView_flagged _).trans (bootView_bootOut _ (bootView_bootLevel _))))
      (cfgInv_loadImage slot _)⟩

/-! ### The frame tick -/

theorem keeps_standingCauses {s t : State} (h : Keeps s t) : Keeps s (standingCauses t) :=
  h.trans (keeps_confB standingCauses_frame t)

theorem keeps_setCause (i : Nat) : ∀ s, Keeps s (setCause i s) := keeps_confB (setCause_frame i)

theorem keeps_firstSet (x : TW) (s : State) : Keeps s (firstSet x s) :=
  keeps_standingCauses (.ite (keeps_setCause 6 _) .refl)

theorem keeps_setTime (s : State) : Keeps s (setTime s) := by
  refine .ite (keeps_standingCauses .refl) ?_
  generalize s.time.setPending = o
  induction o with
  | none => exact .refl
  | some p => exact .ite .refl (.ite (keeps_firstSet p.1 s) .refl)

theorem keeps_keepSave {s t : State} (h : Keeps s t) : Keeps s (keepSave t) := h.trans (keeps_conf keepSave_frame t)

theorem keeps_stepTime (d : BitVec 64) (s : State) : Keeps s (stepTime d s) :=
  keeps_keepSave (keeping_foldl (w := fun s => s) (fun t i =>
    keeping_foldl (w := fun s => s) (fun t _h => keeps_conf (fireInstant_frame i) t) (List.range _) t) (List.range 8) _)

theorem fireEffect_stepTime {e : Sched} {d : BitVec 64} (h : e.op = .stepTime d) (s : State) : fireEffect e s = stepTime d s := by
  rw [fireEffect, h]

theorem fireEffect_pending (e : Sched) (s : State) : (fireEffect e s).pending = s.pending := by
  cases h : e.op with
  | stepTime d => exact (congrArg State.pending (fireEffect_stepTime h s)).trans (keeps_stepTime d s).1
  | _ => exact (sameInstant_fireEffect e (congrArg isStep h) s).pending

theorem keeps_fireEffect (e : Sched) (s : State) : Keeps s (fireEffect e s) :=
  .of_eq (fireEffect_pending e s) (congrArg Conf.cfg (fireEffect_frame e s).2.1)

theorem keeps_fireOne (old : TW) (a : Fired) (e : Sched) : Keeps a.st (fireOne old a e).st := by
  refine iteInduction (motive := fun b : Fired => Keeps a.st b.st) (fun _h => .refl) fun _h => ?_
  have h : Keeps a.st (if fireCond e.op (unsched e a.st) = 0 then fireEffect e (unsched e a.st) else unsched e a.st) :=
    .ite (keeps_fireEffect e _) .refl
  exact .ite h h

theorem keeps_fireStep (old : TW) (a : Fired) : Keeps a.st (fireStep old a).st := by
  refine iteInduction (motive := fun b : Fired => Keeps a.st b.st) (fun _h => .refl) fun _h => ?_
  generalize dueStep a.st = o
  induction o with
  | none => exact .refl
  | some e => exact keeps_fireOne old a e

theorem keeps_commit (content : KV) (k : BitVec 128) (s : State) : Keeps s (commit content k s) :=
  ⟨(commit_frame content k s).1, fun h => (congrArg cfgWf (commit_conf content k s).2.1).trans (cfgApply_wf _ _ h)⟩

theorem keeps_hoistTrace (f : Option AdmitFail) (code : Nat) (s : State) : Keeps s (hoistTrace f code s) :=
  .of_eq (hoistTrace_frame f code s).1
    (hoistTrace_frame f code s).2.2.2.2.2.2.2.2.2.2.2.2.2.2.2.2.2.2.2.2.2.2.2.2.2.2.2

theorem keeps_fireHoist (old : TW) (e : Sched) (a : Fired) : Keeps a.st (fireHoist old e a).st := by
  unfold fireHoist
  extract_lets u
  generalize u.conf.hoist = o
  induction o with
  | none => exact .refl
  | some h =>
    exact .ite (keeps_commit h.content h.check u) (keeps_hoistTrace _ _ (hoistReturn u))

theorem keeps_hoistAndOpen (old : TW) (a : Fired) : Keeps a.st (hoistAndOpen old a).1.st := by
  refine iteInduction (motive := fun b : Fired × Bool => Keeps a.st b.1.st) (fun _h => .refl) fun _h => ?_
  generalize dueHoist a.st = o
  induction o with
  | none => exact .refl
  | some e => exact keeps_fireHoist old e a

theorem keeps_tickHead (s : State) : Keeps s (tickHead s).1.st :=
  ((keeps_setTime s).trans (keeps_fireStep s.time.tw ⟨setTime s, [], 0⟩)).trans
    (keeps_hoistAndOpen s.time.tw (fireStep s.time.tw ⟨setTime s, [], 0⟩).afterStep)

theorem State.StandsOrSafe.keeps {s t : State} (h : s.StandsOrSafe t) : Keeps s t := .of_eq h.pending h.cfg

theorem keeps_tickOps (old : TW) (hoist : Bool) (level : Nat) (a : Fired) : Keeps a.st (tickOps old hoist level a).st :=
  .of_eq (sameInstant_tickOps old hoist level a).pending (congrArg Conf.cfg (tickOps_frame old hoist level a).1)

theorem keeps_tickSafe (s : State) : Keeps s (tickSafe s) :=
  .ite (standsOrSafe_toSafe { s with time := { s.time with frameTw := s.time.tw } }).keeps .refl

theorem keeps_counted (s : State) : Keeps s (countTick s) := .refl

theorem keeps_sensed (o : TickObs) (s : State) : Keeps s (tickTune o.tune (tickPorts (tickOvens o s))) := .refl

theorem keeps_tickReach (o : TickObs) (s : State) : Keeps s (tickReach o s) :=
  .trans (.trans (.trans (keeps_conf decideOffers_frame s) (keeps_confB toTick_frame (decideOffers s))) (keeps_counted _))
    (.trans (keeps_tickSafe _) (keeps_sensed o _))

theorem keeps_tickFire (s : State) : Keeps s (tickFire s).st := .trans (keeps_tickHead (clearNoted s)) (keeps_tickOps ..)

theorem keeps_latchFrame (s : State) : Keeps s (latchFrame s) := .refl

theorem keeps_frameTick (o : TickObs) (s : State) : Keeps s (frameTick o s) :=
  .trans (.trans (keeps_tickReach o s) (keeps_tickFire (tickReach o s))) (.trans (keeps_latchFrame _) (standsOrSafe_frameTick o s).keeps)

end Sys2Proof.Machine


/-! SUPPORT AND PROOFS. What every write of the host, every request and every command leaves (R350, R433). -/

namespace Sys2Proof.Machine

/-! ### Writes of the host -/

/-- What every command's write leaves: the queue of the waiting commands and the reserve of the frame. -/
noncomputable def writeView (s : State) : List Instr × Nat := (s.pending, s.time.reserveLeft)

/-- What every write of an entry leaves, beside: the requests and the replay store. -/
noncomputable def dictView (s : State) : (List Instr × Nat) × List DictReq × List Replay := (writeView s, s.dict.queue, s.dict.replay)

/-- What every operation of a request leaves, beside: the answers that wait and the outputs. -/
noncomputable def requestView (s : State) : ((List Instr × Nat) × List DictReq × List Replay) × Link × List Output := (dictView s, s.link, s.out)

section
variable {s t : State}

theorem Keeping.keeps (h : Keeping writeView s t) : Keeps s t := h.read Prod.fst

theorem Keeping.write (h : Keeping dictView s t) : Keeping writeView s t := h.read Prod.fst

theorem Keeping.dict (h : Keeping requestView s t) : Keeping dictView s t := h.read Prod.fst

end

section
variable {α : Type}

/-- A write that leaves the time engine and the configuration. -/
theorem keeps_write {F : Role → α → State → Ans} {R : Role → α → State → Prop}
    (h : ∀ r v s, (F r v s).st.pending = s.pending ∧ (F r v s).st.power = s.power ∧ (F r v s).st.time = s.time ∧
      (F r v s).st.conf = s.conf ∧ R r v s) (r : Role) (v : α) (s : State) : Keeping writeView s (F r v s).st :=
  .of_eq (congrArg₂ (fun p t => (p, t.reserveLeft)) (h r v s).1 (h r v s).2.2.1) (congrArg Conf.cfg (h r v s).2.2.2.1)

/-- A write that sets the power state. -/
theorem keeps_writeB {F : Role → α → State → Ans} {R : Role → α → State → Prop}
    (h : ∀ r v s, (F r v s).st.pending = s.pending ∧ (F r v s).st.time = s.time ∧ (F r v s).st.conf = s.conf ∧ R r v s)
    (r : Role) (v : α) (s : State) : Keeping writeView s (F r v s).st :=
  .of_eq (congrArg₂ (fun p t => (p, t.reserveLeft)) (h r v s).1 (h r v s).2.1) (congrArg Conf.cfg (h r v s).2.2.1)

end

/-- An effect that leaves the time engine, the configuration and the requests. -/
theorem keeping_dict {F : State → State} {P R : State → Prop}
    (h : ∀ s, (F s).pending = s.pending ∧ (F s).power = s.power ∧ (F s).time = s.time ∧ (F s).conf = s.conf ∧ P s ∧
      (F s).dict = s.dict ∧ R s) (s : State) : Keeping dictView s (F s) :=
  .of_eq (congrArg₂ (fun w d => (w, d.queue, d.replay))
      (congrArg₂ (fun p t => (p, t.reserveLeft)) (h s).1 (h s).2.2.1) (h s).2.2.2.2.2.1) (congrArg Conf.cfg (h s).2.2.2.1)

theorem keeps_missWrite (r : Role) (u v : Nat) : ∀ s, Keeping dictView s (missWrite r u v s).st := keeping_dict (missWrite_frame r u v)

theorem keeps_refbufWrite (r : Role) (g v : Nat) : ∀ s, Keeping dictView s (refbufWrite r g v s).st :=
  keeping_dict (refbufWrite_frame r g v)

theorem keeps_firCoefWrite (r : Role) (g b i : Nat) (v : BitVec 32) : ∀ s, Keeping dictView s (firCoefWrite r g b i v s).st :=
  keeping_dict (firCoefWrite_frame r g b i v)

theorem keeps_auxRingReadWrite (r : Role) (v : BitVec 16) : ∀ s, Keeping dictView s (auxRingReadWrite r v s).st :=
  keeping_dict (auxRingReadWrite_frame r v)

theorem keeps_evRingReadWrite (r : Role) (v : Nat) : ∀ s, Keeping dictView s (evRingReadWrite r v s).st :=
  keeping_dict (evRingReadWrite_frame r v)

theorem keeps_hoistWrite (r : Role) (k : BitVec 128) (s : State) : Keeping writeView s (hoistWrite r k s).st :=
  .of_eq (congrArg₂ (fun p t => (p, t.reserveLeft)) (hoistWrite_frame r k s).1 (hoistWrite_frame r k s).2.2.1)
    (hoistWrite_frame r k s).2.2.2.2.2.2.2.2.2.2.2.2.2.2.2.2.2.2.2.2.2.2.2.2.2.2

theorem keeps_taSubmit (r : Role) (d : BitVec 256) (s : State) : Keeping writeView s (taSubmit r d s).st :=
  .of_eq (congrArg₂ (fun p t => (p, t.reserveLeft)) (taSubmit_frame r d s).1 (taSubmit_frame r d s).2.2.1)
    (taSubmit_frame r d s).2.2.2.2.2.2.2.2.2.2.2.2.2.2.2.2.2.2.2.2.2.2.2.2.2

theorem keeps_taCancel (r : Role) (h : BitVec 16) (s : State) : Keeping writeView s (taCancel r h s).st :=
  .of_eq (congrArg₂ (fun p t => (p, t.reserveLeft)) (taCancel_frame r h s).1 (taCancel_frame r h s).2.2.1)
    (taCancel_frame r h s).2.2.2.2.2.2.2.2.2.2.2.2.2.2.2.2.2.2.2.2.2.2.2.2.2.2

theorem keeps_discardWrite (r : Role) (v : BitVec 32) (s : State) : Keeping writeView s (discardWrite r v s).st :=
  .of_ite Ans.st .refl (.of_ite Ans.st .refl (.of_ite Ans.st .refl (.of_ite Ans.st .refl .refl)))

theorem keeps_epochWrite (r : Role) (v : BitVec 16) (s : State) : Keeping dictView s (epochWrite r v s).st :=
  .of_ite Ans.st .refl (.of_ite Ans.st .refl (.of_ite Ans.st .refl (keeping_dict keepSave_frame _)))

theorem keeps_setWrite (r : Role) (t : TW) (s : State) : Keeping writeView s (setWrite r t s).st :=
  .of_ite Ans.st .refl (.of_ite Ans.st .refl (.of_ite Ans.st .refl (.of_ite Ans.st .refl .refl)))

theorem keeps_imageSave (s : State) : Keeping dictView s (imageSave s) := keeping_dict imageSave_frame s

theorem keeps_stored (idx sub v : Nat) (s : State) : Keeping dictView s (imageSave (cfgPut idx sub v s)) :=
  .trans (t := cfgPut idx sub v s) ⟨rfl, cfgSet_wf _ _ _⟩ (keeps_imageSave _)

theorem keeps_routeCommitted (v : Nat) (s : State) : Keeping writeView s (routeCommitted v s) :=
  .ite (keeps_stored _ _ _ s).write .refl

theorem keeps_rerouteWrite (r : Role) (v : Nat) (s : State) : Keeping writeView s (rerouteWrite r v s).st :=
  .of_ite Ans.st .refl (.of_ite Ans.st .refl (.of_ite Ans.st .refl (.of_ite Ans.st .refl
    (.of_ite Ans.st (keeps_routeCommitted v s) (keeps_routeCommitted v s)))))

/-- A match on a literal is a test for it. -/
theorem Keeping.of_lit {α : Type} {w : State → α} {s : State} {n x : Nat} {a : Ans} {e : ¬x = n → Ans} (h : Keeping w s a.st)
    (k : ∀ hx, Keeping w s (e hx).st) : Keeping w s (dite (x = n) (Eq.ndrec_symm (motive := fun _h => Ans) a) e).st := by
  by_cases hx : x = n
  · subst hx
    exact (dif_pos rfl : dite (x = x) (Eq.ndrec_symm (motive := fun _h => Ans) a) e = a) ▸ h
  · exact dif_neg hx ▸ k hx

set_option smartUnfolding false in
theorem keeps_rwWrite (r : Role) (k v : Nat) (s : State) : Keeping dictView s (rwWrite r k v s).st :=
  .of_ite Ans.st (keeps_stored _ _ v s) (.of_ite Ans.st .refl (.of_ite Ans.st (keeps_firCoefWrite ..)
    (.of_lit (.of_lit .refl fun _h => .refl) fun _h => .of_lit (keeps_refbufWrite ..) fun _h => .of_lit .refl fun _h =>
    .of_lit (.of_lit (keeps_auxRingReadWrite ..) fun _h => .refl) fun _h => .of_lit (keeps_missWrite ..) fun _h =>
    .of_lit (keeps_epochWrite ..) fun _h => .of_lit .refl fun _h => .of_lit (.of_lit .refl fun _h => .refl) fun _h => .of_lit .refl fun _h =>
    .of_lit (.of_lit (keeps_evRingReadWrite ..) fun _h => .refl) fun _h => .refl)))

set_option smartUnfolding false in
theorem keeps_cmdWrite (r : Role) (k v : Nat) (s : State) : Keeping writeView s (cmdWrite r k v s).st :=
  .of_lit (keeps_writeB moduleResetWrite_frame ..) fun _h => .of_lit (keeps_write owcStartWrite_frame ..) fun _h =>
  .of_lit (keeps_write calStartWrite_frame ..) fun _h => .of_lit (keeps_write firSealWrite_frame ..) fun _h =>
  .of_lit (keeps_write firLoadWrite_frame ..) fun _h => .of_lit (keeps_write fadeWrite_frame ..) fun _h =>
  .of_lit (keeps_write auxLaunchWrite_frame ..) fun _h => .of_lit (keeps_write auxInjectWrite_frame ..) fun _h =>
  .of_lit (keeps_write auxCalStartWrite_frame ..) fun _h => .of_lit (keeps_write trgArmWrite_frame ..) fun _h =>
  .of_lit (.of_ite Ans.st (keeps_write stepWrite_frame ..) (keeps_setWrite ..)) fun _h =>
  .of_lit (keeps_rerouteWrite ..) fun _h => .of_lit (keeps_write streamStartWrite_frame ..) fun _h =>
  .of_lit (keeps_write streamStopWrite_frame ..) fun _h => .of_lit (keeps_taSubmit ..) fun _h => .of_lit (keeps_taCancel ..) fun _h =>
  .of_lit (keeps_hoistWrite ..) fun _h => .of_lit (keeps_discardWrite ..) fun _h =>
  .of_lit (keeps_writeB hibernateWrite_frame ..) fun _h => keeps_write dipWrite_frame ..

theorem keeping_cmdWrite (r : Role) (k v : Nat) (s : State) : Keeping dictView s (cmdWrite r k v s).st :=
  ⟨congrArg₂ (fun w d => (w, d.queue, d.replay)) (keeps_cmdWrite r k v s).1 (cmdWrite_frame r k v s).2.1, (keeps_cmdWrite r k v s).2⟩

theorem keeps_entryWrite (r : Role) (row : Row) (k v : Nat) (s : State) : Keeping dictView s (entryWrite r row k v s).st := by
  unfold entryWrite
  generalize row.acc = a
  induction a with
  | ro => exact .refl
  | rw => exact keeps_rwWrite r k v s
  | rws => exact .refl
  | wo => exact .of_ite Ans.st .refl .refl
  | cmd => exact keeping_cmdWrite r k v s

theorem requestView_putKey (r : Role) (x : KeyState) (s : State) : requestView (putKey r x s) = requestView s := by
  induction r <;> rfl

theorem keeps_changeKey (r : Role) (x : BitVec 256) (s : State) : Keeping requestView s (changeKey r x s) :=
  .of_eq ((congrArg requestView (settled_keepSave (putKey r (keyChanged r x s) s)) :).trans (requestView_putKey r _ s))
    (congrArg Conf.cfg (changeKey_frame r x s).2.2.2.1)

theorem keeping_hostWrite (r : Role) (k len v : Nat) (s : State) : Keeping dictView s (hostWrite r k len v s).st := by
  refine .of_ite Ans.st .refl ?_
  generalize lookup (keyIdx k) (keySub k) = o
  induction o with
  | none => exact .refl
  | some row => exact .of_ite Ans.st (keeps_changeKey ..).dict (keeps_entryWrite ..)

theorem keeps_hostWrite (r : Role) (k len v : Nat) (s : State) : Keeping requestView s (hostWrite r k len v s).st :=
  ⟨congrArg₂ Prod.mk (keeping_hostWrite r k len v s).1 (congrArg₂ Prod.mk (hostWrite_frame r k len v s).2.2.2.2.2.1
    (hostWrite_frame r k len v s).2.2.2.2.2.2.2.2.2.2.2.1), (keeping_hostWrite r k len v s).2⟩

/-! ### Requests -/

theorem keeps_requestWrite (r : Role) (k len v : Nat) (s : State) : Keeping requestView s (requestWrite r k len v s).st :=
  .of_ite Ans.st (.of_ite Ans.st .refl .refl) (keeps_hostWrite ..)

theorem keeps_add (x : RecOut) (st : State) (keys : List (Role × BitVec 256)) (a : Run) (h : Keeping requestView a.st st) :
    Keeping requestView a.st (a.add x st keys).st :=
  .of_ite Run.st .refl h

theorem keeps_runOp (r : Role) (a : Run) (o : DictOp) : Keeping requestView a.st (runOp r a o).st :=
  .of_ite Run.st (keeps_add _ _ _ a (keeps_requestWrite ..))
    (keeping_foldl (w := Run.st) (fun b _h => keeps_add _ _ _ b .refl) (List.range _) a)

theorem keeps_runRequest (q : DictReq) (s : State) : Keeping requestView s (runRequest q s).st :=
  .of_ite Run.st (.refl)
    (keeping_foldl (w := Run.st) (keeps_runOp q.role) _ ⟨s, [], 16 + tagLen (octetAt q.payload 0), false, []⟩)

/-- The operations of a request and its keys, once they are in effect. -/
theorem keeps_keys (q : DictReq) (s : State) :
    Keeping requestView s (forList (runRequest q s).keys (fun p => changeKey p.1 p.2) (runRequest q s).st) :=
  .trans (keeps_runRequest q s) (keeping_foldl (w := fun s => s) (fun s (p : Role × BitVec 256) => keeps_changeKey p.1 p.2 s) _ _)

/-- A request that has run is charged and leaves the queue (R338). -/
noncomputable def requestCharged (cost : Nat) (s : State) : State :=
  { s with dict.queue := s.dict.queue.drop 1, time.reserveLeft := s.time.reserveLeft - cost }

/-- The answer of a request that has run. -/
noncomputable def requestAnswer (q : DictReq) (body : List Nat) : Answer :=
  ⟨if q.role = .observer then none else some q.tag16, body, q.key, none, true⟩

theorem finishRequest_eq (q : DictReq) (a : Run) (body : List Nat) (cost : Nat) :
    finishRequest q a body cost =
      (let s := requestCharged cost (forList a.keys (fun p => changeKey p.1 p.2) a.st)
       if (octetAt q.payload 1).testBit 1 && !a.refused then s else newAnswer (requestAnswer q body) s) := rfl

theorem keeps_finishRequest (q : DictReq) (s : State) (body : List Nat) (cost : Nat) :
    Keeps s (finishRequest q (runRequest q s) body cost) :=
  finishRequest_eq q (runRequest q s) body cost ▸ .trans (keeps_keys q s).dict.write.keeps (.ite (.refl) (.refl))

theorem keeps_dictExecute (s : State) : Keeps s (dictExecute s) := by
  unfold dictExecute
  generalize s.dict.queue = l
  induction l with
  | nil => exact .refl
  | cons q l => exact .ite (keeps_finishRequest q s _ _) .refl

/-! ### Events with rules of their own -/

theorem keeps_syncReceive (p : Nat) (m : PtpEvent) : ∀ s, Keeps s (syncReceive p m s) := keeps_confB (syncReceive_frame p m)

theorem keeps_followUpReceive (p : Nat) (m : PtpEvent) : ∀ s, Keeps s (followUpReceive p m s) := keeps_confB (followUpReceive_frame p m)

theorem keeps_evEdge (x b : Nat) (rising : Bool) : ∀ s, Keeps s (evEdge x b rising s) := keeps_confB (evEdge_frame x b rising)

theorem keeps_announceReceive (p : Nat) (a : Announce) (s : State) : Keeps s (announceReceive p a s) :=
  .of_eq (announceReceive_frame p a s).1 (congrArg Conf.cfg (announceReceive_frame p a s).2.1)

theorem keeps_calEnd (s : State) : Keeps s (calEnd s) :=
  .of_eq (calEnd_frame s).1 (calEnd_frame s).2.2.2.2.2.2.2.2.2.2.2.2.1

/-- What a failure of a slice does, where a command reports one. -/
def FailureKeeps (o : Option (Nat × (State → State))) : Prop := ∀ p, o = some p → ∀ s, Keeps s (p.2 s)

theorem failureKeeps_none : FailureKeeps none := fun p h => absurd h.symm (Option.some_ne_none p)

theorem failureKeeps_ite {c : Prop} [d : Decidable c] {k : Nat} {F : State → State} (h : ∀ s, Keeps s (F s)) :
    FailureKeeps (if c then some (k, F) else none) :=
  iteInduction (fun _a _b hp => Option.some.inj hp ▸ h) fun _h => failureKeeps_none

set_option tactic.hygienic false in
theorem failureKeeps (g : Nat) (c : Instr) : FailureKeeps (failureOf g c) := by
  revert c
  apply @Instr.rec fun c => FailureKeeps (failureOf g c)
  case stuckOutput => exact fun _h k => failureKeeps_ite (keeps_cfg (stuck_frame g k.val))
  case arraySaturation => exact fun _h k => failureKeeps_ite (keeps_cfg (saturated_frame g k.val))
  all_goals intros; exact failureKeeps_none

theorem keeps_failed (s : State) (o : Option (Nat × (State → State))) :
    FailureKeeps o → Keeps s (match o with | some p => p.2 s | none => s) :=
  o.rec (fun _h => .refl) fun p h => h p rfl s

theorem failureKeeps_find (g : Nat) (l : List Instr) (q : Nat × (State → State) → Bool) :
    FailureKeeps ((l.filterMap (failureOf g)).find? q) := fun p hp => by
  obtain ⟨c, _, hc⟩ := List.mem_filterMap.mp (List.mem_of_find?_eq_some hp)
  exact failureKeeps g c p hc

/-- The failures of one sample take in those that wait behind the first (R105). -/
theorem keeps_failSample (g k : Nat) {f : State → State} (hf : ∀ s, Keeps s (f s)) (s : State) : Keeps s (failSample g k f s) :=
  .trans (keeping_foldl (w := fun s => s) (fun t _h => keeps_failed t _ (failureKeeps_find g _ _)) (List.range k) s) (hf _)

/-! ### Every command -/

/-- A command's result: it goes on, with its queue, and keeps the canonical form. -/
def Goes (s : State) (r : Result) : Prop := ∃ t, r = .next t ∧ Keeps s t

theorem goes_next {s t : State} (h : Keeps s t) : Goes s (.next t) := ⟨t, rfl, h⟩

theorem keeps_settle (s : State) : Keeps s (settle s) := keeps_conf (settle_frame) s

theorem goes_done {s t : State} (h : Keeps s t) : Goes s (done t) := goes_next (h.trans (keeps_settle t))

theorem goes_guarded {p : Prop} [d : Decidable p] {s t : State} (h : Keeps s t) : Goes s (if p then done t else .next s) :=
  iteInduction (fun _h => goes_done h) fun _h => goes_next .refl

section
variable {α β : Type} {g : State → Bool} {s : State}

theorem goes_cfg {F : State → State} {R : State → Prop}
    (h : ∀ s, (F s).pending = s.pending ∧ (F s).conf.cfg = s.conf.cfg ∧ R s) (s : State) :
    Goes s (if g s then done (F s) else .next s) :=
  goes_guarded (keeps_cfg h s)

theorem goes_cfg1 {F : α → State → State} {R : α → State → Prop}
    (h : ∀ a s, (F a s).pending = s.pending ∧ (F a s).conf.cfg = s.conf.cfg ∧ R a s) (a : α) (s : State) :
    Goes s (if g s then done (F a s) else .next s) :=
  goes_cfg (h a) s

theorem goes_cfg2 {F : α → β → State → State} {R : α → β → State → Prop}
    (h : ∀ a b s, (F a b s).pending = s.pending ∧ (F a b s).conf.cfg = s.conf.cfg ∧ R a b s) (a : α) (b : β) (s : State) :
    Goes s (if g s then done (F a b s) else .next s) :=
  goes_cfg (h a b) s

theorem goes_conf {F : State → State} {R : State → Prop}
    (h : ∀ s, (F s).pending = s.pending ∧ (F s).power = s.power ∧ (F s).time = s.time ∧ (F s).conf = s.conf ∧ R s) (s : State) :
    Goes s (if g s then done (F s) else .next s) :=
  goes_guarded (keeps_conf h s)

theorem goes_conf1 {F : α → State → State} {R : α → State → Prop}
    (h : ∀ a s, (F a s).pending = s.pending ∧ (F a s).power = s.power ∧ (F a s).time = s.time ∧ (F a s).conf = s.conf ∧ R a s)
    (a : α) (s : State) : Goes s (if g s then done (F a s) else .next s) :=
  goes_conf (h a) s

theorem goes_conf2 {F : α → β → State → State} {R : α → β → State → Prop}
    (h : ∀ a b s, (F a b s).pending = s.pending ∧ (F a b s).power = s.power ∧ (F a b s).time = s.time ∧
      (F a b s).conf = s.conf ∧ R a b s) (a : α) (b : β) (s : State) : Goes s (if g s then done (F a b s) else .next s) :=
  goes_conf (h a b) s

theorem goes_served {k : State → Ans} (h : Keeps s (k s).st) : Goes s (served s k) := goes_guarded (h.trans (.refl))

theorem goes_write {F : Role → α → State → Ans} (h : ∀ r v s, Keeping writeView s (F r v s).st) (r : Role) (v : α) (s : State) :
    Goes s (served s (F r v)) :=
  goes_served (h r v s).keeps

theorem goes_entry {k : State → Ans} (h : Keeping dictView s (k s).st) : Goes s (served s k) := goes_served h.write.keeps

theorem goes_host {k : State → Ans} (h : Keeping requestView s (k s).st) : Goes s (served s k) := goes_entry h.dict

end

theorem exec_goes (c : Instr) : ∀ s, Goes s (exec c s) := by
  apply @Instr.rec fun c => ∀ s, Goes s (exec c s)
  case rotHandover => exact fun g => goes_cfg1 handover_frame g.val
  case rotReconnect => exact fun g => goes_cfg1 reconnect_frame g.val
  case rotHandBack => exact fun g => goes_cfg1 handBack_frame g.val
  case rotPairUpdate => exact fun g => goes_cfg1 pairUpdate_frame g.val
  case captureStoreResume => exact fun u => goes_cfg1 resumeStore_frame u.val
  case fadeFirstOutput => exact fun g => goes_cfg1 fadeFirst_frame g.val
  case fadeComplete => exact fun g => goes_cfg1 fadeDone_frame g.val
  case gateIdleSignal => exact fun d => goes_cfg1 gateIdle_frame d.val
  case announceReceiptTimeout => exact fun p => goes_cfg1 announceTimeout_frame p.val
  case pdelayRespTimeout => exact fun p => goes_cfg1 pdelayTimeout_frame p.val
  case portLocalFault => exact fun p => goes_cfg1 localFault_frame p.val
  case portLinkReturn => exact fun p => goes_cfg1 linkReturn_frame p.val
  case portPromote => exact fun p => goes_cfg1 promote_frame p.val
  case portSelfTestRetry => exact fun p => goes_cfg1 selfTestRetry_frame p.val
  case auxConversionDone => exact goes_cfg1 auxDone_frame
  case sbufEnter => exact goes_cfg1 sbufEnter_frame
  case reserveRefill => exact goes_cfg1 refill_frame
  case refclk10Measure => exact goes_cfg1 refclkMeasure_frame
  case perfLevelChangeDone => exact goes_cfg1 levelDone_frame
  case triggerMessageReceive => exact goes_cfg1 msgReceive_frame
  case jtagInstructionUpdate => exact goes_cfg1 jtagUpdate_frame
  case sourceSwitchComplete => exact goes_cfg switchComplete_frame
  case sbufLineRelease => exact goes_cfg lineRelease_frame
  case noOffsetTimeout => exact goes_cfg noOffset_frame
  case portRevert => exact goes_cfg revert_frame
  case warmEnd => exact goes_cfg warmDone_frame
  case resampledOutputFormed => exact fun st => goes_cfg2 outputFormed_frame st.val
  case rotForwardFit => exact fun g => goes_cfg2 forwardFit_frame g.val
  case rotReverseFit => exact fun g => goes_cfg2 reverseFit_frame g.val
  case frameTransmit => exact fun p => goes_cfg2 frameTransmit_frame p.val
  case pdelayReqSend => exact fun p => goes_cfg2 pdelaySend_frame p.val
  case pdelayRespReceive => exact fun p => goes_cfg2 pdelayResp_frame p.val
  case axindFrameReceive => exact fun p => goes_cfg2 axindReceive_frame p.val
  case breakNoticeReceive => exact fun p _h clear _b => goes_cfg2 breakReceive_frame p.val clear
  case portSelfTestEnd => exact fun p => goes_cfg2 selfTestEnd_frame p.val
  case dictRequestReceive => exact fun p => goes_cfg2 dictReceive_frame p.val
  case overloadExcursion => exact fun c run => goes_cfg2 (overload_frame c.val) run.samples run.side
  case rotLadderCalEnd => exact fun g k => goes_cfg1 (ladderEnd_frame g.val k.val)
  case creditAckReceive => exact fun a => goes_cfg2 (creditAck_frame a)
  case ptpMessageForward => exact fun p m => goes_cfg2 (ptpForward_frame p.val) m.head m.octets
  case pdelayReqReceive => exact fun p h => goes_cfg2 (pdelayAnswer_frame p.val h.head h.seq)
  case pdelayRespFollowUpReceive => exact fun p h => goes_cfg2 (pdelayFollowUp_frame p.val h.head h.seq)
  case auxCalBegin => exact goes_conf auxCalBegin_frame
  case retxTimeout => exact goes_conf retxTimeout_frame
  case calRestart => exact goes_conf calRestart_frame
  case delayReqReceive => exact fun _h s => goes_guarded (keeps_conf ptpDiscard_frame s)
  case imageWriteDone => exact goes_conf1 imageWriteDone_frame
  case slotMirrorDone => exact goes_conf1 slotMirrorDone_frame
  case keepRegionWriteDone => exact goes_conf1 keepWriteDone_frame
  case interimClose => exact fun st => goes_conf1 interimClose_frame st.val
  case trgTimeInstant => exact fun u => goes_conf1 fireInstant_frame u.val
  case owcPhaseBoundary => exact fun g => goes_conf1 owcPhase_frame g.val
  case gateTimeout => exact fun d => goes_conf1 gateTimeout_frame d.val
  case refReadySet => exact fun g => goes_conf1 refReadySet_frame g.val
  case auxCalEnd => exact goes_conf2 auxCalEnd_frame
  case owcComplete => exact fun g => goes_conf2 owcComplete_frame g.val
  case trgHoldoffExpiry => exact fun u => goes_conf2 onUnit_frame u.val _
  case overloadSpanClose => exact fun c => goes_conf2 onChan_frame c.val _
  case followUpTimeout => exact fun w => goes_conf2 onPtp_frame w.port.val _
  case keyGraceExpiry => exact fun r s => goes_conf2 putKey_frame r _ s
  case auxLaunch => exact goes_write (keeps_write auxLaunchWrite_frame)
  case auxInject => exact goes_write (keeps_write auxInjectWrite_frame)
  case auxCalStart => exact goes_write (keeps_write auxCalStartWrite_frame)
  case auxRingRead => exact fun r v s => goes_entry (keeps_auxRingReadWrite r v s)
  case evRingRead => exact fun r v s => goes_entry (keeps_evRingReadWrite r v.toNat s)
  case calStart => exact goes_write (keeps_write calStartWrite_frame)
  case firSeal => exact goes_write (keeps_write firSealWrite_frame)
  case firLoadFactory => exact goes_write (keeps_write firLoadWrite_frame)
  case firXfadeStart => exact goes_write (keeps_write fadeWrite_frame)
  case owcStart => exact goes_write (keeps_write owcStartWrite_frame)
  case streamStart => exact goes_write (keeps_write streamStartWrite_frame)
  case streamStop => exact goes_write (keeps_write streamStopWrite_frame)
  case trgArm => exact goes_write (keeps_write trgArmWrite_frame)
  case trgDisarm => exact goes_write (keeps_write trgArmWrite_frame)
  case timeStep => exact goes_write (keeps_write stepWrite_frame)
  case pennantDip => exact goes_write (keeps_write dipWrite_frame)
  case followUpReceive => exact fun p m s => goes_guarded (keeps_followUpReceive p.val m s)
  case syncReceive => exact fun p m s => goes_guarded (keeps_syncReceive p.val m s)
  case announceReceive => exact fun p a s => goes_guarded (keeps_announceReceive p.val a s)
  case timeEpochWrite => exact fun r v s => goes_entry (keeps_epochWrite r v s)
  case timeSet => exact goes_write keeps_setWrite
  case hibernate => exact goes_write (keeps_writeB hibernateWrite_frame)
  case moduleReset => exact goes_write (keeps_writeB moduleResetWrite_frame)
  case taSubmitStartStreams => exact goes_write keeps_taSubmit
  case taSubmitStopStreams => exact goes_write keeps_taSubmit
  case taSubmitTrgArm => exact goes_write keeps_taSubmit
  case taSubmitHoist => exact goes_write keeps_taSubmit
  case taSubmitOwc => exact goes_write keeps_taSubmit
  case taSubmitStepTime => exact goes_write keeps_taSubmit
  case taSubmitXfade => exact goes_write keeps_taSubmit
  case taCancel => exact goes_write keeps_taCancel
  case hoist => exact goes_write keeps_hoistWrite
  case shadowDiscard => exact goes_write keeps_discardWrite
  case rerouteConfirm => exact fun r v => goes_write keeps_rerouteWrite r v.toNat
  case rerouteApplyAsym => exact fun r v => goes_write keeps_rerouteWrite r v.toNat
  case firCoefWrite => exact fun r g b i v s => goes_entry (keeps_firCoefWrite r g.val (if b then 1 else 0) i.val v s)
  case trgMissClear => exact fun r u v s => goes_entry (keeps_missWrite r u.val v.toNat s)
  case refbufEnableWrite => exact fun r g v s => goes_entry (keeps_refbufWrite r g.val v.toNat s)
  case registerWrite => exact fun r k v s => goes_host (keeps_hostWrite r k (hostLen k v) v s)
  case stagedWrite => exact fun r k v s => goes_host (keeps_hostWrite r k (hostLen k v) v s)
  case keyWrite => exact fun r w k s => goes_host (keeps_hostWrite r (key 0x1200 (Role.rank w)) 32 k.toNat s)
  case identitySerialMatch => exact fun r v s => goes_host (keeps_hostWrite r (key 0x1001 1) 4 v.toNat s)
  case dictRequestExecute => exact fun s => goes_guarded (keeps_dictExecute s)
  case warmOvertime => exact fun s => goes_guarded (keeps_confB warmOvertime_frame s)
  case sourceStop => exact fun src s => goes_guarded (keeps_confB (sourceStop_frame src) s)
  case sourceRunning => exact fun src s => goes_guarded (keeps_confB (sourceRun_frame src) s)
  case calEnd => exact fun _a _b s => goes_guarded (.ite (keeps_calEnd s) .refl)
  case trgoutPulseStart => exact fun _a _b => goes_guarded (.refl)
  case trgoutPulseEnd => exact fun _a _b => goes_guarded (.refl)
  case auxWindowRearm => exact fun _a _b => goes_guarded (.refl)
  case replayEntryExpiry => exact fun _h => goes_guarded (.refl)
  case auxHoldInstant => exact fun s => goes_guarded (.ite (.refl) (keeps_cfg auxHold_frame s))
  case auxWindowEvent => exact fun w s => goes_guarded (.ite (.refl) (keeps_cfg (windowEvent_frame w.val) s))
  case stuckOutput => exact fun g k s => goes_guarded (keeps_failSample g.val k.val (keeps_cfg (stuck_frame g.val k.val)) s)
  case arraySaturation => exact fun g k s => goes_guarded (keeps_failSample g.val k.val (keeps_cfg (saturated_frame g.val k.val)) s)
  case evEdge => exact fun x b rising s => iteInduction (fun _h => goes_done (keeps_evEdge x.val b.val rising s)) fun _h => goes_next (.refl)
  case calC0 => exact fun s => iteInduction (fun _h => goes_next (keeps_hibernateEntry s)) fun _h => goes_guarded (keeps_confB calC0_frame s)
  case frameTick =>
    exact fun o s => iteInduction (fun _h => iteInduction (fun _h => goes_next (keeps_hibernateEntry s)) fun _h => goes_done (keeps_frameTick o s))
      fun _h => goes_next .refl
  case vmainApplied => exact fun _h => goes_next (.ite .refl (.refl))
  case vmainLost => exact fun _h => goes_next (.of_empty rfl rfl)
  case wakeAsserted => exact fun level s => goes_next (keeps_wakeChange level s)
  case wakeWindowExpiry => exact fun _h => goes_next (.ite (.refl) .refl)
  case resetNAsserted => exact fun s => goes_next (keeps_resetFall s)
  case resetNRelease => exact fun s => goes_next (keeps_resetRise s)
  case bootComplete => exact fun ok slot s => goes_done (keeps_bootComplete ok slot s)
  case entryIntoHibernate => exact fun s => goes_next (keeps_hibernateEntry s)
  case resetCommandBootEntry => exact fun s => goes_next (keeps_resetEntry s)

theorem keeps_idleCycle (s : State) : Keeps s (idleCycle (cycleEnd s)) :=
  (keeps_conf cycleEnd_frame s).trans (keeps_confB idleCycle_frame _)

theorem exists_step {s t : State} {c : Instr} (h : step s = exec c t) (hc : s.CfgInv → t.CfgInv) :
    ∃ u, step s = .next u ∧ (s.CfgInv → u.CfgInv) :=
  (exec_goes c t).imp fun _h k => ⟨h.trans k.1, k.2.2 ∘ hc⟩

/-- A step is a command or an engine cycle. -/
theorem step_goes (s : State) : ∃ t, step s = .next t ∧ (s.CfgInv → t.CfgInv) := by
  cases h : s.pending with
  | nil => exact ⟨_, step_of_no_command h, (keeps_idleCycle s).2⟩
  | cons c rest => exact exists_step (stepRunsFront c rest s h) id

/-- Settles O3: every command goes on, and so does a step, which is a command or an engine cycle. -/
theorem stepsAnswerAndKeepTheQueue : Obligations.StepsAnswerAndKeepTheQueue :=
  ⟨fun s hs => (step_goes s).elim fun t h => hs t h.1,
    fun c s _ h => (exec_goes c s).elim fun _h k => (congrArg State.pending (Host.Outcome.next.inj (h.symm.trans k.1))).trans k.2.1⟩

/-- Settles O6: an engine cycle leaves the configuration, and every command keeps its canonical form. -/
theorem configurationStaysCanonical : Obligations.ConfigurationStaysCanonical := fun s _ hs h =>
  (step_goes s).elim fun _h k => Host.Outcome.next.inj (k.1.symm.trans h) ▸ k.2 hs

end Sys2Proof.Machine


/-! SUPPORT AND PROOFS. Requests that run (R328, R332, R337, R338). -/

namespace Sys2Proof.Machine

/-- What the end of a request charges or leaves, with the answers that wait. -/
noncomputable def chargeView (s : State) : List Answer × List DictReq × Nat × List Instr × List Output × List Replay :=
  (s.link.own, s.dict.queue, s.time.reserveLeft, s.pending, s.out, s.dict.replay)

/-- The charge of a request, with the answers l, on what its operations leave. -/
noncomputable def charging (cost : Nat) (l : List Answer) (v : ((List Instr × Nat) × List DictReq × List Replay) × Link × List Output) :
    List Answer × List DictReq × Nat × List Instr × List Output × List Replay :=
  (v.2.1.own ++ l, v.1.2.1.drop 1, v.1.1.2 - cost, v.1.1.1, v.2.2, v.1.2.2)

/-- A request leaves an answer, unless it is QUIET and no record is refused. -/
theorem chargeView_answered (c r : Bool) (a : Answer) (cost : Nat) (s : State) :
    chargeView (if c && !r then requestCharged cost s else newAnswer a (requestCharged cost s)) =
      charging cost (if c = true ∧ r = false then [] else [a]) (requestView s) := by
  induction c with
  | false => rfl
  | true => induction r with
    | true => rfl
    | false => exact congrArg (fun l => (l, (chargeView (requestCharged cost s)).2)) (List.append_nil _).symm

/-- The execution of the oldest of these requests (R338). -/
noncomputable def executed (s : State) : List DictReq → State
  | [] => s
  | q :: _ =>
    let a := runRequest q s
    let body := answerBody q a s.time.cycTw
    let cost := requestCost q a body
    if cost ≤ s.time.reserveLeft then finishRequest q a body cost else s

theorem dictExecute_eq {s : State} {l : List DictReq} (hq : s.dict.queue = l) : dictExecute s = executed s l :=
  congrArg (executed s) hq

theorem dictRequestExecute_waits {s : State} (hl : live s = true) (h : dictExecute s = s) :
    ∃ t, exec .dictRequestExecute s = .next t ∧ t = { s with health := s.settledHealth t, store := s.settledStore t } :=
  done_next hl rfl h fun _u => rfl

theorem charging_finishRequest {q : DictReq} {a : Run} {body : List Nat} {cost : Nat} {s : State}
    (h : requestView (forList a.keys (fun p => changeKey p.1 p.2) a.st) = requestView s) :
    chargeView (finishRequest q a body cost) = charging cost (if (octetAt q.payload 1).testBit 1 = true ∧ a.refused = false then []
      else [requestAnswer q body]) (requestView s) :=
  (chargeView_answered _ _ _ _ _).trans (congrArg (charging cost _) h)

theorem reads_of_charging {s t : State} {cost : Nat} {l : List Answer} {q : DictReq} {rest : List DictReq}
    (h : chargeView t = charging cost l (requestView s)) (hq : s.dict.queue = q :: rest) :
    t.dict.queue = rest ∧ t.time.reserveLeft = s.time.reserveLeft - cost ∧ t.pending = s.pending ∧ t.out = s.out ∧
      t.dict.replay = s.dict.replay ∧ t.link.own = s.link.own ++ l :=
  ⟨(congrArg (fun v => v.2.1) h).trans (congrArg (List.drop 1) hq), congrArg (fun v => v.2.2.1) h,
    congrArg (fun v => v.2.2.2.1) h, congrArg (fun v => v.2.2.2.2.1) h, congrArg (fun v => v.2.2.2.2.2) h, congrArg Prod.fst h⟩

/-- Settles O53: the operations and the keys of a request leave what its end charges and answers. -/
theorem requestsRun : Obligations.RequestsRun := by
  refine fun s hl => ⟨fun hq => dictRequestExecute_waits hl (dictExecute_eq hq), fun q rest hq => ?_⟩
  intro a body cost
  exact ⟨fun hlt => dictRequestExecute_waits hl ((dictExecute_eq hq).trans (if_neg (Nat.not_le.2 hlt))), fun hle =>
    done_next hl rfl ((dictExecute_eq hq).trans (if_pos hle)) fun u =>
      reads_of_charging (t := settledFrom (finishRequest q a body cost) (finishRequest q a body cost) u)
        (charging_finishRequest (keeps_keys q s).1) hq⟩

end Sys2Proof.Machine


/-! SUPPORT AND PROOFS. The stream buffer and the reserve (R297 to R299, R302, R307, R309). -/

namespace Sys2Proof.Machine

/-! ### What a read of a frame leaves (R304 to R307, R397) -/

/-- What of a state a read of a frame leaves as it is: the stores of frames among it, without the counts of the memory. -/
noncomputable def readView (s : State) : State :=
  { State.reset with
    pending := s.pending, power := s.power, time := s.time, conf := s.conf, act := s.act, out := s.out
    buf := { s.buf with parityErrors := 0, poisoned := 0, unrecovered := 0, shadowReads := 0 } }

theorem readView_settle (s : State) : readView (settle s) = readView s := (congrArg readView (settle_settled s) :)

/-- The state with one more word whose check fails. -/
noncomputable def parityCounted (s : State) : State := { s with buf.parityErrors := satInc s.buf.parityErrors }

/-- The state with one more sample that is poisoned, one more word that no shadow restores, one more that its shadow restores. -/
noncomputable def poisonCounted (s : State) : State := { s with buf.poisoned := satInc s.buf.poisoned }

noncomputable def lossCounted (s : State) : State := { s with fv := s.fv + 1, buf.unrecovered := satInc s.buf.unrecovered }

noncomputable def shadowCounted (s : State) : State := { s with buf.shadowReads := satInc s.buf.shadowReads }

/-- A word whose check fails, by what it holds and its shadow (R305 to R307). -/
noncomputable def wordFailed (f : Frame) (w : WordFault) (s : State) : Frame × State :=
  if f.isSample w.word then (f.poisoned w.word, raisePn 9 (poisonCounted s))
  else if w.shadowBad then (f.put w.word ((fresh s).1 % 2 ^ 32), raisePn 9 (lossCounted s))
  else (f.restored w.word, shadowCounted s)

theorem readView_wordFailed (f : Frame) (w : WordFault) (s : State) : readView (wordFailed f w s).2 = readView s :=
  view_ite (fun x : Frame × State => readView x.2) rfl (view_ite (fun x : Frame × State => readView x.2) rfl rfl)

theorem readView_wordFault (x : Frame × State) (w : WordFault) : readView (wordFault x w).2 = readView x.2 :=
  view_ite (fun x : Frame × State => readView x.2) rfl (Option.rec (motive := fun o => readView (match o with
    | some v => (x.1.put w.word v.toNat, x.2)
    | none => wordFailed x.1 w (parityCounted x.2)).2 = readView x.2) (readView_wordFailed x.1 w (parityCounted x.2)) (fun _v => rfl) w.unseen)

theorem readView_keepSave (s : State) : readView (keepSave s) = readView s := (congrArg readView (storeless_keepSave s) :)

/-- A retirement saves what the keep region holds. -/
theorem readView_kept {s : State} {o : Option Nat} {f : Nat → State} (h : ∀ x, readView (f x) = readView s) :
    readView (match o with | some x => keepSave (f x) | none => s) = readView s := by
  induction o with
  | none => rfl
  | some x => exact (readView_keepSave _).trans (h x)

theorem readView_retirePage (k : Nat) (word : Option Nat) (s : State) : readView (retirePage k word s) = readView s :=
  view_ite readView rfl (readView_kept fun _x => rfl)

theorem readView_remapRow (k : Nat) (s : State) : readView (remapRow k s) = readView s :=
  view_ite readView rfl (readView_kept fun _x => rfl)

theorem readView_dramError (e : MemError) (s : State) : readView (dramError e s) = readView s :=
  view_ite readView (readView_retirePage ..) (view_ite readView (readView_retirePage ..) rfl)

theorem readView_rowFault (row word : Nat) (bad : Bool) (s : State) : readView (rowFault row word bad s) = readView s :=
  view_ite readView (readView_remapRow ..) rfl

theorem readView_readWord (x : Frame × State) (w : WordFault) : readView (readWord x w).2 = readView x.2 := by
  unfold readWord
  generalize w.row = k
  generalize w.unseen = u
  induction k with
  | none => exact readView_wordFault x w
  | some k => induction u with
    | none => exact (readView_rowFault ..).trans (readView_wordFault x w)
    | some u => exact readView_wordFault x w

theorem readView_words (l : List WordFault) (x : Frame × State) : readView (l.foldl readWord x).2 = readView x.2 := by
  induction l generalizing x with
  | nil => rfl
  | cons w l ih => exact (ih _).trans (readView_readWord x w)

theorem readView_errors (l : List MemError) (s : State) : readView (forList l dramError s) = readView s := by
  unfold forList
  induction l generalizing s with
  | nil => rfl
  | cons e l ih => exact (ih _).trans (readView_dramError e s)

theorem readView_readFrame (o : ReadObs) (f : Frame) (s : State) : readView (readFrame o f s).2 = readView s :=
  (readView_words o.words _).trans (readView_errors o.dram s)

/-- A frame without a failing word is read as it is. -/
theorem readFrame_of_words {o : ReadObs} (h : o.words = []) (f : Frame) (s : State) : (readFrame o f s).1 = f :=
  congrArg (fun l : List WordFault => (l.foldl readWord (f, forList o.dram dramError s)).1) h

theorem reads_of_view {t v : State} (h : readView t = v) :
    t.pending = v.pending ∧ t.power = v.power ∧ t.time = v.time ∧ t.conf = v.conf ∧ t.act = v.act ∧ t.out = v.out :=
  ⟨congrArg (fun v => v.pending) h, congrArg (fun v => v.power) h, congrArg (fun v => v.time) h, congrArg (fun v => v.conf) h,
    congrArg (fun v => v.act) h, congrArg (fun v => v.out) h⟩

/-! ### The head of a class queue enters (R297) -/

/-- The state without the head of class queue q. -/
noncomputable def headGone (q : Nat) (l : List Frame) (s : State) : State := { s with buf.asm := s.buf.asm.set q l }

/-- The state with the head of class queue q taken for its entry, its allowance charged. -/
noncomputable def headTaken (q : Nat) (f : Frame) (s : State) : State :=
  if q = 1 then { s with link.ctlLeft := s.link.ctlLeft - wireLen s f.octets.length } else s

/-- A frame as it enters at WRITE, with every line still to be written. -/
noncomputable def entered (f : Frame) (s : State) : Entered :=
  { frame := f, line := s.buf.write, lines := ceilDiv (24 + f.octets.length) 64, unwritten := ceilDiv (24 + f.octets.length) 64
    freed := 0, ssn := 0, credit := 0, sent := false, acked := false, sentAt := 0, sentOn := 0 }

/-- The entry of the frame that a read gives. -/
noncomputable def enters (x : Frame × State) : State := enterFrame x.1 x.2

theorem readView_enters {x : Frame × State} {s : State} (h : readView x.2 = readView s) :
    readView (settle (enters x)) = readView (enterFrame x.1 s) :=
  (readView_settle _).trans (congrArg (enterFrame x.1) h :)

section
variable {s : State} {q : Nat} {f : Frame} {l : List Frame}

theorem sbufEnter_of_head (o : ReadObs) (hw : noneWaiting s = true) (hn : segInFlight s < 192)
    (hq : enterQueue s = some q) (hf : s.buf.asm[q]? = some (f :: l)) :
    sbufEnter o s = enters (readFrame o f (headTaken q f (headGone q l s))) :=
  if_neg_trans (fun h => h.elim (ne_true_of_eq_false (congrArg not hw)) (Nat.not_le.2 hn))
    ((congrArg (fun o' : Option Nat => match o' with
      | none => s
      | some q => match s.buf.asm.getD q [] with
        | [] => s
        | f :: l => enters (readFrame o f (headTaken q f (headGone q l s)))) hq).trans
    (congrArg (fun l' : Option (List Frame) => match l'.getD [] with
      | [] => s
      | f :: l => enters (readFrame o f (headTaken q f (headGone q l s)))) hf))

theorem readView_headRead (o : ReadObs) : readView (readFrame o f (headTaken q f s)).2 = readView s :=
  (readView_readFrame o f _).trans (view_ite readView rfl rfl)

theorem sbufEnter_next (hl : live s = true) (o : ReadObs) (hw : noneWaiting s = true) (hn : segInFlight s < 192)
    (hq : enterQueue s = some q) (hf : s.buf.asm[q]? = some (f :: l)) :
    ∃ t e, exec (.sbufEnter o) s = .next t ∧ t.buf.asm = s.buf.asm.set q l ∧ t.buf.sbuf = s.buf.sbuf ++ [e] ∧
      e.sent = false ∧ e.acked = false ∧ e.line = s.buf.write ∧ e.unwritten = e.lines ∧
      (o.words = [] → e.frame = f ∧ e.lines = ceilDiv (24 + f.octets.length) 64) ∧
      t.pending = s.pending ∧ t.power = s.power ∧ t.time = s.time ∧ t.conf = s.conf ∧ t.act = s.act ∧ t.out = s.out :=
  have h := readView_enters (readView_headRead (q := q) (f := f) (s := headGone q l s) o)
  have hr := fun hw => readFrame_of_words (o := o) hw f (headTaken q f (headGone q l s))
  ⟨_, entered (readFrame o f (headTaken q f (headGone q l s))).1 s, exec_done hl rfl (sbufEnter_of_head o hw hn hq hf),
    congrArg (fun v => v.buf.asm) h, congrArg (fun v => v.buf.sbuf) h, rfl, rfl, rfl, rfl,
    fun hw => ⟨hr hw, congrArg (fun g : Frame => ceilDiv (24 + g.octets.length) 64) (hr hw)⟩, (reads_of_view h :)⟩

end

/-! ### A line is freed at MARK (R299, R302) -/

/-- The entered frames after a line of e is freed. -/
noncomputable def lineRest (e : Entered) (l : List Entered) : List Entered :=
  if e.lines ≤ e.freed + 1 then l else { e with freed := e.freed + 1 } :: l

/-- The state after a line is freed, with the entered frames that rest. -/
noncomputable def lineFreed (rest : List Entered) (s : State) : State :=
  { s with buf := { s.buf with
    sbuf := rest, mark := (s.buf.mark + 1) % sbufLines, depth := s.buf.depth - 1, portsAt := some s.time.cyc } }

/-- A line that waits lands with the one that is freed. -/
noncomputable def lineLanded (rest : List Entered) (s : State) : State :=
  landLines (min 1 (rest.map Entered.unwritten).sum) (lineFreed rest s)

section
variable {s : State} (hl : live s = true)
include hl

theorem sbufLineRelease_next {e : Entered} {l : List Entered} (hs : s.buf.sbuf = e :: l)
    (ha : e.acked = true) (hp : s.buf.portsAt ≠ some s.time.cyc) :
    let rest := if e.lines ≤ e.freed + 1 then l else { e with freed := e.freed + 1 } :: l
    let m := min 1 (rest.map Entered.unwritten).sum
    ∃ t, exec .sbufLineRelease s = .next t ∧ t.buf.mark = (s.buf.mark + 1) % sbufLines ∧
      t.buf.depth = s.buf.depth - 1 + m ∧ t.buf.write = (s.buf.write + m) % sbufLines ∧
      t.buf.sbuf = rest.map (fun x => { x with unwritten := x.unwritten - m }) ∧ t.buf.portsAt = some s.time.cyc ∧
      t = { s with buf := t.buf, health := s.settledHealth t, store := s.settledStore t } :=
  done_next (x := lineLanded (lineRest e l) s) hl rfl ((congrArg (fun l : List Entered => match l with
    | e :: l => if e.acked ∧ s.buf.portsAt ≠ some s.time.cyc then lineLanded (lineRest e l) s else s
    | [] => s) hs).trans (if_pos ⟨ha, hp⟩)) fun _u => ⟨rfl, eqs₅ _ _ _ _ _⟩

/-- Once a line has been freed in an engine cycle, no other is. -/
theorem sbufLineRelease_again (hp : s.buf.portsAt = some s.time.cyc) :
    ∃ t, exec .sbufLineRelease s = .next t ∧ t = { s with health := s.settledHealth t, store := s.settledStore t } := by
  refine done_next (x := s) hl rfl ?_ fun _u => rfl
  unfold lineRelease
  generalize s.buf.sbuf = l
  induction l with
  | nil => rfl
  | cons e l => exact if_neg fun h => h.2 hp

end

/-! ### The reserve moves to the assembly area (R309) -/

/-- What the oldest frame of a reserve queue is read as, with the state after it (R304, R309). -/
noncomputable def refillRead (o : ReadObs) (f : Frame) (s : State) : Frame × State :=
  let r := (if f.moved then o.spill else []).foldl readWord (f, s)
  readFrame { o with words := o.words.map WordFault.secded } { r.1 with moved := false } r.2

/-- A frame of the reserve is the last of class queue q, with a fresh copy of its framing words. -/
noncomputable def refilled (q : Nat) (x : Frame × State) : State :=
  { x.2 with buf.asm := updAt (fun l => l ++ [x.1.copied]) q x.2.buf.asm }

/-- The state without the oldest frame of reserve queue q. -/
noncomputable def reserveGone (q : Nat) (l : List Frame) (s : State) : State := { s with buf.res := s.buf.res.set q l }

theorem refillRead_clean {o : ReadObs} (hw : o.words = []) (hs : o.spill = []) (f : Frame) (s : State) :
    (refillRead o f s).1 = { f with moved := false } :=
  (readFrame_of_words (o := { o with words := o.words.map WordFault.secded }) (congrArg (List.map WordFault.secded) hw) _ _).trans
    ((congrArg (fun l : List WordFault => { (l.foldl readWord (f, s)).1 with moved := false }) ((if_congr Iff.rfl hs rfl).trans (ite_self []))))

theorem readView_refilled {q : Nat} {x : Frame × State} {s : State} (h : readView x.2 = readView s) :
    readView (settle (refilled q x)) = readView (refilled q (x.1, s)) :=
  (readView_settle _).trans (congrArg (fun v => refilled q (x.1, v)) h :)

section
variable {s : State} {q : Nat} {f : Frame} {l : List Frame}

theorem refill_of_head (o : ReadObs) (hq : refillQueue s = some q) (hf : s.buf.res[q]? = some (f :: l)) :
    refill o s = refilled q (refillRead o f (reserveGone q l s)) :=
  (congrArg (fun o' : Option Nat => match o' with
      | some q => match s.buf.res.getD q [] with
        | f :: l => refilled q (refillRead o f (reserveGone q l s))
        | [] => s
      | none => s) hq).trans
    (congrArg (fun l' : Option (List Frame) => match l'.getD [] with
      | f :: l => refilled q (refillRead o f (reserveGone q l s))
      | [] => s) hf)

theorem reserveRefill_next (hl : live s = true) (o : ReadObs)
    (hq : refillQueue s = some q) (hf : s.buf.res[q]? = some (f :: l)) :
    ∃ t g, exec (.reserveRefill o) s = .next t ∧ t.buf.res = s.buf.res.set q l ∧ t.buf.asm = updAt (· ++ [g]) q s.buf.asm ∧
      (o.words = [] → o.spill = [] → g = { f with moved := false }.copied) ∧
      t.pending = s.pending ∧ t.power = s.power ∧ t.time = s.time ∧ t.conf = s.conf ∧ t.act = s.act ∧ t.out = s.out :=
  have h := readView_refilled (q := q) (x := refillRead o f (reserveGone q l s)) (s := reserveGone q l s)
    ((readView_readFrame _ _ _).trans (readView_words _ (f, reserveGone q l s)))
  ⟨_, (refillRead o f (reserveGone q l s)).1.copied, exec_done hl rfl (refill_of_head o hq hf), congrArg (fun v => v.buf.res) h,
    congrArg (fun v => v.buf.asm) h, fun hw hs => congrArg Frame.copied (refillRead_clean hw hs f (reserveGone q l s)), (reads_of_view h :)⟩

end

/-- Settles O51: each move by what it takes from the queues, and a read that leaves the stores of frames. -/
theorem streamBufferMoves : Obligations.StreamBufferMoves :=
  fun _s hl => ⟨fun o _q _f _l => sbufEnter_next hl o, fun _e _l => sbufLineRelease_next hl, sbufLineRelease_again hl,
    fun o _q _f _l hq hf _h => reserveRefill_next hl o hq hf⟩

end Sys2Proof.Machine
